-- ==== Sys2Proof/Word.lean ====
section
/-! DEFINITION. The word types of the bar and the types of the operands its commands carry. -/

namespace Sys2Proof

/-- One byte. -/
abbrev Byte := BitVec 8
/-- A 16-bit word: a Carousel instruction word, a segment-link stream word. -/
abbrev Word16 := BitVec 16
/-- A 32-bit word: a Carousel register or queue word. -/
abbrev Word32 := BitVec 32
/-- A 64-bit word: a position counter (R391). -/
abbrev Word64 := BitVec 64

/-- The two channels on which the SDO server takes transactions (R336): the EtherCAT mailbox and the bench channel. -/
inductive Channel where
  | mailbox
  | bench
  deriving DecidableEq, Repr

/-- A rising or a falling edge of a pin or cue. -/
inductive Edge where
  | rising
  | falling
  deriving DecidableEq, Repr

/-- What an event of a Carousel channel says (R370). -/
inductive EventKind where
  | leading
  | trailing
  | pulse
  deriving DecidableEq, Repr

/-- An encoder wire (R88). -/
inductive EncWire where
  | a
  | b
  | z
  deriving DecidableEq, Repr

/-- What a sample of A and B shows: a count of the phase relation's direction, or both changed at once (R88). -/
inductive CountDir where
  | up
  | down
  | both
  deriving DecidableEq, Repr

/-- A Safety Net cause with a timed clearing condition (Table 15-2): untimely stripes, late verdicts, a stalled stage of a
segment (0xFF: the hub) and class that progresses again since a time. -/
inductive ClearCause where
  | spool
  | late
  | stage (seg cls since : Nat)
  deriving DecidableEq, Repr

/-- What a test of Table 15-3 reads: the codes, words or times it got, those it should get, and SBF faults met. -/
structure TestReading where
  got : List Int
  want : List Int
  faults : Nat
  deriving DecidableEq, Repr

/-- An edge of an encoder's input line that has been stable for a time, in ns (R87). -/
structure HeldEdge where
  enc : Fin 2
  held : Nat
  deriving DecidableEq, Repr

/-- How a frame reaches a data port: the port, the VLAN ID of its 802.1Q tag, and whether its IP packet is a fragment. -/
structure Ingress where
  port : Fin 4
  tag : Option Nat := none
  fragment : Bool := false
  deriving DecidableEq, Repr

/-- What a request for SAFE-OP finds set up: SYNC0, and the process data watchdog's time in ns if the master has written it. -/
structure SyncSetup where
  sync0 : Bool
  pdTime : Option Nat
  deriving DecidableEq, Repr

/-- An RxPDO: its 80 bytes, and when the master wrote them. -/
structure RxFrame where
  bytes : List Byte
  written : Nat
  deriving DecidableEq, Repr

/-- A scrub of the MRAM at t: the uncorrectable words it found, region and address (Table 16-5). -/
structure ScrubMoment where
  t : Nat
  lost : List (Fin 13 × Nat)
  deriving DecidableEq, Repr

/-- A pin that has stood at a level for a time, in ns, when a command comes about at t. -/
structure PinReading where
  t : Nat
  level : Bool
  held : Nat
  deriving DecidableEq, Repr

/-- A rail of Table 17-8 that has stood at a voltage for a time, in ns. -/
structure RailReading where
  rail : Fin 6
  mv : Nat
  held : Nat
  deriving DecidableEq, Repr

/-- A moment at which the bar may ask the core regulator for a voltage: does the regulator take the request (R21, R410)? -/
structure VcoreMoment where
  t : Nat
  ack : Bool
  pec : Bool                        -- the PEC byte fits
  deriving DecidableEq, Repr

/-- The core regulator's reply to one transaction (R410, R412): the value read, anything to a write it takes, or none where it
does not acknowledge; does the PEC match? -/
structure PmbusReply where
  value : Option Nat
  pec : Bool
  deriving DecidableEq, Repr

/-- What the core regulator answers to a poll, READ_VOUT in mV and STATUS_WORD; a retry has one transaction and takes the first
reply. Does it take what follows: CLEAR_FAULTS after a fault, the start voltage after VOUT_MODE? -/
structure PmbusAnswer where
  vout : PmbusReply
  status : PmbusReply
  clear : Bool
  deriving DecidableEq, Repr

/-- One slot's conversions of a band in a segment line: the row converted and the ADC codes from a first column of the
segment on (R55, R58). -/
structure Conv where
  band : Nat
  row : Nat
  slot : Nat
  first : Nat
  codes : List Nat
  deriving DecidableEq, Repr

/-- The moments of an FoE write that its row names: its request, and the end of the checks after its last packet (R349). -/
inductive FoeStep where
  | request
  | checked
  deriving DecidableEq, Repr

/-- The up-bus words of WTYPE 0b000 to 0b111 (Table 1-4). -/
inductive UpType where
  | idle
  | pixels
  | coded
  | sideband
  | candidates
  | streak
  | seam
  | status
  deriving DecidableEq, Repr

def upType (w : BitVec 3) : UpType :=
  match w.toNat with
  | 0 => .idle | 1 => .pixels | 2 => .coded | 3 => .sideband | 4 => .candidates | 5 => .streak | 6 => .seam | _ => .status

/-- The down-bus words of WTYPE 0b000 to 0b111 (Table 1-4). -/
inductive DownType where
  | idle
  | reference
  | seam
  | calibration
  | parameters
  | golden
  | commands
  | reserved
  deriving DecidableEq, Repr

def downType (w : BitVec 3) : DownType :=
  match w.toNat with
  | 0 => .idle | 1 => .reference | 2 => .seam | 3 => .calibration | 4 => .parameters | 5 => .golden | 6 => .commands | _ => .reserved

/-- Consecutive words on a segment link with the same framing signals (Table 1-3). -/
structure WordRun where
  wtype : BitVec 3
  lstart : Bool                     -- the first word of the run is the first of a line
  istart : Bool                     -- an item boundary falls at this line
  ctx : BitVec 2
  lvalid : Bool
  count : Nat
  deriving DecidableEq, Repr

/-- What a row of a band gives its column ADCs in a line: pixel signals in e⁻, from a first column of the segment on. -/
structure RowSignal where
  band : Nat
  row : Nat
  first : Nat
  signals : List Int
  deriving DecidableEq, Repr

/-- A segment's line at the hub: the words that have arrived, in order, the pixel signals behind them, and what the
segment reports in its status words (R17, R57, R162, R242). -/
structure SegLine where
  words : List WordRun
  early : Bool                      -- the next line's LSTART came before this line was complete
  badBlock : Bool                   -- a coded block has the wrong length
  rows : List RowSignal
  dark0 : List Int                  -- signals of the 7,680 pixels of dark row D0, in e⁻
  dark1 : List Int
  adcOverrun : Bool                 -- ADC_OVERRUN
  reserved : List (BitVec 3)        -- down-bus words it ignored and reports
  sbfFaults : List (Nat × Nat)      -- (plane, group of 16 blocks) in which its decoder replica found a FAULT
  deriving DecidableEq, Repr

/-- A datagram or frame received at a data port, from an address (16 bytes, IPv4 mapped) and UDP port. -/
structure Rx where
  port : Fin 4
  addr : List Byte
  udp : Nat
  bytes : List Byte                 -- the UDP payload
  tag : Option Nat := none          -- VLAN ID of its 802.1Q tag
  fragment : Bool := false          -- its IP packet is a fragment
  zeroSum : Bool := false           -- its UDP checksum is 0
  dst : Nat := 48500                -- the UDP port it is sent to
  deriving DecidableEq, Repr

/-- A block of the NAND (R263): its LUN, numbered channel × LUNs per channel + LUN index, its plane and block address. -/
structure BlockId where
  lun : Nat
  plane : Nat
  addr : Nat
  deriving DecidableEq, Repr

/-- What discovery finds at a chip enable of a channel (R258, R259): the bytes of READ ID, the copies of the parameter page
as read, and what the page of an ONFI 5.x part says in a coding the spec does not give. -/
structure Target where
  channel : Fin 8
  ce : Nat
  id : List Byte
  copies : List (List Byte)
  onfi5 : Bool
  lpddr4 : Nat                      -- fastest NV-LPDDR4 timing mode of the target in MT/s; 0: it has none
  suspend : Bool                    -- program suspend, erase suspend and resume
  deriving DecidableEq, Repr

/-- What a mount finds on the NAND channels. -/
structure Found where
  targets : List Target
  marked : List BlockId             -- byte 0 of the spare area of the block's first or last page reads 0x00 (R265)
  deriving DecidableEq, Repr

/-- A codeword that is read (R261): corrected bits of the hard decode, none where it fails; what the soft re-reads give. -/
structure Codeword where
  hard : Option Nat
  soft : List (Option Nat)
  deriving DecidableEq, Repr

/-- A reference block as a segment's decoder takes it from a delivered stripe: segment, plane, block in the plane, and the
bits by which it arrives otherwise than it was delivered (R176, R238). -/
structure BlockRead where
  seg : Fin 8
  plane : Fin 4
  block : Nat
  err : List Byte
  deriving DecidableEq, Repr

/-- A stripe read of a reference: the stripe, when the read was issued, and blocks of it as segments read them (R268). -/
structure StripeData where
  stripe : Nat
  issued : Nat
  blocks : List BlockRead
  deriving DecidableEq, Repr

/-- A plane of a LUN. -/
structure PlaneAt where
  lun : Nat
  plane : Nat
  deriving DecidableEq, Repr

/-- A channel-page of a group (R263). -/
structure PageAt where
  page : Nat
  channel : Fin 8
  deriving DecidableEq, Repr

/-- What the silicon does while the bar starts (R444 to R446, R411). -/
structure BootInput where
  refclk : Bool                     -- REFCLK runs
  fwStarts : Bool                   -- the selected firmware can start
  absent : List (Fin 8)             -- segments that do not answer at bring-up
  voutMode : Option Nat             -- VOUT_MODE as the regulator gives it, if it answers
  modePec : Bool                    -- the PEC of that answer matches
  vcoreAck : Bool                   -- the regulator takes the start voltage
  vcorePec : Bool                   -- the PEC byte of that write fits
  /-- Fuse rows whose margin reads are not those of the start before: segment or hub, row, low and high read (R451). -/
  fuses : List (Option (Fin 8) × Nat × Nat × Nat)
  deriving DecidableEq, Repr

/-- No NAND answers. -/
def Found.none : Found := { targets := [], marked := [] }

end Sys2Proof
end

