-- ==== Sys2Proof/Machine/MgmtTypes.lean ====
section
/-! DEFINITION. State of the management plane (chapters 1 and 11): parameter copies, SDO channels, event log,
mailbox queue, process data, the EtherCAT slave and file transfer. -/

namespace Sys2Proof.Machine

/-- The value of a dictionary entry: a number (two's complement for the INTEGER types) or a string or DOMAIN. -/
inductive Val where
  | num (n : Int)
  | raw (bs : List Byte)
  deriving DecidableEq, Repr

/-- Values that differ from where the dictionary's defaults stand: (index · 256 + subindex, value), keys rising. -/
abbrev Store := List (Nat × Val)

/-- The armed state 0x2010:05. -/
inductive ArmedState where
  | empty
  | validating
  | armed
  deriving DecidableEq, Repr

/-- The four states of the slave (Table 11-1). -/
inductive AlState where
  | init
  | preop
  | safeop
  | op
  deriving DecidableEq, Repr

/-- What an SDO transaction asks (Table 11-10 numbers them 1 to 4). -/
inductive SdoOp where
  | upload
  | download
  | uploadCa
  | downloadCa
  | unknown (code : Nat)   -- of a BENCH_REQ that names none of the four
  deriving DecidableEq, Repr

/-- A complete SDO request, with the bench session and tag it came with. -/
structure SdoRequest where
  ch : Channel
  op : SdoOp
  index : Nat
  sub : Nat
  value : List Byte
  session : Nat := 0       -- KSID of the bench session
  tag : Nat := 0
  lost : Bool := false     -- its transfer has been aborted: it is not answered (R331)
  stuck : List Nat := []       -- what the fuses of a security command do: the counter bits that stay unset,
  stuckMask : Nat := 0         -- and the field-close bits that do (R456, R458)
  deriving DecidableEq, Repr

/-- What arrives at the mailbox for the SDO server. -/
inductive SdoFrame where
  | request (r : SdoRequest)            -- a complete transaction
  | segment (index sub : Nat)           -- a segment that leaves its transfer open
  | toggleError (index sub : Nat)
  | unknownCommand (index sub : Nat)
  | odList (kind : Nat)                 -- SDO Information: a list of objects (0: how long the lists are)
  | objectInfo (index : Nat)            -- SDO Information: an object description
  | describe (index sub : Nat)          -- SDO Information: an entry description
  deriving DecidableEq, Repr

/-- A segmented transfer in progress on the mailbox (R335). -/
structure SegTransfer where
  index : Nat
  sub : Nat
  since : Nat
  deriving DecidableEq, Repr

/-- What one channel of the SDO server holds of its own: read view (R35), last abort (R338), log read pointer. -/
structure SdoChannel where
  readView : Nat
  lastDetail : Nat
  lastAbort : Nat
  lastEntry : Nat
  logPtr : Nat
  deriving DecidableEq, Repr

def SdoChannel.reset : SdoChannel := ⟨0, 0, 0, 0, 0⟩

/-- An event log entry (Table 11-14). -/
structure LogEntry where
  time : Nat
  line : Nat
  code : Nat
  severity : Nat
  sent : Bool              -- FLAGS[0]
  dropped : Bool           -- FLAGS[1]
  number : Nat
  arg : Nat
  deriving DecidableEq, Repr

/-- The event log of R352: a ring in MRAM, newest entry first, and the times of the codes whose logging is limited
to once per second (or hour) for one unit: ((code, unit), time). -/
structure EventLog where
  entries : List LogEntry
  next : Nat
  overwritten : Nat
  emergDropped : Nat
  limits : List ((Nat × Nat) × Nat)
  deriving DecidableEq, Repr

def EventLog.reset : EventLog := ⟨[], 0, 0, 0, []⟩

/-- A message waiting in SM1 for the master to read (R327, R353). -/
inductive MailItem where
  | emergency (bytes : List Byte)
  /-- `line`: the line boundary of an upload's snapshot (R24). -/
  | sdoResponse (index sub : Nat) (abort : Nat) (value : List Byte) (line : Nat)
  /-- SDO Information: a response, by its opcode (R327, R334). -/
  | sdoInfo (opcode : Nat) (bytes : List Byte)
  | mailboxError (type : Nat)
  | foeAck (packet : Nat)
  | foeBusy
  | foeData (packet : Nat) (bytes : List Byte)
  | foeError (code : Nat) (text : List Byte)
  deriving DecidableEq, Repr

/-- The FoE files of Table 11-12. -/
inductive FoeFile where
  | firmware
  | calibration
  | nozzleMap
  | mediaProfile
  | job
  | eventlog
  | logbundle
  | identity
  | quote
  deriving DecidableEq, Repr

/-- The FoE transfer that runs (R349): the file, the next packet number, and the bytes so far or still to send. `busySince`: the
time of the last BUSY, while the ACK of the last packet is withheld or the checks run. -/
structure FoeTransfer where
  file : FoeFile
  nextPacket : Nat
  bytes : List Byte
  busySince : Option Nat := none
  checking : Bool := false         -- the last packet is in, and the checks run; or, of a file read, it is out
  deriving DecidableEq, Repr

/-- The parameter copies and object 0x2010 (R33 to R43). -/
structure Params where
  staged : Store
  armed : Store
  live : Store
  rw : Store               -- RW and RW_PREOP objects, which have one copy
  armedState : ArmedState
  liveGen : Nat
  armedGen : Nat
  lastApply : Nat
  refused : Nat
  armedMode : Nat          -- apply mode, line and lane the armed set took at its ARM (R38)
  armedLine : Nat
  armedLane : Nat
  armedAt : Nat            -- n_arm
  armRequest : Option SdoRequest   -- the ARM being validated
  waiting : List SdoRequest        -- SDO transactions that arrived during validation (R36, R336)
  laneSets : Vector (Store × Nat) 32   -- lane-local copy and its generation live in each lane (R39)
  deriving DecidableEq, Repr

/-- A stored parameter image (R339) with its age; `valid` is its CRC-32C check. -/
structure ParamImage where
  values : Store
  serial : Nat
  valid : Bool
  deriving DecidableEq, Repr

/-- What the MRAM holds of parameters (R339 to R341). -/
structure Persist where
  image0 : Option ParamImage
  image1 : Option ParamImage
  anchor : Nat             -- which image is the newest
  restoreMark : Bool
  state : Nat              -- 0x2011:01
  stores : Nat             -- 0x2011:02
  refused : Bool           -- the last start refused the newest image (R341)
  deriving DecidableEq, Repr

/-- The EtherCAT slave and its process data (R327 to R346). -/
structure Ecat where
  al : AlState
  alError : Bool
  alCode : Nat
  safeopWaiting : Option Nat   -- a request for SAFE-OP waits for validation to end; the code its sync managers earn, or 0
  rxSeen : Bool            -- an RxPDO was sampled since SAFE-OP entry
  pdTime : Nat             -- process data watchdog in ns (R332)
  pdAt : Nat               -- when the master last wrote the RxPDO
  rx : List Nat            -- 0x2020:01 to :0A
  sampled : Bool           -- a cycle was sampled in this session (R344)
  sampleTime : Nat
  sampleLine : Nat         -- live line index at the sample (R40)
  annSlot : Nat            -- next slot of the sampled RxPDO to scan (4: done)
  annTaken : Nat
  annGap : Bool
  ctrlReserved : Bool
  checkin6 : Bool          -- a change of HWD6 waits for its check-in step
  checkin7 : Bool
  applyPend : Bool         -- a change of CONTROL[1] waits for its command
  releasePend : Bool       -- a 0 to 1 change of CONTROL[2]
  applyEcho : Bool
  applyRefused : Bool
  applyEchoNext : Bool
  applyRefusedNext : Bool
  vack : Nat
  vackEn : Bool
  tx : List Nat            -- 0x2021:01 to :18
  txImage : List Byte      -- the 168 bytes last latched (Table 11-7)
  vq : List (Nat × (Nat × Option Nat))  -- unretired: (slot number, (128-bit slot, latch last presented at))
  vqNext : Nat             -- number of the next published verdict
  vqP : Nat                -- P
  vqBase : Nat             -- the oldest unretired slot
  vqLost : Nat
  latches : Nat
  cycles : Nat             -- 0x2012:01
  annCount : Nat
  checkins6 : Nat
  checkins7 : Nat
  vackIgnored : Nat
  slotsLost : Nat
  annGaps : Nat
  ctrlCycles : Nat
  pdExpiries : Nat
  session : Bool
  preopReached : Bool
  deriving DecidableEq, Repr

def Ecat.reset : Ecat :=
  { al := .init, alError := false, alCode := 0, safeopWaiting := none, rxSeen := false,
    pdTime := 100000000, pdAt := 0, rx := List.replicate 10 0, sampled := false, sampleTime := 0, sampleLine := 0, annSlot := 4, annTaken := 0, annGap := false,
    ctrlReserved := false, checkin6 := false, checkin7 := false, applyPend := false, releasePend := false,
    applyEcho := false, applyRefused := false, applyEchoNext := false, applyRefusedNext := false, vack := 0,
    vackEn := false, tx := [8, 0, 0, 0, 0, 0, 0, 0xFFFF] ++ List.replicate 16 0,
    txImage := [8] ++ List.replicate 25 0 ++ [0xFF, 0xFF] ++ List.replicate 140 0, vq := [], vqNext := 0, vqP := 0, vqBase := 0,
    vqLost := 0, latches := 0, cycles := 0, annCount := 0, checkins6 := 0, checkins7 := 0, vackIgnored := 0,
    slotsLost := 0, annGaps := 0, ctrlCycles := 0, pdExpiries := 0, session := false, preopReached := false }

def Params.reset : Params :=
  { staged := [], armed := [], live := [], rw := [], armedState := .empty, liveGen := 0, armedGen := 0,
    lastApply := 0, refused := 0, armedMode := 0, armedLine := 0, armedLane := 0, armedAt := 0,
    armRequest := none, waiting := [], laneSets := Vector.replicate 32 ([], 0) }

def Persist.reset : Persist :=
  { image0 := none, image1 := none, anchor := 0, restoreMark := false, state := 0, stores := 0, refused := false }

end Sys2Proof.Machine
end

