-- ==== Sys2Proof/Machine/Bits.lean ====
section
/-! DEFINITION. Bit fields, byte orders, saturating counts and check values used by every block of the bar. -/

namespace Sys2Proof.Machine

/-- Bits [hi:lo] of a natural number. -/
def bits (x hi lo : Nat) : Nat := (x >>> lo) % 2 ^ (hi + 1 - lo)

/-- Bit i of a natural number. -/
def bit (x i : Nat) : Bool := x.testBit i

/-- 1 for true, 0 for false. -/
def b2n (b : Bool) : Nat := if b then 1 else 0

/-- x with bit i set or cleared. -/
def putBit (x i : Nat) (v : Bool) : Nat :=
  if bit x i = v then x else if v then x + 2 ^ i else x - 2 ^ i

/-- A count that stays at its largest value (the "saturating" counts of the object tables), 32 bits wide. -/
def sat32 (x : Nat) : Nat := if x < 0xFFFFFFFF then x + 1 else 0xFFFFFFFF

/-- A saturating count raised by n. -/
def satAdd32 (x n : Nat) : Nat := min 0xFFFFFFFF (x + n)

/-- The value of bytes, little-endian. -/
def leNat : List Byte → Nat
  | [] => 0
  | b :: bs => b.toNat + 256 * leNat bs

/-- n bytes of x, little-endian. -/
def leBytes : (n : Nat) → Nat → List Byte
  | 0, _ => []
  | n + 1, x => BitVec.ofNat 8 x :: leBytes n (x / 256)

/-- The value of bytes, big-endian. -/
def beNat (bs : List Byte) : Nat := leNat bs.reverse

/-- n bytes of x, big-endian. -/
def beBytes (n x : Nat) : List Byte := (leBytes n x).reverse

/-- The field of n bytes at an offset of a record, little-endian; bytes beyond its end count as 0. -/
def leAt (bs : List Byte) (off n : Nat) : Nat := leNat ((bs.drop off).take n)

/-- n bytes at an offset. -/
def sliceAt (bs : List Byte) (off n : Nat) : List Byte := (bs.drop off).take n

/-- n zero bytes. -/
def zeros (n : Nat) : List Byte := List.replicate n 0

/-- The bytes padded with zeros to n, or cut at n. -/
def padTo (n : Nat) (bs : List Byte) : List Byte := bs.take n ++ zeros (n - bs.length)

/-- The two's complement reading of the low w bits of x. -/
def signed (w x : Nat) : Int :=
  let y := x % 2 ^ w
  if y < 2 ^ (w - 1) then (y : Int) else (y : Int) - (2 ^ w : Nat)

/-- An MRAM region of two slots, switched by one anchor word (R459); `inB`: the second slot is in force. -/
structure Slots where
  a : List Byte
  b : List Byte
  inB : Bool
  deriving DecidableEq, Repr

/-- A blank region. -/
def Slots.blank : Slots := ⟨[], [], false⟩

/-- The content in force. -/
def Slots.current (s : Slots) : List Byte := if s.inB then s.b else s.a

/-- New content: written to the slot that is not in force, which the anchor then switches to. -/
def Slots.put (s : Slots) (bs : List Byte) : Slots := if s.inB then { s with a := bs, inB := false } else { s with b := bs, inB := true }

/-- The low w bits of an integer, two's complement. -/
def unsigned (w : Nat) (x : Int) : Nat := (x % (2 ^ w : Nat)).toNat

/-- An integer clamped to [lo, hi]. -/
def clampI (lo hi x : Int) : Int := if x < lo then lo else if hi < x then hi else x

/-- ⌈a / b⌉, 0 when b is 0. -/
def ceilDiv (a b : Nat) : Nat := if b = 0 then 0 else (a + b - 1) / b

/-- Element i of a list changed by f; a list too short stays as it is. -/
def updAt {α : Type} (l : List α) (i : Nat) (f : α → α) : List α := l.modify i f

/-- Element i of a fixed vector changed by f. -/
def vmod {α : Type} {n : Nat} (v : Vector α n) (i : Fin n) (f : α → α) : Vector α n :=
  v.set i.val (f v[i]) i.isLt

/-- One step of a reflected CRC: eight shifts of the register. -/
def crcShift (poly : Nat) : Nat → Nat → Nat
  | 0, r => r
  | k + 1, r => crcShift poly k (if r % 2 = 1 then (r / 2).xor poly else r / 2)

/-- A reflected CRC over bytes from register value r. -/
def crcReflected (poly : Nat) : List Byte → Nat → Nat
  | [], r => r
  | b :: bs, r => crcReflected poly bs (crcShift poly 8 (r.xor b.toNat))

/-- CRC-32C of the spec (polynomial 0x1EDC6F41, reflected 0x82F63B78; initial and final value all ones; R230). -/
def crc32c (bs : List Byte) : Nat := (crcReflected 0x82F63B78 bs 0xFFFFFFFF).xor 0xFFFFFFFF

/-- Adler-32 of RFC 1950, by its two sums. -/
def adlerSums : List Byte → Nat → Nat → Nat × Nat
  | [], a, b => (a, b)
  | x :: xs, a, b => let a' := (a + x.toNat) % 65521; adlerSums xs a' ((b + a') % 65521)

/-- Adler-32 of RFC 1950. -/
def adler32 (bs : List Byte) : Nat := let (a, b) := adlerSums bs 1 0; b * 65536 + a

/-- Characters of an ASCII string as bytes. -/
def asciiBytes (s : String) : List Byte := s.toList.map fun c => BitVec.ofNat 8 c.toNat

end Sys2Proof.Machine
end

