-- ==== Sys2Proof/Machine/StorageTypes.lean ====
section
/-! DEFINITION. State of flash storage (chapter 9). -/

namespace Sys2Proof.Machine

/-- Storage states, 0x2800:01. -/
inductive StState where
  | absent
  | unformatted
  | formatting
  | mounting
  | mounted
  | sealing
  | sealed
  | failed
  deriving DecidableEq, Repr

/-- Streams of groups (R263, R264); metadata is the journal and the checkpoints. -/
inductive StStream where
  | spool
  | evidence
  | ledger
  | archive
  | metadata
  deriving DecidableEq, Repr

/-- What a stored unit is: a chunk, an evidence object by (session, SEQ, INDEX), a ledger entry. -/
inductive StKey where
  | chunk (n : Nat)
  | object (session seq index : Nat)
  | entry (index : Nat)
  deriving DecidableEq, Repr

/-- A unit of data on its way to, or in, NAND. -/
structure StUnit where
  key : StKey
  bytes : List Byte
  line0 : Nat                      -- first line recorded, for a GAP entry
  line1 : Nat
  deriving DecidableEq, Repr

/-- A committed unit: the group it lies in and where in the group's user bytes; its write sequence number, which with the
stream and the logical position stands in the metadata of its codewords (R261); whether an uncorrectable codeword has made it
UNREADABLE. -/
structure Stored where
  data : StUnit
  group : Nat
  pool : Bool                      -- in the pin pool
  unreadable : Bool
  place : Nat
  wseq : Nat
  deriving DecidableEq, Repr

/-- The geometry that discovery gives (R258, R259, 0x2802). -/
structure Media where
  present : Bool                   -- some target answered
  uniform : Bool                   -- channels populated alike, every LUN with the same identity
  id : List Byte                   -- first 8 bytes of READ ID
  enables : Nat                    -- chip enables per channel
  perTarget : Nat                  -- LUNs per target
  planes : Nat
  multi : Bool                     -- multi-plane program and read
  pageData : Nat
  spare : Nat
  pages : Nat                      -- per block
  blocks : Nat                     -- per LUN
  onfi : Bool                      -- ONFI 5.x with NV-LPDDR4
  rate : Nat                       -- MT/s, the fastest mode both sides support
  suspend : Bool
  marked : List BlockId            -- blocks marked as factory-bad
  deriving DecidableEq, Repr

def Media.none : Media :=
  { present := false, uniform := false, id := [], enables := 0, perTarget := 0, planes := 0, multi := false, pageData := 0, spare := 0,
    pages := 0, blocks := 0, onfi := false, rate := 0, suspend := false, marked := [] }

/-- LUNs per channel. -/
def Media.luns (m : Media) : Nat := m.enables * m.perTarget

/-- A good block: its erase count, and when it was last refreshed, in powered ns (R280, R283). -/
structure Block where
  id : BlockId
  erases : Nat
  refreshed : Option Nat
  deriving DecidableEq, Repr

/-- A group (R263): one block of every plane of a LUN index on each of the 8 channels. -/
structure Group where
  id : Nat
  stream : Option StStream         -- none: free
  pool : Bool                      -- of its ring's pin pool (R272)
  order : Nat                      -- when it was opened, counted
  used : Nat                       -- user bytes programmed
  valid : Nat                      -- of those, valid (SPOOL)
  closed : Bool                    -- takes no more data
  erasing : Bool                   -- ERASE_START recorded, no ERASE_DONE
  blocks : List Block
  deriving DecidableEq, Repr

/-- A directory entry of the SPOOL: where a stripe of a reference lies (R267, R270), its write sequence number (R261), and the
8 channel-pages of that page stripe, the parity among them. -/
structure Stripe where
  handle : Nat
  index : Nat
  group : Nat
  page : Nat                       -- page stripe in the group
  wseq : Nat
  pages : List (List Byte)
  deriving DecidableEq, Repr

/-- A SPOOL stripe in full retry, read where it lay (R269, R270). -/
structure StripeRead where
  handle : Nat
  stripe : Nat
  issued : Nat
  group : Nat
  recovered : Bool                 -- its data is there, and waits to be rewritten to a new place
  deriving DecidableEq, Repr

/-- A journal record (R276). -/
inductive JournalRec where
  | located (key : StKey) (group : Nat)
  | stripes (handle : Nat)
  | eraseStart (group : Nat)
  | eraseDone (group : Nat)
  deriving DecidableEq, Repr

/-- An ITEM entry that waits to be formed (R290). -/
structure ItemEntry where
  seq : Nat
  verdict : List Byte
  published : Nat
  frame : Option (Nat × Nat)       -- [s, f), none for a refused announcement
  defects : Nat
  cropsDue : List Nat              -- INDEX of the guaranteed crops not yet staged
  crops : List (Nat × List Byte)   -- (INDEX, object) staged
  set : List Byte                  -- the VERDICT_SET object
  pinned : Bool
  lost : Bool                      -- a CROP was discarded
  refOffset : Int
  deriving DecidableEq, Repr

/-- The digests of a chunk needed by entries: (number, FIRST_N, END_N, SHA-512), and whether it was discarded. -/
structure ChunkInfo where
  number : Nat
  firstN : Nat
  endN : Nat
  digest : List Byte
  staged : Bool
  discarded : Bool
  deriving DecidableEq, Repr

/-- What a GAP entry tells of a loss (Table 9-10): the session in which data was lost, its lines, chunks and bytes, and the
first SEQ without an ITEM entry and the end of such, where the loss itself says them. -/
structure StGap where
  session : Nat
  line0 : Nat
  line1 : Nat
  chunk0 : Nat
  chunk1 : Nat                     -- chunk0 where no chunk was lost
  bytes : Nat
  seq : Option Nat
  seqEnd : Nat                     -- 0 if unknown
  deriving DecidableEq, Repr

/-- What a loss of power without sealing left to be told (R287): the gap, and the time of the last commit. -/
structure Loss where
  gap : StGap
  time : Nat
  deriving DecidableEq, Repr

/-- The values of 0x2801 at a FORMAT command (R264, R295). -/
structure FormatValues where
  spool : Nat
  evidence : Nat
  ledger : Nat
  share : Nat                      -- pin share, %
  deriving DecidableEq, Repr

/-- A word of the storage anchor's ring (R276, R460): its sequence number, the checkpoint slot it names, and how storage was
last left: 0 clean, 1 sealed, 2 neither. -/
structure AnchorWord where
  seq : Nat
  slot : Nat
  left : Nat
  deriving DecidableEq, Repr

/-- Storage. -/
structure Storage where
  state : StState
  lastShutdown : Nat
  mountMs : Nat
  media : Media
  pslc : Option (Nat × Nat)        -- the feature address and P1–P4 that entered pSLC mode on every LUN (R259)
  profSlots : Slots                -- stored media profile, empty if none (R260, R459)
  profState : Nat
  formatted : Bool
  quotaSpool : Nat
  quotaEvidence : Nat
  quotaLedger : Nat
  quotaArchive : Nat               -- GB, as formatted
  archiveBytes : Nat               -- what the ARCHIVE has, in user bytes (R264, R283)
  pinShare : Nat                   -- 0x2801:04 as formatted
  formatPending : Option FormatValues     -- a FORMAT that a mount or a sealing holds up
  outbox : List StUnit             -- formed, not yet offered to staging; oldest first
  staging : List StUnit
  staged : Nat                     -- bytes staged
  high : Nat
  uncovered : Bool
  full : Option StGap
  discards : Nat                   -- units discarded for want of room (R277)
  discarded : List Nat             -- chunk numbers discarded so, not older than what the ARCHIVE holds
  running : Nat                    -- n_P that governs the programs running (R404)
  stored : List Stored
  groups : List Group
  orders : Nat
  writeSeq : Nat                   -- write sequence numbers given out
  chunks : List ChunkInfo          -- newest first
  nextChunk : Nat
  lastChunk : Option Nat           -- last committed chunk
  commitAt : Nat                   -- time of the last commit
  ledger : List (Nat × List Byte)  -- newest first
  nextIndex : Nat
  lastHash : List Byte
  lastSeal : Option Nat
  sealTime : Nat
  sinceSeal : Nat                  -- entries since the last SEAL
  oldest : Nat
  exportLogged : Bool
  session : Nat
  gaps : Nat
  items : List ItemEntry
  pins : List (Nat × Nat)          -- (session, SEQ)
  pinChunks : List ((Nat × Nat) × List Nat)   -- the chunks of pinned items whose ledger entry is no longer held (R273)
  pfail : Bool                     -- PFAIL_N was accepted and has not returned
  pfailAt : Option Nat
  pfailGap : Option StGap          -- open PFAIL gap
  loss : Option Loss
  journal : List JournalRec        -- records waiting for their page, oldest first
  journalFrom : Option Nat         -- first record's time
  journalPages : Nat
  openSince : List Nat             -- groups open since the last checkpoint (R288)
  checkpointAt : Nat
  checkpoints : Nat
  slots : Vector (Option (Nat × Nat)) 2   -- the checkpoint slots: number and group of the checkpoint each holds
  ring : Vector (Option AnchorWord) 64    -- the storage anchor's ring of words in MRAM
  spool : List Stripe              -- the SPOOL directory
  retries : List StripeRead
  checks : List (Nat × Nat)        -- page stripes (group, page) scheduled for a patrol check (R269)
  awaiting : List (Nat × Nat)      -- SPOOL groups whose erase waits for reads issued before their stripes moved, and when they had (R270)
  retiring : List (Nat × Nat × Nat)       -- LUN, plane and group of blocks that are retired once their data is relocated (R283)
  refreshDue : List (Nat × List BlockId)  -- groups to be refreshed, and the blocks that asked for it (R282)
  stripesRead : Nat
  rebuilt : Nat
  untimely : Nat
  lost : Nat
  bad : List BlockId               -- the bad-block table
  reserve : List Block             -- reserve blocks left
  leftover : List Block            -- good blocks that make up no whole group
  retired : Nat
  sparesOut : List Nat
  powered : Nat                    -- powered ns before the present start
  erased : List (Nat × Nat)        -- block erases of the last 24 powered hours: powered ns and how many
  wearAt : Option Nat              -- last WEAR_AHEAD, powered ns
  patrolFrom : Nat
  patrolPages : List (Nat × Nat × Nat)    -- the period's committed pages: group, its opening order, page stripes
  patrolDone : List (Nat × Nat × Nat)     -- channel-pages read in the period: group, page, channel
  patrolPass : Nat
  refreshed : Nat
  rereads : Nat
  uncorrectable : Nat
  deriving DecidableEq, Repr

def Storage.reset : Storage :=
  { state := .absent, lastShutdown := 3, mountMs := 0, media := .none, pslc := none, profSlots := .blank, profState := 0,
    formatted := false, quotaSpool := 0, quotaEvidence := 0, quotaLedger := 0, quotaArchive := 0, archiveBytes := 0,
    pinShare := 0, formatPending := none, discarded := [], running := 32, pfail := false, openSince := [], retiring := [], refreshDue := [], leftover := [],
    outbox := [], staging := [], staged := 0, high := 0, uncovered := false, full := none, discards := 0, stored := [], groups := [],
    orders := 0, writeSeq := 0, chunks := [], nextChunk := 0, lastChunk := none, commitAt := 0, ledger := [], nextIndex := 0,
    lastHash := List.replicate 64 0, lastSeal := none, sealTime := 0, sinceSeal := 0, oldest := 0, exportLogged := false,
    session := 0, gaps := 0, items := [], pins := [], pinChunks := [], pfailAt := none, pfailGap := none, loss := none, journal := [],
    journalFrom := none, journalPages := 0, checkpointAt := 0, checkpoints := 0, slots := Vector.replicate 2 none, ring := Vector.replicate 64 none,
    spool := [], retries := [], checks := [], awaiting := [], stripesRead := 0, rebuilt := 0, untimely := 0, lost := 0, bad := [],
    reserve := [], retired := 0, sparesOut := [], powered := 0, erased := [], wearAt := none, patrolFrom := 0, patrolPages := [],
    patrolDone := [], patrolPass := 0, refreshed := 0, rereads := 0, uncorrectable := 0 }

/-- The media profile in force in MRAM. -/
def Storage.profile (s : Storage) : List Byte := s.profSlots.current

end Sys2Proof.Machine
end

