-- ==== Sys2Proof/Syntax.lean ====
section
/-! DEFINITION. The commands of the bar: one constructor per row of the table of operations and events. Every command
carries `t`, the timebase value in ns at which it comes about. An operand that is a physical measurement, a received
message or the outcome of silicon is what the outside world did; the command's meaning is what the bar does about it. -/

namespace Sys2Proof

inductive Instr where
  /-- ARM written to 0x2010:01 through the mailbox (R36). -/
  | arm (t : Nat)
  /-- The validation that runs ends: the set is copied, or refused for its apply line (R36 to R38). -/
  | copyToArmed (t : Nat)
  /-- DISARM written to 0x2010:01 (R41). -/
  | disarm (t : Nat)
  /-- The armed set goes live at the next line, if its apply mode says so (R38). -/
  | applyPoint (t : Nat)
  /-- The apply-line command of the sampled cycle (R40, R346). -/
  | applyLineCommand (t : Nat)
  /-- The next new announcement of the sampled cycle (R127, R128, R343). -/
  | announcement (t : Nat)
  /-- The check-in of slot 6, or 7, that the sampled cycle brought (R344). -/
  | hostCheckin (t : Nat) (seven : Bool)
  /-- The release request of the sampled cycle (R425, R426). -/
  | snRelease (t : Nat)
  /-- The TxPDO is latched (R345). -/
  | txpdoLatch (t : Nat)
  /-- PRE-OP is requested; `mail`: SM0 and SM1 have the mailbox size (R329). -/
  | alRequestPreop (t : Nat) (mail : Bool)
  /-- SAFE-OP is requested, with the lengths of SM2 and SM3, whether SYNC0 is active, and the process data watchdog time in ns if the master has set it (R329, R332). -/
  | alRequestSafeop (t : Nat) (sm2 : Nat) (sm3 : Nat) (sync : SyncSetup)
  /-- OP is requested (R329). -/
  | alRequestOp (t : Nat)
  /-- INIT is requested (R329, R331). -/
  | alRequestInit (t : Nat)
  /-- BOOT, or a state that does not exist, is requested (R327). -/
  | alRequestBoot (t : Nat) (boot : Bool)
  /-- The process data watchdog expires (R332). -/
  | smWatchdog (t : Nat)
  /-- A mailbox of a protocol type arrives that is neither CoE nor FoE (R327). -/
  | mailboxUnsupported (t : Nat) (type : Nat)
  /-- A message for the SDO server: a download to an entry without a row of its own, or another of the kinds `SdoFrame` lists (R335 to R338, R497). -/
  | sdoDownload (t : Nat) (frame : Machine.SdoFrame)
  /-- 1 s without a segment (R335). -/
  | sdoSegmentTimeout (t : Nat)
  /-- 'save' written to 0x1010:01 (R339). -/
  | store (t : Nat)
  /-- 'load' written to 0x1011:01 (R340). -/
  | restore (t : Nat)
  /-- 0x2F00:04 read through the mailbox (R352). -/
  | eventLogRead (t : Nat)
  /-- A handle written to 0x2540:09 (R172). -/
  | referenceDelete (t : Nat) (handle : Nat)
  /-- Track command 1 written to 0x2620:03, for the range in 0x2620:01 and :02 (R216). -/
  | mask (t : Nat)
  /-- Track command 2 written to 0x2620:03, for the range in 0x2620:01 and :02 (R216). -/
  | unmask (t : Nat)
  /-- Track command 3 written to 0x2620:03, for the range in 0x2620:01 and :02 (R216). -/
  | compensate (t : Nat)
  /-- Track command 4 written to 0x2620:03, for the range in 0x2620:01 and :02 (R216). -/
  | uncompensate (t : Nat)
  /-- Track command 5 written to 0x2620:03, for the range in 0x2620:01 and :02 (R216). -/
  | trackReset (t : Nat)
  /-- FORMAT written to 0x2800:02 (R265). -/
  | format (t : Nat)
  /-- Formatting completes (R265). -/
  | formatDone (t : Nat)
  /-- PIN of the item in 0x2805:01 and :02 (R273). -/
  | pin (t : Nat)
  /-- UNPIN of the item in 0x2805:01 and :02 (R273). -/
  | unpin (t : Nat)
  /-- RUN written to an engine (R374). -/
  | run (t : Nat) (e : Fin 4)
  /-- RUN_CLEAR written to an engine (R374). -/
  | runClear (t : Nat) (e : Fin 4)
  /-- HALT written to an engine (R373). -/
  | halt (t : Nat) (e : Fin 4)
  /-- Every channel of a halting engine has halted (R373). -/
  | engineHalted (t : Nat) (e : Fin 4)
  /-- An engine's program memory is written (R372). -/
  | programWrite (t : Nat) (e : Fin 4) (bytes : List Byte)
  /-- A word for a channel's command queue (R369). -/
  | commandQueueWrite (t : Nat) (k : Fin 64) (w : Word32)
  /-- A word of a channel's report queue (R369). -/
  | reportQueueRead (t : Nat) (k : Fin 64)
  /-- The start mask is written (R381). -/
  | timerStart (t : Nat) (mask : Word16)
  /-- The stop mask is written (R381). -/
  | timerStop (t : Nat) (mask : Word16)
  /-- Compare A or B of a timer is written (R386). -/
  | compareWrite (t : Nat) (i : Fin 16) (cmpB : Bool) (v : Word32)
  /-- The period of a timer is written (R387). -/
  | periodWrite (t : Nat) (i : Fin 16) (v : Word32)
  /-- A 64-bit value of a linked pair: its period, compare A, compare B or preset (R389). -/
  | pairWrite (t : Nat) (j : Fin 8) (sub : Fin 4) (v : Word64)
  /-- The preset of a position counter (R391). -/
  | positionPreset (t : Nat) (p : Fin 2) (v : Word64)
  /-- The count has reached a compare value (R382 to R385). -/
  | timerMatch (t : Nat) (i : Fin 16)
  /-- Security command RESET (R468). -/
  | reset (t : Nat)
  /-- Security command CONFIRM (R465). -/
  | confirm (t : Nat)
  /-- ADVANCE_SVN; `stuck` are the bits that stay unset (R456, R466). -/
  | advanceSvn (t : Nat) (stuck : List Nat)
  /-- ADVANCE_KEY_REV (R456, R466). -/
  | advanceKeyRev (t : Nat) (stuck : List Nat)
  /-- ADVANCE_CAL_GEN (R456, R467). -/
  | advanceCalGen (t : Nat) (stuck : List Nat)
  /-- FIELD_CLOSE; `stuckMask` are the bits that still read unset afterwards (R458). -/
  | fieldClose (t : Nat) (stuckMask : Nat)
  /-- A sensor's configuration, its SUBSTITUTE and SUB_EN set (R407). -/
  | substituteAssign (t : Nat) (i : Fin 26) (word : Word32)
  /-- RDX48.fw (R464): the request to write it, or the end of the checks of what came in. -/
  | firmwareWrite (t : Nat) (step : FoeStep)
  /-- cal.bin (R144): the request to write it, or the end of the checks of what came in. -/
  | calibrationWrite (t : Nat) (step : FoeStep)
  /-- nozzle.map (R203): the request to write it, or the end of the checks of what came in. -/
  | mapWrite (t : Nat) (step : FoeStep)
  /-- media.prof (R260): the request to write it, or the end of the checks of what came in. -/
  | profileWrite (t : Nat) (step : FoeStep)
  /-- job.zjc is opened for writing (R173). -/
  | jobContainerWrite (t : Nat)
  /-- A data packet of the file being written (R349). -/
  | foeDataPacket (t : Nat) (packet : Nat) (bytes : List Byte)
  /-- eventlog.bin (R349). -/
  | eventlogFileRead (t : Nat)
  /-- logbundle.bin (R351). -/
  | logbundleRead (t : Nat)
  /-- identity.crt (R475). -/
  | identityCertRead (t : Nat)
  /-- quote.bin (R473). -/
  | quoteRead (t : Nat)
  /-- A HELLO (R308). -/
  | hello (t : Nat) (rx : Rx)
  /-- A CLOSE (R309). -/
  | close (t : Nat) (rx : Rx)
  /-- 100 ms have passed: KEEPALIVE to a peer (R309). -/
  | keepaliveSend (t : Nat) (k : Fin 16)
  /-- 1,000 ms without a datagram from a peer (R309). -/
  | sessionTimeout (t : Nat) (k : Fin 16)
  /-- A REPLAY_REQ (R313). -/
  | replayReq (t : Nat) (rx : Rx)
  /-- A BENCH_REQ, with the further datagrams its value is spread over (R347, R348). -/
  | benchReq (t : Nat) (rx : Rx) (more : List Rx)
  /-- SPOOL BEGIN (R311). -/
  | spoolBegin (t : Nat) (rx : Rx)
  /-- SPOOL DATA (R311). -/
  | spoolData (t : Nat) (rx : Rx)
  /-- The ACK of an upload falls due (R311). -/
  | spoolAck (t : Nat) (k : Fin 16)
  /-- 5 s without DATA (R311). -/
  | uploadAborted (t : Nat) (k : Fin 16)
  /-- READBACK REQUEST (R274, R312). -/
  | readbackRequest (t : Nat) (rx : Rx)
  /-- CREDIT (R312). -/
  | credit (t : Nat) (rx : Rx)
  /-- A NOZZLE datagram of COMMAND records (R222). -/
  | commandRecord (t : Nat) (rx : Rx)
  /-- A NOZZLE datagram whose commands ask for SNAPSHOT (R221). -/
  | snapshot (t : Nat) (rx : Rx)
  /-- A datagram that fails a check (R314). -/
  | kspMalformed (t : Nat) (rx : Rx)
  /-- An ARP request (R298). -/
  | arpRequest (t : Nat) (p : Ingress) (mac : List Byte) (sender : List Byte) (target : List Byte)
  /-- An IPv6 neighbour solicitation (R298). -/
  | neighbourSolicitation (t : Nat) (p : Ingress) (sender : List Byte) (target : List Byte)
  /-- An ICMP or ICMPv6 echo request (R298). -/
  | echoRequest (t : Nat) (p : Ingress) (v6 : Bool) (sender : List Byte) (target : List Byte) (rest : List Byte)
  /-- Block lock lost for 1 ms (R299). -/
  | linkDown (t : Nat) (p : Fin 4)
  /-- Block lock held for 100 ms (R299). -/
  | linkUp (t : Nat) (p : Fin 4)
  /-- A reference offset is measured: SYNC0 (src 0xFE) or a port's 802.1AS Sync (R78). -/
  | syncMessage (t : Nat) (src : Nat) (offset : Int)
  /-- Three announce intervals without an Announce on a port (R80). -/
  | announceTimeout (t : Nat) (p : Fin 4)
  /-- The reference has been lost for more than 100 ms (R79). -/
  | discHold (t : Nat)
  /-- A SYNC_IN rising edge at time te (R82). -/
  | syncInEdge (t : Nat) (te : Nat)
  /-- 8 consecutive out-of-lock REFCLK cycles (R83). -/
  | tbUnlock (t : Nat)
  /-- 250,000 REFCLK cycles after the lock loss (R84). -/
  | tbHoldoverLimit (t : Nat)
  /-- Lock held for 100 µs (R85). -/
  | tbRelock (t : Nat)
  /-- No REFCLK edge for 200 ns (R86). -/
  | refclkLost (t : Nat)
  /-- REFCLK back for 100 µs with the PLL locked (R86). -/
  | refclkReturn (t : Nat)
  /-- A or B has changed and been stable for `held` ns: an accepted count, or both at once, which is no count but a quadrature error (R87, R88). -/
  | encoderCount (t : Nat) (e : Fin 2) (dir : CountDir) (held : Nat)
  /-- A pair open or shorted for 1 µs (R88). -/
  | encWire (t : Nat) (e : Fin 2) (w : EncWire)
  /-- A Z rising edge that has been stable for a time (R87, R89). -/
  | zEdge (t : Nat) (edge : HeldEdge)
  /-- No count for the zero-speed timeout (R91). -/
  | zeroSpeed (t : Nat)
  /-- 1 ms without overspeed (R90). -/
  | overspeedClear (t : Nat)
  /-- The 64th DR line without relock (R103). -/
  | syncLost (t : Nat)
  /-- A trigger request made at time r (R71, R94, R104). -/
  | triggerRequest (t : Nat) (r : Nat)
  /-- 500 µs without a further trigger (R64). -/
  | crawlLineTimeout (t : Nat)
  /-- A segment's words for line n have arrived (R162). -/
  | segmentLine (t : Nat) (seg : Fin 8) (n : Nat) (line : SegLine)
  /-- A segment's line n is not complete at LTRIG n + 16; `line` is what has arrived (R162). -/
  | segmentLineTimeout (t : Nat) (seg : Fin 8) (n : Nat) (line : SegLine)
  /-- The event router hands on a channel's event (R370). -/
  | eventRouted (t : Nat) (k : Fin 64)
  /-- A lane processes its next cue edge, of timestamp te (R123, R124). -/
  | cueEdge (t : Nat) (lane : Fin 32) (te : Nat)
  /-- A cue is still active at s + L_max (R126). -/
  | stuckCue (t : Nat) (lane : Fin 32)
  /-- Frames that have reached their end close (R130). -/
  | frameClose (t : Nat)
  /-- The verdict of an item is formed and published (R195). -/
  | verdictPublish (t : Nat) (lane : Fin 32) (number : Nat)
  /-- An item's guard fires (R195). -/
  | verdictLate (t : Nat) (lane : Fin 32) (number : Nat)
  /-- A measurement of every stage class: location, class and the replica's cycle time in ps (R20). -/
  | slackMeasurement (t : Nat) (ms : List (Nat × Nat × Nat))
  /-- A 1 ms interval ends (R21). -/
  | slackInterval (m : VcoreMoment)
  /-- Slack has stayed high for 100 ms (R21). -/
  | vcoreLower (m : VcoreMoment)
  /-- 8 measurements at or below 0 % with every token withheld (R21). -/
  | slackSafetyNet (t : Nat)
  /-- READ_VOUT and STATUS_WORD are read, or fail (R410). -/
  | pmbusPoll (t : Nat) (answer : PmbusAnswer)
  /-- A failed transaction is retried (R412). -/
  | pmbusRetry (t : Nat) (answer : PmbusAnswer)
  /-- A sensor is measured: what its converter reads, flagged open or shorted (R397, R409). -/
  | sensorSample (t : Nat) (i : Fin 26) (reading : Nat) (flagged : Bool)
  /-- A step-up interval ends (R402). -/
  | demandStepUp (t : Nat) (i : Fin 26)
  /-- A step-down interval ends (R402). -/
  | demandStepDown (t : Nat) (i : Fin 26)
  /-- Decided class P steps whose boundary has come take effect (R120). -/
  | compStep (t : Nat)
  /-- The decided class B step takes effect (R403). -/
  | bStep (t : Nat)
  /-- A shutdown diode trips (R408). -/
  | thermalTrip (t : Nat) (i : Fin 26) (peak : Int) (openFor : Nat)
  /-- On-die sensors have been cool for 10 s (R409). -/
  | thermalRestart (t : Nat)
  /-- Storage mounts with the media it discovers, in `ms` (R288). -/
  | mount (t : Nat) (found : Found) (ms : Nat)
  /-- PFAIL_N low for 10 µs (R284). -/
  | pfailAccepted (t : Nat)
  /-- Sealing is complete (R284). -/
  | pfailSealed (t : Nat)
  /-- PFAIL_N high for 100 ms without a reset (R286). -/
  | pfailResumed (t : Nat)
  /-- A metadata checkpoint (R276). -/
  | checkpoint (t : Nat)
  /-- A journal page is written (R276). -/
  | journalFlush (t : Nat)
  /-- All 8 channel-pages of a stripe read are decoded (R268, R238). -/
  | stripeRead (t : Nat) (handle : Nat) (data : StripeData)
  /-- T_s after a stripe read was issued, with the channel-pages decoded (R269, R238). -/
  | stripeBudget (t : Nat) (handle : Nat) (data : StripeData) (pages : BitVec 8)
  /-- The full-retry read of an untimely stripe ends (R269). -/
  | spoolRetryDone (t : Nat) (handle : Nat) (stripe : Nat) (lost : Bool)
  /-- A program of a block of a group fails (R283). -/
  | programFailure (t : Nat) (place : PlaneAt) (group : Nat)
  /-- An erase of a block of a group fails (R283). -/
  | eraseFailure (t : Nat) (place : PlaneAt) (group : Nat)
  /-- A ring runs short of free groups (R272). -/
  | archiveReclaim (t : Nat) (evidence : Bool)
  /-- A SPOOL group below 50 % valid (R270). -/
  | compaction (t : Nat) (group : Nat)
  /-- Patrol reads a channel-page: the corrected bits of each codeword, or none, by the hard decode and the soft re-reads (R261, R282). -/
  | patrolRead (t : Nat) (group : Nat) (place : PageAt) (hard : List (Option Nat)) (soft1 : List (Option Nat)) (soft2 : List (Option Nat)) (soft3 : List (Option Nat))
  /-- A patrol period ends (R282). -/
  | patrolBehind (t : Nat)
  /-- 10 s since the last SEAL (R293). -/
  | seal (t : Nat)
  /-- An item's ledger entry falls due (R290). -/
  | itemEntry (t : Nat) (seq : Nat)
  /-- The erase rate of 24 powered hours is judged (R281). -/
  | wearAhead (t : Nat)
  /-- The oldest formed unit enters staging, or is discarded (R277). -/
  | stagingWrite (t : Nat)
  /-- Staging has room again (R277). -/
  | stagingRoom (t : Nat)
  /-- An evidence window ends (R208). -/
  | windowBoundary (t : Nat)
  /-- The oldest ended window closes (R217). -/
  | windowClose (t : Nat)
  /-- D_nozzle after a close (R220). -/
  | nozzleLate (t : Nat)
  /-- A subscriber's channel has room for a frame (R225). -/
  | serialFrameWrite (t : Nat) (j : Fin 16)
  /-- An accepted ladder cue of timestamp te (R211). -/
  | ladderCue (t : Nat) (te : Nat)
  /-- A ladder ends (R212). -/
  | ladderEnd (t : Nat)
  /-- JMP (R361); `lv` are the pin levels at the step. -/
  | jmp (t : Nat) (k : Fin 64) (lv : Word64)
  /-- WAIT begins (R362); `lv` are the pin levels at the step. -/
  | wait (t : Nat) (k : Fin 64) (lv : Word64)
  /-- A WAIT of a kind (Table 12-3) completes; `lv` are the pin levels at the engine step `te`, no later than the turn (R362). -/
  | waitComplete (t : Nat) (k : Fin 64) (lv : Word64) (te : Nat) (kind : Nat)
  /-- SET low (R361, R367); `lv` are the pin levels at the step. -/
  | setLow (t : Nat) (k : Fin 64) (lv : Word64)
  /-- SET high (R361, R367); `lv` are the pin levels at the step. -/
  | setHigh (t : Nat) (k : Fin 64) (lv : Word64)
  /-- SET toggle (R361, R367); `lv` are the pin levels at the step. -/
  | setToggle (t : Nat) (k : Fin 64) (lv : Word64)
  /-- SET release (R361, R367); `lv` are the pin levels at the step. -/
  | setRelease (t : Nat) (k : Fin 64) (lv : Word64)
  /-- A pin's output compare reaches its target (R367). -/
  | outputCompareFire (t : Nat) (i : Fin 64)
  /-- LDI (R361); `lv` are the pin levels at the step. -/
  | ldi (t : Nat) (k : Fin 64) (lv : Word64)
  /-- LDH (R361); `lv` are the pin levels at the step. -/
  | ldh (t : Nat) (k : Fin 64) (lv : Word64)
  /-- ALU MOV (R361); `lv` are the pin levels at the step. -/
  | aluMov (t : Nat) (k : Fin 64) (lv : Word64)
  /-- ALU ADD (R361); `lv` are the pin levels at the step. -/
  | aluAdd (t : Nat) (k : Fin 64) (lv : Word64)
  /-- ALU SUB (R361); `lv` are the pin levels at the step. -/
  | aluSub (t : Nat) (k : Fin 64) (lv : Word64)
  /-- ALU AND (R361); `lv` are the pin levels at the step. -/
  | aluAnd (t : Nat) (k : Fin 64) (lv : Word64)
  /-- ALU OR (R361); `lv` are the pin levels at the step. -/
  | aluOr (t : Nat) (k : Fin 64) (lv : Word64)
  /-- ALU XOR (R361); `lv` are the pin levels at the step. -/
  | aluXor (t : Nat) (k : Fin 64) (lv : Word64)
  /-- ALU SHL (R361); `lv` are the pin levels at the step. -/
  | aluShl (t : Nat) (k : Fin 64) (lv : Word64)
  /-- ALU SHR (R361); `lv` are the pin levels at the step. -/
  | aluShr (t : Nat) (k : Fin 64) (lv : Word64)
  /-- ALU CMP (R361); `lv` are the pin levels at the step. -/
  | aluCmp (t : Nat) (k : Fin 64) (lv : Word64)
  /-- ALU TST (R361); `lv` are the pin levels at the step. -/
  | aluTst (t : Nat) (k : Fin 64) (lv : Word64)
  /-- GET (R364); `lv` are the pin levels at the step. -/
  | get (t : Nat) (k : Fin 64) (lv : Word64)
  /-- SEND (R361, R369); `lv` are the pin levels at the step. -/
  | send (t : Nat) (k : Fin 64) (lv : Word64)
  /-- FETCH (R361); `lv` are the pin levels at the step. -/
  | fetch (t : Nat) (k : Fin 64) (lv : Word64)
  /-- FETCH with PEEK (R361); `lv` are the pin levels at the step. -/
  | fetchPeek (t : Nat) (k : Fin 64) (lv : Word64)
  /-- SHIFT out (R368); `lv` are the pin levels at the step. -/
  | shiftOut (t : Nat) (k : Fin 64) (lv : Word64)
  /-- SHIFT in (R368); `lv` are the pin levels at the step. -/
  | shiftIn (t : Nat) (k : Fin 64) (lv : Word64)
  /-- PUT SH (R361); `lv` are the pin levels at the step. -/
  | putSh (t : Nat) (k : Fin 64) (lv : Word64)
  /-- PUT BC (R361); `lv` are the pin levels at the step. -/
  | putBc (t : Nat) (k : Fin 64) (lv : Word64)
  /-- EVT LEADING (R370); `lv` are the pin levels at the step. -/
  | evtLeading (t : Nat) (k : Fin 64) (lv : Word64)
  /-- EVT TRAILING (R370); `lv` are the pin levels at the step. -/
  | evtTrailing (t : Nat) (k : Fin 64) (lv : Word64)
  /-- EVT PULSE (R370); `lv` are the pin levels at the step. -/
  | evtPulse (t : Nat) (k : Fin 64) (lv : Word64)
  /-- CTL NOP (R361); `lv` are the pin levels at the step. -/
  | ctlNop (t : Nat) (k : Fin 64) (lv : Word64)
  /-- CTL HALT (R373); `lv` are the pin levels at the step. -/
  | ctlHalt (t : Nat) (k : Fin 64) (lv : Word64)
  /-- CTL CLRSH (R361); `lv` are the pin levels at the step. -/
  | ctlClrsh (t : Nat) (k : Fin 64) (lv : Word64)
  /-- CTL LOG (R361); `lv` are the pin levels at the step. -/
  | ctlLog (t : Nat) (k : Fin 64) (lv : Word64)
  /-- A channel fetches an illegal word (R361). -/
  | illegalOp (t : Nat) (k : Fin 64) (lv : Word64)
  /-- A watchdog period ends (R434 to R436). -/
  | watchdogPeriodClose (t : Nat)
  /-- A firmware task checks in (R434). -/
  | firmwareCheckin (t : Nat) (slot : Fin 6)
  /-- 4,000 µs after a decided reset (R437). -/
  | resetHubAndSegments (t : Nat)
  /-- FAULT_N has stood at a level (R421). -/
  | faultnReadback (pin : PinReading)
  /-- A rail has stood at a voltage (R421). -/
  | brownOut (t : Nat) (rail : RailReading)
  /-- The Ringmaster cores disagree (R421). -/
  | lockstepMismatch (t : Nat)
  /-- A stage class of a segment (0xFF: the hub) makes no progress for 1 ms (R420). -/
  | stageStall (t : Nat) (seg : Nat) (cls : Nat)
  /-- An uncorrectable word in a region of DRAM (R420, R432). -/
  | dramUncorrectable (t : Nat) (region : Fin 8) (addr : Nat)
  /-- A test is due that idle time has not served (R428). -/
  | stolenLine (t : Nat)
  /-- A test of an element ends with a reading (R429, R430). -/
  | inServiceTest (t : Nat) (test : Nat) (seg : Nat) (unit : Nat) (r : TestReading)
  /-- A coverage pass completes (R429, R431). -/
  | coveragePassEnd (t : Nat)
  /-- A pass runs longer than 2 s (R431). -/
  | coveragePassOverrun (t : Nat)
  /-- A full scrub of DRAM, with the uncorrectable words it found (R432). -/
  | dramScrub (t : Nat) (found : List (Fin 8 × Nat))
  /-- MRAM is scrubbed, with the uncorrectable words it found (R432). -/
  | mramScrub (m : ScrubMoment)
  /-- The start-up sequence, up to where PRE-OP may be requested (R444). -/
  | startup (t : Nat) (boot : BootInput)
  /-- RESET_N has stood at a level (R490). -/
  | externalReset (pin : PinReading)
  /-- The hourly re-read of a fuse row at both margins (R454). -/
  | fuseReread (t : Nat) (seg : Option (Fin 8)) (row : Nat) (low : Nat) (high : Nat)
  /-- EXTEST is selected (R495). -/
  | extest (t : Nat)
  /-- Firmware submits a job: its 64-byte descriptor, its input and the 32-byte buffer descriptors of its chain (R251). -/
  | jobSubmit (t : Nat) (descriptor : List Byte) (input : List Byte) (chain : List (List Byte))
  /-- The inflate engine ends its job (R246). -/
  | inflateJobDone (t : Nat)
  /-- The deflate engine ends its job (R248). -/
  | deflateJobDone (t : Nat)
  /-- A reference is committed to the SPOOL (R171). -/
  | refCommit (t : Nat) (handle : Nat)
  /-- The RxPDO is sampled: its 80 bytes, and when the master wrote them (R328). -/
  | rxpdoSample (t : Nat) (frame : RxFrame)
  /-- An 802.1AS Announce: domain, the data set that ranks its grandmaster, its interval in ns (R80). -/
  | announceReceived (t : Nat) (p : Fin 4) (domain : Nat) (rank : Nat) (interval : Nat)
  /-- An 802.1AS peer delay request (R80). -/
  | peerDelayRequest (t : Nat) (p : Fin 4)
  /-- A KEEPALIVE: the session timeout restarts (R309). -/
  | keepaliveReceived (t : Nat) (rx : Rx)
  /-- The oldest n staged units finish programming (R276). -/
  | dataCommitted (t : Nat) (n : Nat)
  /-- A group's erase completes (R276). -/
  | eraseDone (t : Nat) (group : Nat)
  /-- A timer ticks (R380). -/
  | timerTick (t : Nat) (i : Fin 16)
  /-- 100 ms without an on-die CRIT (R400). -/
  | critSealResume (t : Nat)
  /-- A timed condition of Table 15-2 elapses (R420). -/
  | causeClears (t : Nat) (cause : ClearCause)
  /-- A TAP reset (R495). -/
  | tapReset (t : Nat)
  /-- A gate control list entry begins (R301). -/
  | gateEntryStart (t : Nat) (p : Fin 4)
  /-- 1 ms after a bank-voltage change (R365). -/
  | bankHoldEnd (t : Nat) (bank : Fin 8)
  /-- An FoE request for no file of Table 11-12, or for one in the direction it does not have (R350). -/
  | foeUnknownName (t : Nat) (file : Option Machine.FoeFile)
  /-- The master reads SM1 (R353). -/
  | sm1MailboxRead (t : Nat)
  deriving DecidableEq, Repr

end Sys2Proof
end

