-- ==== Sys2Proof/Machine/Operands.lean ====
section
/-! DEFINITION. Operand forms: how a command's operands become what the blocks take. -/

namespace Sys2Proof.Machine

/-- A whole SDO transaction of the mailbox. -/
def mailRequest (op : SdoOp) (index sub : Nat) (value : List Byte) : SdoRequest :=
  { ch := .mailbox, op := op, index := index, sub := sub, value := value }

/-- A security command written to 0x2E10:01, with what the fuses it programs do (R456, R458, R467). -/
def fuseRequest (code : Nat) (stuck : List Nat) (stuckMask : Nat) : SdoRequest :=
  { ch := .mailbox, op := .download, index := 0x2E10, sub := 1, value := leBytes 1 code, stuck := stuck, stuckMask := stuckMask }

/-- The code the lengths of SM2 and SM3 earn (Table 11-2); 0 if both are right. -/
def smCode (sm2 sm3 : Nat) : Nat := if sm2 ≠ 80 then 0x1D else if sm3 ≠ 168 then 0x1E else 0

end Sys2Proof.Machine
end

