-- ==== Sys2Proof/Machine/Inflate.lean ====
section
/-! DEFINITION. The inflate engine's decoding of RFC 1950 and RFC 1951 streams, with the faults of Table 8-5
(R245, R246). -/

namespace Sys2Proof.Machine

/-- What the engine answers: error code (0 none), offset of the fault, the output it has written. -/
structure Inflated where
  error : Nat
  consumed : Nat
  output : List Byte
  tokens : List (Nat × Nat)        -- the tokens written: bytes of output, and the bit position after the token
  deriving DecidableEq, Repr

/-- Bit i of a stream, bit 0 of each byte first. -/
def streamBit (a : Array Byte) (i : Nat) : Bool := ((a.getD (i / 8) 0).toNat).testBit (i % 8)

/-- n bits from position i, least significant first. -/
def streamBits (a : Array Byte) (i n : Nat) : Nat := ((List.range n).map fun k => b2n (streamBit a (i + k)) * 2 ^ k).sum

/-- Do n bits from i lie in the stream? -/
def within (a : Array Byte) (i n : Nat) : Bool := decide (i + n ≤ 8 * a.size)

/-! ### Huffman codes -/

/-- Is a set of code lengths over-subscribed (1), incomplete (2) or complete (0)? Kraft sum in 2⁻¹⁵. -/
def kraft (ls : List Nat) : Nat :=
  let s := (ls.map fun l => if l = 0 then 0 else 2 ^ (15 - l)).sum
  if 2 ^ 15 < s then 1 else if s < 2 ^ 15 then 2 else 0

/-- How many codes have length l. -/
def lenCount (ls : List Nat) (l : Nat) : Nat := ls.countP (· = l)

/-- Symbols of length l, in order. -/
def symsOf (ls : List Nat) (l : Nat) : List Nat := (List.range ls.length).filter fun s => ls.getD s 0 = l

/-- A symbol decoded from position i by canonical codes: the symbol (none: no code matches) and its length; the outer
none where the input ends. -/
def huffRead (a : Array Byte) (ls : List Nat) (i : Nat) : Nat → Nat → Nat → Nat → Option (Option Nat × Nat)
  | 0, l, _, _ => some (none, l)
  | fuel + 1, l, code, first =>
    if within a (i + l) 1 then
      let code := 2 * code + b2n (streamBit a (i + l))
      let first := 2 * first
      let n := lenCount ls (l + 1)
      if code < first + n then some ((symsOf ls (l + 1))[code - first]?, l + 1)
      else huffRead a ls i fuel (l + 1) code (first + n)
    else none

def huff (a : Array Byte) (ls : List Nat) (i : Nat) : Option (Option Nat × Nat) := huffRead a ls i 15 0 0 0

/-- Base and extra bits of length codes 257 to 285 (RFC 1951, 3.2.5). -/
def lengthCode (s : Nat) : Nat × Nat :=
  let i := s - 257
  if i < 8 then (3 + i, 0)
  else if i = 28 then (258, 0)
  else let e := (i - 4) / 4; (3 + 2 ^ (e + 2) + (i % 4) * 2 ^ e, e)

/-- Base and extra bits of distance codes 0 to 29. -/
def distCode (s : Nat) : Nat × Nat :=
  if s < 4 then (1 + s, 0) else let e := (s - 2) / 2; (1 + 2 ^ (e + 1) + (s % 2) * 2 ^ e, e)

/-- Code lengths of the fixed literal/length code. -/
def fixedLit : List Nat := List.replicate 144 8 ++ List.replicate 112 9 ++ List.replicate 24 7 ++ List.replicate 8 8
def fixedDist : List Nat := List.replicate 32 5

/-- Order of the code length code's lengths. -/
def clOrder : List Nat := [16, 17, 18, 0, 8, 7, 9, 6, 10, 5, 11, 4, 12, 3, 13, 2, 14, 1, 15]

/-! ### Blocks -/

/-- The decoder's place: bit position and output. -/
structure InfState where
  i : Nat
  out : Array Byte
  toks : Array (Nat × Nat)

/-- The decoder before its first bit. -/
def InfState.start (i : Nat) : InfState := ⟨i, #[], #[]⟩

/-- A step's result: go on, or stop with a code at the byte of a bit position, with what has been written. -/
inductive InfRes (α : Type) where
  | ok (v : α)
  | bad (code : Nat) (i : Nat) (s : InfState)

/-- One back-reference copied. -/
def copyBack (dist : Nat) : Nat → Array Byte → Array Byte
  | 0, out => out
  | n + 1, out => copyBack dist n (out.push (out.getD (out.size - dist) 0))

/-- The tokens of a Huffman block up to its end (R245, R246). A token's length stands before its distance, so an overrun is
named before a fault of the distance. -/
def inflateTokens (a : Array Byte) (lit dist : List Nat) (window limit : Nat) : Nat → InfState → InfRes InfState
  | 0, s => .bad 0x7048 s.i s
  | fuel + 1, s =>
    match huff a lit s.i with
    | none => .bad 0x7048 s.i s
    | some (none, _) => .bad 0x7044 s.i s
    | some (some sym, n) =>
      if sym < 256 then
        if limit ≤ s.out.size then .bad 0x7047 s.i s
        else inflateTokens a lit dist window limit fuel ⟨s.i + n, s.out.push (BitVec.ofNat 8 sym), s.toks.push (1, s.i + n)⟩
      else if sym = 256 then .ok ⟨s.i + n, s.out, s.toks⟩
      else if 285 < sym then .bad 0x7044 s.i s
      else
        let (base, extra) := lengthCode sym
        let j := s.i + n
        if !within a j extra then .bad 0x7048 j s
        else
          let len := base + streamBits a j extra
          let j := j + extra
          if limit < s.out.size + len then .bad 0x7047 s.i s
          else if dist.all (· = 0) then .bad 0x7045 j s
          else match huff a dist j with
            | none => .bad 0x7048 j s
            | some (none, _) => .bad 0x7045 j s
            | some (some ds, m) =>
              if 29 < ds then .bad 0x7045 j s
              else
                let (dbase, dextra) := distCode ds
                let k := j + m
                if !within a k dextra then .bad 0x7048 k s
                else
                  let d := dbase + streamBits a k dextra
                  if decide (window < d) || decide (s.out.size < d) then .bad 0x7046 j s
                  else inflateTokens a lit dist window limit fuel ⟨k + dextra, copyBack d len s.out, s.toks.push (len, k + dextra)⟩

/-- Code lengths `ls` of a dynamic block become `ls'` by the symbol at i: the fault this shows, as soon as the field it lies in is
whole, at that field's first bit (R246; DEDUCED, log 131). `start` is where the lengths of the literal/length code begin. -/
def lengthFault (hlit start i : Nat) (ls ls' : List Nat) : Option Nat :=
  if ls.length ≤ 256 && decide (256 < ls'.length) && ls'.getD 256 0 = 0 then some i
  else if ls.length < hlit && decide (hlit ≤ ls'.length) && kraft (ls'.take hlit) ≠ 0 then some start
  else none

/-- The code lengths of a dynamic block's two codes: where they end, where those of the distance code begin, and the lengths. -/
def codeLengths (a : Array Byte) (cl : List Nat) (hlit total start : Nat) :
    Nat → Nat → Nat → List Nat → InfRes (Nat × Nat × List Nat)
  | 0, i, d, ls => .ok (i, d, ls)
  | fuel + 1, i, d, ls =>
    if total ≤ ls.length then .ok (i, d, ls)
    else match huff a cl i with
      | none => .bad 0x7048 i (.start 0)
      | some (none, _) => .bad 0x7043 i (.start 0)
      | some (some s, n) =>
        let j := i + n
        let (base, bits, v) := if s < 16 then (1, 0, s) else if s = 16 then (3, 2, ls.getLastD 0) else if s = 17 then (3, 3, 0) else (11, 7, 0)
        if s = 16 && ls.isEmpty then .bad 0x7043 i (.start 0)
        else if !within a j bits then .bad 0x7048 j (.start 0)
        else
          let k := base + streamBits a j bits
          let ls' := ls ++ List.replicate k v
          if total < ls'.length then .bad 0x7043 i (.start 0)
          else match lengthFault hlit start i ls ls' with
            | some at_ => .bad 0x7043 at_ (.start 0)
            | none => codeLengths a cl hlit total start fuel (j + bits) (if ls.length ≤ hlit then i else d) ls'

/-- A dynamic block's header: position after it and the two codes. Each field is judged as soon as it is whole. -/
def dynamicHeader (a : Array Byte) (i : Nat) : InfRes (Nat × List Nat × List Nat) :=
  let hlit := 257 + streamBits a i 5
  let hdist := 1 + streamBits a (i + 5) 5
  let hclen := 4 + streamBits a (i + 10) 4
  let start := i + 14 + 3 * hclen
  if !within a i 5 then .bad 0x7048 i (.start 0)
  else if 286 < hlit then .bad 0x7043 i (.start 0)
  else if !within a (i + 5) 5 then .bad 0x7048 (i + 5) (.start 0)
  else if 30 < hdist then .bad 0x7043 (i + 5) (.start 0)
  else if !within a (i + 10) 4 then .bad 0x7048 (i + 10) (.start 0)
  else if !within a (i + 14) (3 * hclen) then .bad 0x7048 (i + 14) (.start 0)
  else
    let given := (List.range hclen).map fun k => (clOrder.getD k 0, streamBits a (i + 14 + 3 * k) 3)
    let cl := (List.range 19).map fun s => match given.find? (·.1 = s) with | some (_, l) => l | none => 0
    if kraft cl ≠ 0 then .bad 0x7043 (i + 14) (.start 0)
    else match codeLengths a cl hlit (hlit + hdist) start (hlit + hdist) start start [] with
      | .bad c j o => .bad c j o
      | .ok (j, d, ls) =>
        let dist := ls.drop hlit
        let kd := kraft dist
        if kd = 1 || (kd = 2 && decide (1 < dist.countP (· ≠ 0))) then .bad 0x7043 d (.start 0)
        else .ok (j, ls.take hlit, dist)

/-- Bytes of a stored block copied one by one, each a token. -/
def storedCopy (a : Array Byte) (limit : Nat) : Nat → InfState → InfRes InfState
  | 0, s => .ok s
  | n + 1, s =>
    if !within a s.i 8 then .bad 0x7048 s.i s
    else if limit ≤ s.out.size then .bad 0x7047 s.i s
    else storedCopy a limit n ⟨s.i + 8, s.out.push (a.getD (s.i / 8) 0), s.toks.push (1, s.i + 8)⟩

/-- Blocks up to the final one (R245); `out` is what earlier blocks gave. -/
def inflateBlocks (a : Array Byte) (window limit : Nat) : Nat → InfState → InfRes InfState
  | 0, s => .bad 0x7048 s.i s
  | fuel + 1, s =>
    if !within a s.i 3 then .bad 0x7048 s.i s
    else
      let final := streamBit a s.i
      let next (r : InfRes InfState) : InfRes InfState :=
        match r with
        | .ok t => if final then .ok t else inflateBlocks a window limit fuel t
        | .bad c j o => .bad c j o
      match streamBits a (s.i + 1) 2 with
      | 0 =>
        let j := (s.i + 3 + 7) / 8 * 8
        if !within a j 32 then .bad 0x7048 j s
        else
          let len := streamBits a j 16
          if len + streamBits a (j + 16) 16 ≠ 65535 then .bad 0x7042 j s
          else next (storedCopy a limit len ⟨j + 32, s.out, s.toks⟩)
      | 1 => next (inflateTokens a fixedLit fixedDist window limit (8 * a.size) ⟨s.i + 3, s.out, s.toks⟩)
      | 2 =>
        match dynamicHeader a (s.i + 3) with
        | .bad c j _ => .bad c j s
        | .ok (j, lit, dist) => next (inflateTokens a lit dist window limit (8 * a.size) ⟨j, s.out, s.toks⟩)
      | _ => .bad 0x7041 (s.i + 1) s

/-- The largest output of a job (R245). -/
def outputMost : Nat := 2 ^ 48 - 1

/-- A whole stream: `wrap` for RFC 1950, output limited to the declared size. A fault of the zlib header's check is that of the
header from its first byte on (DEDUCED, log 131); FDICT lies in the second byte. -/
def inflate (wrap : Bool) (input : List Byte) (declared : Nat) : Inflated :=
  let limit := min declared outputMost
  let a := input.toArray
  let cmf := (a.getD 0 0).toNat
  let flg := (a.getD 1 0).toNat
  if wrap && (decide (a.size < 2) || (cmf * 256 + flg) % 31 ≠ 0 || cmf % 16 ≠ 8 || decide (7 < cmf / 16)) then ⟨0x7040, 0, [], []⟩
  else if wrap && bit flg 5 then ⟨0x7040, 1, [], []⟩
  else
    let window := if wrap then 2 ^ (cmf / 16 + 8) else 32768
    match inflateBlocks a window limit (8 * a.size + 1) (.start (if wrap then 16 else 0)) with
    | .bad c i s => ⟨c, i / 8, s.out.toList, s.toks.toList⟩
    | .ok s =>
      let at8 := (s.i + 7) / 8
      let ends (code at_ : Nat) : Inflated := ⟨code, at_, s.out.toList, s.toks.toList⟩
      if wrap then
        if a.size < at8 + 4 then ends 0x7048 at8
        else if beNat ((input.drop at8).take 4) ≠ adler32 s.out.toList then ends 0x704A at8
        else if at8 + 4 < a.size then ends 0x7049 (at8 + 4)
        else ends 0 a.size
      else if at8 < a.size then ends 0x7049 at8
      else ends 0 a.size

end Sys2Proof.Machine
end

