-- ==== Sys2Proof/Config.lean ====
section
/-! DEFINITION. What an implementation of the bar fixes and the spec does not state, and the FREE VALUES of the model:
opaque constants with no body, so that a claim holds whatever they are. Each is named in the assumption log. -/

namespace Sys2Proof.Config

/-- A value the spec leaves open, drawn by the count `Bar.free` that the drawing step advances. -/
opaque freeNat : Nat → Nat

/-- The severity of the event log codes to which the spec gives none (Table 11-14; R373 and others give some). -/
opaque openSeverity : Nat → BitVec 2

/-- SHA-512 of a byte string, as 64 bytes (FIPS 180-4, named and not stated by the spec). -/
opaque sha512 : List Byte → Vector Byte 64

/-- ECDSA over NIST P-521 (FIPS 186): does the 132-byte signature fit the key and the 64-byte digest? -/
opaque ecdsaVerify : (key : List Byte) → (digest : List Byte) → (sig : List Byte) → Bool

/-- Is an uncompressed key a point of P-521 (R462)? -/
opaque onCurve : (key : List Byte) → Bool

/-- The bytes of a stored parameter image, from its entries by (index · 256 + subindex, value); the spec does not give their
format (R339, R473). -/
opaque paramImageBytes : (entries : List (Nat × List Byte)) → List Byte

/-- ECDSA signing with the identity or ledger key derived from the part's secret. -/
opaque ecdsaSign : (key : Nat) → (digest : List Byte) → Vector Byte 132

/-- The DER bytes of the X.509 v3 identity certificate, at most 8 KiB, with a subject serialNumber, a subject public key on P-521
and the issuer's ECDSA signature with SHA-512 (R475); the issuer's name, key and dates are not in the spec. -/
opaque identityCert : (serialNumber subjectKey : List Byte) → List Byte

/-- The key pair derived from the part's secret (R472): its public half. -/
opaque publicKey : (key : Nat) → Vector Byte 133

/-- The synthesiser's estimate of the encoder position at a time, in 1/65,536 count, from the accepted counts (timestamp
and position, newest first): R94 gives no formula. -/
opaque positionEstimate : (counts : List (Nat × Int)) → (t : Nat) → Int

/-- How many of the words of SBF blocks and sideband that a line of a segment has are blocks (Table 10-10 gives their sum). -/
opaque codedWords : (set : Machine.Store) → (seg : Nat) → Nat

/-- A measured L*, a* or b* (0, 1, 2) in 1/256: R183 gives it as exact to within ±1/16 only, and past 16 not at all. -/
opaque labValue : (plane x y z : Nat) → Int

/-- The cycle time in ps that the live, admitted workload requires of a stage class (R20), by segment (8: the hub). -/
opaque cycleNeed : (set : Machine.Store) → (loc cls : Nat) → Nat

/-- The fused ideality of the dies in 1/10,000 (R397), segments 0 to 7 and 8 for the hub: no fuse row of the spec holds it. -/
opaque fusedIdeality : (die : Nat) → Nat

/-- A dark pixel's signal in e⁻ in a segment's line whose words have not reached the hub (R56, R141): not stated anywhere. -/
opaque unseenDark : (line seg pixel : Nat) → Int

/-- A pixel's signal in e⁻ in a segment's line that no command carries (R54, R162): not stated anywhere. -/
opaque unseenSignal : (line seg band row pixel : Nat) → Int

/-- The owning subsystem's code of an uncorrectable word that scrubbing finds outside the protected regions (R432): by DRAM
region of Table 1-2, and 16 on by MRAM region of Table 16-5. No table names one. -/
opaque scrubCode : (region : Nat) → Nat

/-- Does a stage class carry GUARANTEED work of the live workload (R21)? -/
opaque carriesGuaranteed : (set : Machine.Store) → (loc cls : Nat) → Bool

/-- How many records a journal page of 4 KiB takes (R276 gives a record no size). -/
opaque journalPageRecords : Nat

/-- The error of a ΔE16, exact to ±1 (R184). -/
opaque deError : (sum : Nat) → Nat

/-- The error of a deficit A_k(c), exact to ±2⁻¹⁶ (R209). -/
opaque deficitError : (window ink column : Nat) → Nat

/-- Whether a reference line that is read within the 2 ms after read-ahead began is in DRAM yet (R175). -/
opaque refLineEarly : (start line : Nat) → Bool

/-- The names that SDO Information gives an object, or an entry of one (R327); the spec does not give their bytes. -/
opaque objectName : (index : Nat) → List Byte
opaque entryName : (index sub : Nat) → List Byte

/-- Strings and versions the spec says the part has and does not state: 0 hardware version, 1 firmware version,
2 boot ROM version, 3 dictionary revision. -/
opaque openString : Nat → List Byte

/-- Values of objects that the spec names without a value. -/
opaque openObject : Nat → Nat

/-- The IEEE 802.1AS messages that answer a peer delay request, whose layout the spec leaves to that standard. -/
opaque peerDelayReply : (port now : Nat) → List Byte

/-- The IEEE 802.1AS Announce of a data set with a given priority1, whose layout the spec leaves to that standard. -/
opaque announceFrame : (port domain priority1 now : Nat) → List Byte

/-- The tokens the deflate engine finds in an input at a match chain depth, (0, literal) or (length, distance): R248 does not
state its choice among matches. -/
opaque deflateTokens : (depth : Nat) → (input : List Byte) → List (Nat × Nat)

/-- The header of a dynamic block for its tokens, from HLIT on: R248 does not state how the engine forms codes and their
lengths' coding. -/
opaque dynamicHeader : (tokens : List (Nat × Nat)) → List Bool

end Sys2Proof.Config
end

