-- ==== Sys2Proof/Machine/Dict.lean ====
section
/-! DEFINITION. The object dictionary: every entry the chapters' object tables name, with its type, access class,
default and range (R333, R355, R356). Index ranges and subindex ranges of alike entries are one row. -/

namespace Sys2Proof.Machine

/-- Types of dictionary entries, with the lengths of strings, OCTET_STRINGs and DOMAINs. -/
inductive Ty where
  | u8 | u16 | u32 | u64 | i8 | i16 | i32 | i64
  | str (maxLen : Nat)
  | oct (len : Nat)
  | dom (minLen maxLen : Nat)
  deriving DecidableEq, Repr

/-- Access classes (Table 11-3). -/
inductive Acc where
  | ro | rw | rwPreop | staged | wo
  deriving DecidableEq, Repr

/-- What the number of valid subindices of a row depends on. -/
inductive Span where
  | all
  | segments     -- one entry per segment: S entries (R4)
  | twoPerSegment   -- two entries per segment: 2S entries
  deriving DecidableEq, Repr

/-- One row of the dictionary: indices lo to hi, subindices sub to subHi. -/
structure Entry where
  lo : Nat
  hi : Nat
  sub : Nat
  subHi : Nat
  ty : Ty
  acc : Acc
  dflt : Int := 0
  min : Int := 0
  max : Int := 0xFFFFFFFFFFFFFFFF
  span : Span := .all
  perS : Bool := false            -- the default is a multiple of S
  allowed : List Int := []        -- the values an enumerated entry takes; empty: the whole range
  deriving DecidableEq, Repr

/-- Size in bytes of the numeric types; none for strings and DOMAINs. -/
def Ty.size : Ty → Option Nat
  | .u8 | .i8 => some 1
  | .u16 | .i16 => some 2
  | .u32 | .i32 => some 4
  | .u64 | .i64 => some 8
  | .str _ | .oct _ | .dom _ _ => none

/-- Is the type one of the signed ones? -/
def Ty.isSigned : Ty → Bool
  | .i8 | .i16 | .i32 | .i64 => true
  | _ => false

/-- Entry row of one index. -/
def ent (i s : Nat) (ty : Ty) (acc : Acc) (d : Int := 0) (mn : Int := 0) (mx : Int := 0xFFFFFFFFFFFFFFFF) : Entry :=
  { lo := i, hi := i, sub := s, subHi := s, ty := ty, acc := acc, dflt := d, min := mn, max := mx }

/-- Entry row of an array of subindices. -/
def arr (i s1 s2 : Nat) (ty : Ty) (acc : Acc) (d : Int := 0) (mn : Int := 0) (mx : Int := 0xFFFFFFFFFFFFFFFF) : Entry :=
  { lo := i, hi := i, sub := s1, subHi := s2, ty := ty, acc := acc, dflt := d, min := mn, max := mx }

/-- Entry row of a range of records. -/
def recs (i1 i2 s : Nat) (ty : Ty) (acc : Acc) (d : Int := 0) (mn : Int := 0) (mx : Int := 0xFFFFFFFFFFFFFFFF) : Entry :=
  { lo := i1, hi := i2, sub := s, subHi := s, ty := ty, acc := acc, dflt := d, min := mn, max := mx }

/-- Columns per segment (R1). -/
def segCols : Nat := 7680

/-- Capture geometry and contexts (Tables 2-6 and 4-4). -/
def dictCapture : List Entry :=
  [ ent 0x2200 1 .u8 .rwPreop 0 0 1, ent 0x2200 2 .u8 .rwPreop 0 0 1, ent 0x2200 3 .u8 .rwPreop 0 0 3,
    ent 0x2200 4 .u32 .staged 10000 2000 250000, ent 0x2200 5 .u16 .staged 1 1 65535,
    { ent 0x2200 6 .u8 .staged 1 1 4 with allowed := [1, 2, 4] }, ent 0x2200 7 .u8 .rwPreop 0 0 0x4F,
    arr 0x2201 1 4 .u8 .staged 0 0 4, { arr 0x2202 1 4 .u8 .staged 8 2 32 with allowed := [2, 4, 8, 16, 32] },
    arr 0x2205 1 0x10 .u16 .staged 0 0 61439, { arr 0x2206 1 0x10 .u16 .staged 7680 16 61440 with perS := true },
    arr 0x2207 1 0x10 .u32 .staged 0 0 0xFFFFFFFE, arr 0x2208 1 0x10 .u32 .staged 0xFFFFFFFF 1 0xFFFFFFFF,
    ent 0x2209 0 .u16 .staged, { arr 0x220A 1 8 .u32 .ro with span := .segments }, ent 0x220B 0 .u32 .ro,
    { arr 0x2210 1 4 .u32 .staged 2000 100 249800 with hi := 0x2213 },
    recs 0x2210 0x2213 5 .u8 .staged 0 0 2, recs 0x2210 0x2213 6 .u32 .staged 1000 100 249800,
    recs 0x2210 0x2213 7 .u8 .staged 0 0 2, recs 0x2210 0x2213 8 .u32 .staged 1000 100 249800,
    recs 0x2210 0x2213 9 .u16 .staged 0 0 4095, recs 0x2210 0x2213 0x0A .u16 .staged 0 0 4095,
    recs 0x2210 0x2213 0x0B .u8 .staged 1 0 1, recs 0x2210 0x2213 0x0C .u32 .ro,
    ent 0x2214 1 .u8 .staged 1 1 4, arr 0x2214 2 5 .u8 .staged 0 0 3, ent 0x2214 6 .u8 .staged 0 0 1,
    arr 0x2215 1 2 .u8 .rwPreop 0 0 3,
    { arr 0x2216 1 0x10 .u16 .staged 1024 512 2047 with span := .twoPerSegment }, ent 0x2217 0 .u8 .ro ]

/-- Line timing (Table 3-6). -/
def dictTiming : List Entry :=
  [ ent 0x2300 1 .u8 .rwPreop 0 0 3, ent 0x2300 2 .u8 .rwPreop 0 0 1, ent 0x2300 3 .u8 .rwPreop 0 0 127,
    ent 0x2300 4 .u64 .ro, ent 0x2300 5 .i64 .ro, ent 0x2300 6 .i32 .ro, ent 0x2300 7 .u8 .ro, ent 0x2300 8 .u64 .ro,
    ent 0x2300 9 .u32 .ro, ent 0x2300 0x0A .u8 .ro,
    ent 0x2301 1 .u32 .staged 1 1 16777215, ent 0x2301 2 .u32 .staged 1 1 16777215,
    ent 0x2301 3 .u32 .staged 250000 2000 250000, ent 0x2301 4 .i32 .staged 0 (-65536) 65536,
    ent 0x2301 5 .u8 .staged 0 0 1, ent 0x2301 6 .u8 .staged 0 0 31, ent 0x2301 7 .u32 .staged 512 512 16777215,
    ent 0x2301 8 .u16 .staged 20 1 1000, ent 0x2301 9 .u8 .rwPreop 0 0 2,
    arr 0x2301 0x0A 0x0B .u32 .rwPreop 1 1 16777215, ent 0x2301 0x0C .u8 .ro,
    recs 0x2302 0x2303 1 .u8 .rwPreop 0 0 1,
    { recs 0x2302 0x2303 2 .u16 .rwPreop 40 10 320 with allowed := (List.range 32).map fun i => (10 * (i + 1) : Nat) },
    recs 0x2302 0x2303 3 .u8 .rwPreop 0 0 1, recs 0x2302 0x2303 4 .u8 .rwPreop 0 0 2, recs 0x2302 0x2303 5 .u32 .rwPreop,
    recs 0x2302 0x2303 6 .u16 .rwPreop 2, recs 0x2302 0x2303 7 .i64 .ro, recs 0x2302 0x2303 8 .u64 .ro,
    recs 0x2302 0x2303 9 .u32 .ro, recs 0x2302 0x2303 0x0A .u16 .ro,
    arr 0x2304 1 6 .u32 .ro ]

/-- Image pipeline (Table 5-5). -/
def dictPipeline : List Entry :=
  [ ent 0x2400 1 .u8 .staged 4 0 8, ent 0x2400 2 .u32 .ro, ent 0x2400 3 .u8 .ro, ent 0x2400 4 .u32 .ro,
    ent 0x2400 5 .u8 .staged 0 0 1, ent 0x2400 6 .u8 .staged 0 0 3,
    recs 0x2410 0x2413 1 .u8 .staged 0 0 1, recs 0x2410 0x2413 2 .u32 .staged 768000,
    recs 0x2410 0x2413 3 .u32 .staged 896000, { arr 0x2410 4 7 .u16 .staged 4096 with hi := 0x2413 },
    recs 0x2410 0x2413 8 .u8 .staged 4 1 4, recs 0x2410 0x2413 9 .u8 .staged 7 0 7,
    recs 0x2418 0x241B 1 .i16 .staged 4096 (-32768) 32767, { arr 0x2418 2 5 .i16 .staged 0 (-32768) 32767 with hi := 0x241B },
    recs 0x2418 0x241B 6 .i16 .staged 4096 (-32768) 32767, { arr 0x2418 7 10 .i16 .staged 0 (-32768) 32767 with hi := 0x241B },
    recs 0x2418 0x241B 11 .i16 .staged 4096 (-32768) 32767, { arr 0x2418 12 15 .i16 .staged 0 (-32768) 32767 with hi := 0x241B },
    recs 0x2418 0x241B 16 .i16 .staged 4096 (-32768) 32767, { arr 0x2418 17 20 .i16 .staged 0 (-32768) 32767 with hi := 0x241B },
    { arr 0x2420 1 4 (.dom 1922 1922) .staged with hi := 0x2423 },
    ent 0x2430 1 .u8 .staged 0 0 1, { ent 0x2430 2 .u16 .staged 1200 300 1200 with allowed := [1200, 600, 300] },
    ent 0x2430 3 .u8 .staged 0 0 1, recs 0x2430 0x2432 4 .u16 .staged 0 0 61439,
    { recs 0x2430 0x2432 5 .u16 .staged 7680 16 61440 with perS := true }, ent 0x2430 6 .u8 .staged 2 0 4,
    ent 0x2431 1 .u8 .staged 0 0 1, { ent 0x2431 2 .u16 .staged 150 75 300 with allowed := [300, 150, 75] },
    ent 0x2431 3 .u8 .staged 0 0 0,
    ent 0x2432 1 .u8 .staged 1 0 1, { ent 0x2432 2 .u16 .staged 300 300 1200 with allowed := [1200, 600, 300] },
    ent 0x2432 3 .u8 .staged 3 3 4, { ent 0x2432 6 .u8 .staged 8 8 16 with allowed := [8, 10, 12, 16] },
    { arr 0x2440 1 8 .u32 .ro with span := .segments }, ent 0x2440 9 .u64 .ro ]

/-- Lanes and inspection (Tables 4-5 and 6-12). -/
def dictInspect : List Entry :=
  [ arr 0x2500 1 0x20 .u16 .staged 0 0 61439, { arr 0x2501 1 0x20 .u16 .staged 7680 16 61440 with perS := true },
    ent 0x2502 0 .u32 .staged, arr 0x2503 1 0x20 .u8 .staged 0 0 0x5F, arr 0x2504 1 0x20 .u8 .staged 0 0 1,
    arr 0x2505 1 0x20 .u32 .staged 512 512 16777215, arr 0x2506 1 0x20 .u32 .staged 64 16 16777215,
    arr 0x2507 1 0x20 .u32 .staged 100000 16 16777215, arr 0x2508 1 0x20 .u16 .staged 20 0 500,
    arr 0x2509 1 0x20 .u16 .staged 1000 0 1000, arr 0x250A 1 0x20 .u32 .ro, ent 0x250B 0 .u16 .ro,
    { arr 0x2510 1 0x20 .u8 .staged 0xFF 0 0xFF with allowed := [0, 1, 2, 3, 0xFF] },
    { arr 0x2511 1 0x20 .u16 .staged 600 300 600 with allowed := [600, 300] },
    arr 0x2512 1 0x20 .i16 .staged 0 (-2048) 2048, arr 0x2513 1 0x20 .i32 .staged 0 (-65536) 65536,
    ent 0x2514 0 .u8 .staged 8 0 32,
    recs 0x2518 0x251B 1 .i16 .staged 4096 (-32768) 32767, { arr 0x2518 2 4 .i16 .staged 0 (-32768) 32767 with hi := 0x251B },
    recs 0x2518 0x251B 5 .i16 .staged 4096 (-32768) 32767, { arr 0x2518 6 8 .i16 .staged 0 (-32768) 32767 with hi := 0x251B },
    recs 0x2518 0x251B 9 .i16 .staged 4096 (-32768) 32767,
    recs 0x2520 0x2523 1 .u16 .staged 96 1 4095, recs 0x2520 0x2523 2 .u8 .staged 24 1 255,
    recs 0x2520 0x2523 3 .u8 .staged 1 0 1, recs 0x2520 0x2523 4 .u8 .staged 1 0 1,
    recs 0x2520 0x2523 5 .u32 .staged 4 1 16777215, recs 0x2520 0x2523 6 .u32 .staged 4096 2 16777215,
    recs 0x2520 0x2523 7 .u16 .staged 64 4 65535, recs 0x2520 0x2523 8 .u8 .staged 4 1 64,
    recs 0x2520 0x2523 9 .u16 .staged 32 1 4095, recs 0x2520 0x2523 0x0A .u8 .staged 24 1 64,
    recs 0x2520 0x2523 0x0B .u8 .staged 24 1 64, recs 0x2520 0x2523 0x0C .u8 .staged 10 0 100,
    recs 0x2520 0x2523 0x0D .u16 .staged 64 0 4095, { arr 0x2520 0x0E 0x14 .u8 .staged 1 with hi := 0x2523 },
    ent 0x2540 1 .u32 .rw, ent 0x2540 2 .u8 .ro, ent 0x2540 3 .u16 .ro, ent 0x2540 4 .u32 .ro, ent 0x2540 5 .u32 .ro,
    ent 0x2540 6 .u16 .ro, ent 0x2540 7 .u8 .ro, ent 0x2540 8 .u16 .ro, ent 0x2540 9 .u32 .wo, ent 0x2540 0x0A .u32 .ro,
    ent 0x2540 0x0B .u64 .ro, arr 0x2550 1 8 .u32 .ro ]

/-- Thermal and power (Table 14-7) and safety (Table 15-6). Sensor arrays hold on-die entries 1 to 0x12 and remote
entries 0x13 to 0x1A. -/
def dictSafety : List Entry :=
  [ arr 0x2C00 1 0x1A .i16 .ro, arr 0x2C01 1 0x1A .u16 .ro,
    arr 0x2C02 1 0x12 .u32 .rw 0x101 0 0x3F03FF, arr 0x2C02 0x13 0x1A .u32 .rw 0xC0 0 0x3F03FF,
    arr 0x2C03 1 0x12 .i16 .rw 1440 (-640) 2400, arr 0x2C03 0x13 0x1A .i16 .rw 960 (-640) 2400,
    arr 0x2C04 1 0x12 .i16 .rw 1520 (-640) 2400, arr 0x2C04 0x13 0x1A .i16 .rw 1120 (-640) 2400,
    arr 0x2C05 1 0x12 .i16 .rw 1680 (-640) 1680, arr 0x2C05 0x13 0x1A .i16 .rw 1360 (-640) 2400,
    arr 0x2C06 1 0x12 .u16 .rw 80 1 4095, arr 0x2C06 0x13 0x1A .u16 .rw 32 1 4095,
    arr 0x2C07 1 8 .u16 .rw 10080 9500 10500, arr 0x2C08 1 8 .u32 .rw 10000 1000 1000000,
    arr 0x2C09 1 8 .u16 .rw 3435 2000 6000,
    ent 0x2C10 1 .u16 .rw 1000 100 60000, ent 0x2C10 2 .u16 .rw 10000 1000 60000, arr 0x2C10 3 6 .u8 .ro,
    ent 0x2C10 7 .u16 .ro, ent 0x2C10 8 .u8 .ro,
    ent 0x2C20 1 .u8 .rw 15 10 30, ent 0x2C20 2 .u8 .rwPreop 0x40 8 0x77, ent 0x2C20 3 .u16 .rwPreop 750 550 850,
    ent 0x2C20 4 .u8 .rwPreop 1 0 1, ent 0x2C20 5 .u16 .ro, ent 0x2C20 6 .u16 .ro, ent 0x2C20 7 .u8 .ro,
    ent 0x2C20 8 .u32 .ro, ent 0x2C20 9 .u16 .ro,
    { arr 0x2C21 1 8 .i16 .ro with span := .segments }, ent 0x2C22 1 .i16 .ro, ent 0x2C22 2 .u16 .ro,
    ent 0x2C30 1 .i16 .ro 1760, ent 0x2C30 2 .i16 .ro 1520, ent 0x2C30 3 .u8 .ro, ent 0x2C30 4 .i16 .ro,
    ent 0x2D00 1 .u8 .ro, arr 0x2D00 2 3 .u16 .ro, ent 0x2D00 4 .u32 .ro, ent 0x2D00 5 .u64 .ro, ent 0x2D00 6 .u16 .ro,
    ent 0x2D00 7 .u64 .ro, ent 0x2D00 8 .u32 .ro,
    ent 0x2D01 1 .u16 .rwPreop 100 1 1000, ent 0x2D01 2 .u32 .rwPreop, ent 0x2D01 3 .u32 .rwPreop 100000000,
    ent 0x2D01 4 .u32 .rwPreop, ent 0x2D01 5 .u32 .rwPreop 100000000, ent 0x2D01 6 .u64 .ro, ent 0x2D01 7 .u64 .ro,
    arr 0x2D02 1 8 .u32 .ro,
    ent 0x2D10 1 .u16 .rwPreop 4096 1024 16384, ent 0x2D10 2 .u32 .ro, ent 0x2D10 3 .u32 .ro, ent 0x2D10 4 .u32 .ro,
    ent 0x2D10 5 .u64 .ro, ent 0x2D10 6 .u32 .ro, ent 0x2D10 7 .i16 .rwPreop (-80) (-800) 0,
    ent 0x2D10 8 .u16 .rwPreop 2400 80 16000, ent 0x2D10 9 .u16 .rwPreop 512 16 4096, ent 0x2D10 0x0A .u8 .rwPreop 8 2 32,
    ent 0x2D30 0 (.dom 64 64) .ro ]

/-- Communication, device management and diagnostics (Table 11-16, Table 1-7, Table 11-15 for 0x21xx). -/
def dict0 : List Entry :=
  [ ent 0x1000 0 .u32 .ro, ent 0x1001 0 .u8 .ro, ent 0x1008 0 (.str 64) .ro, ent 0x1009 0 (.str 64) .ro,
    ent 0x100A 0 (.str 64) .ro, ent 0x1010 1 .u32 .rw 1, ent 0x1011 1 .u32 .rw 1,
    ent 0x1018 1 .u32 .ro 0x0B7A, ent 0x1018 2 .u32 .ro 0x4800, ent 0x1018 3 .u32 .ro, ent 0x1018 4 .u32 .ro,
    arr 0x1600 1 0x0A .u32 .ro, arr 0x1A00 1 0x18 .u32 .ro, arr 0x1C00 1 4 .u8 .ro,
    ent 0x1C12 1 .u16 .ro 0x1600, ent 0x1C13 1 .u16 .ro 0x1A00,
    recs 0x1C32 0x1C33 1 .u16 .rwPreop 2 1 2, recs 0x1C32 0x1C33 2 .u32 .rwPreop 1000000 62500 4000000,
    recs 0x1C32 0x1C33 4 .u16 .ro 6, recs 0x1C32 0x1C33 5 .u32 .ro 62500,
    ent 0x2000 1 (.str 64) .ro, ent 0x2000 2 .u8 .ro, ent 0x2000 3 .u8 .ro, ent 0x2000 4 .u64 .ro, ent 0x2000 5 .u64 .ro,
    ent 0x2001 1 .u32 .ro, ent 0x2001 2 .u8 .ro, ent 0x2001 3 .u32 .ro,
    ent 0x2010 1 .u8 .wo 0 1 2, ent 0x2010 2 .u8 .rw 0 0 2, ent 0x2010 3 .u64 .rw, ent 0x2010 4 .u8 .rw 0 0 31,
    ent 0x2010 5 .u8 .ro, ent 0x2010 6 .u16 .ro, ent 0x2010 7 .u16 .ro, ent 0x2010 8 .u64 .ro, ent 0x2010 9 .u32 .ro,
    ent 0x2010 0x0A .u8 .rw 0 0 2,
    ent 0x2011 1 .u8 .ro, ent 0x2011 2 .u32 .ro,
    ent 0x2012 1 .u32 .ro, ent 0x2012 2 .u64 .ro, arr 0x2012 3 0x0A .u32 .ro,
    ent 0x2020 1 .u16 .ro, ent 0x2020 2 .u16 .ro, ent 0x2020 3 .u8 .ro, ent 0x2020 4 .u8 .ro, ent 0x2020 5 .u16 .ro,
    ent 0x2020 6 .u64 .ro, arr 0x2020 7 0x0A (.dom 16 16) .ro,
    ent 0x2021 1 .u32 .ro, ent 0x2021 2 .u16 .ro, ent 0x2021 3 .u8 .ro, ent 0x2021 4 .u8 .ro, ent 0x2021 5 .u64 .ro,
    ent 0x2021 6 .u64 .ro, ent 0x2021 7 .u16 .ro, ent 0x2021 8 .u16 .ro, arr 0x2021 9 0x0C .u8 .ro,
    ent 0x2021 0x0D .u16 .ro, ent 0x2021 0x0E .u16 .ro, ent 0x2021 0x0F .u16 .ro, ent 0x2021 0x10 .u8 .ro,
    arr 0x2021 0x11 0x18 (.dom 16 16) .ro,
    ent 0x2100 1 .u8 .rwPreop 0 0 1,
    { arr 0x2101 1 8 .u64 .ro with span := .segments },
    ent 0x2F00 1 .u64 .ro, ent 0x2F00 2 .u64 .ro, ent 0x2F00 3 .u64 .rw, ent 0x2F00 4 (.dom 32 32) .ro,
    ent 0x2F00 5 .u32 .ro, ent 0x2F00 6 .u32 .ro,
    ent 0x2F01 1 .u16 .ro, ent 0x2F01 2 .u32 .ro, ent 0x2F01 3 .u32 .ro, ent 0x2F01 4 .u16 .ro ]

/-- Carousel (Table 12-10) and timers (Table 13-4). -/
def dictIo : List Entry :=
  [ recs 0x2A00 0x2A03 1 .u8 .wo 0 1 3, recs 0x2A00 0x2A03 2 .u8 .ro, recs 0x2A00 0x2A03 3 .u8 .rw 0 0 1,
    recs 0x2A00 0x2A03 4 .u8 .rw 0 0 15, recs 0x2A00 0x2A03 5 .u16 .rw 0 0 0xFFFF, recs 0x2A00 0x2A03 6 .u16 .ro,
    recs 0x2A00 0x2A03 7 .u32 .ro,
    recs 0x2A04 0x2A07 0 (.dom 2 512) .rw,
    recs 0x2A10 0x2A4F 1 .u8 .rw 0 0 255, recs 0x2A10 0x2A4F 2 .u8 .rw 0 0 63, recs 0x2A10 0x2A4F 3 .u8 .rw 0 0 2,
    recs 0x2A10 0x2A4F 4 .u32 .staged, recs 0x2A10 0x2A4F 5 .u32 .wo, recs 0x2A10 0x2A4F 6 .u32 .ro,
    recs 0x2A10 0x2A4F 7 .u16 .ro, recs 0x2A10 0x2A4F 8 .u32 .ro, recs 0x2A10 0x2A4F 9 .u32 .ro,
    recs 0x2A10 0x2A4F 0x0A .u32 .ro, recs 0x2A10 0x2A4F 0x0B .u32 .ro,
    arr 0x2A50 1 0x40 .u16 .rwPreop 0 0 0x3F1F, arr 0x2A58 1 8 .u8 .rwPreop 0 0 1,
    recs 0x2B00 0x2B0F 1 .u32 .rw 1 1 0xFFFFFFFF, recs 0x2B00 0x2B0F 2 .u32 .rw 0xFFFFFFFF,
    recs 0x2B00 0x2B0F 3 .u32 .rw 0xFFFFFFFF,
    recs 0x2B10 0x2B1F 1 .u32 .rw 0 0 0x1FFF, recs 0x2B10 0x2B1F 2 .u16 .rw, recs 0x2B10 0x2B1F 3 .u32 .rw,
    recs 0x2B10 0x2B1F 4 .u8 .rw 0xFF, recs 0x2B10 0x2B1F 5 .u8 .rw 0xFF,
    recs 0x2B20 0x2B2F 1 .u32 .ro, recs 0x2B20 0x2B2F 2 .u32 .ro, recs 0x2B20 0x2B2F 3 .u64 .ro,
    recs 0x2B20 0x2B2F 4 .u32 .ro, recs 0x2B20 0x2B2F 5 .u32 .ro,
    recs 0x2B30 0x2B37 1 .u64 .ro, recs 0x2B30 0x2B37 2 .u64 .rw 1 1, recs 0x2B30 0x2B37 3 .u64 .rw 0xFFFFFFFFFFFFFFFF,
    recs 0x2B30 0x2B37 4 .u64 .rw 0xFFFFFFFFFFFFFFFF, recs 0x2B30 0x2B37 5 .u64 .rw,
    arr 0x2B40 1 2 .i64 .ro, arr 0x2B40 3 4 .u32 .ro,
    arr 0x2B40 5 6 .i64 .rwPreop 0 (-0x8000000000000000) 0x7FFFFFFFFFFFFFFF,
    ent 0x2B48 1 .u16 .wo, ent 0x2B48 2 .u16 .wo, ent 0x2B48 3 .u16 .ro ]

/-- Nozzle tracks (Table 7-12). -/
def dictNozzle : List Entry :=
  [ ent 0x2600 1 .u8 .staged 0 0 1, ent 0x2600 2 .u8 .staged 1 1 64, ent 0x2600 3 .u8 .staged 0 0 3,
    ent 0x2600 4 .u8 .staged 0xFF, ent 0x2600 5 .u16 .staged 64 1 65535, ent 0x2600 6 .u16 .staged 1434 1 4095,
    ent 0x2600 7 .u16 .staged 410 0 4094, ent 0x2600 8 .u8 .staged 4 1 127, ent 0x2600 9 .u8 .staged 3 2 4,
    ent 0x2600 0x0A .u8 .staged 6 4 8, ent 0x2600 0x0B .u8 .ro, ent 0x2600 0x0C .u8 .staged 16 0 64,
    ent 0x2600 0x0D .u16 .staged 205 0 2048,
    arr 0x2601 1 0x20 .u16 .staged, arr 0x2602 1 8 .u16 .staged 256 64 1024,
    { ent 0x2605 1 .u8 .staged 0xFF 0 0xFF with allowed := 0xFF :: (List.range 64).map fun i => ((i : Nat) : Int) },
    ent 0x2605 2 .u32 .staged 512 512 16777215, ent 0x2605 3 .u8 .staged 4 1 16, ent 0x2605 4 .u16 .staged 410 1 4095,
    ent 0x2606 0 .u8 .staged 0 0 16, arr 0x2606 1 0x10 .u8 .staged 0 0 15,
    { arr 0x2610 1 7 .u32 .staged with hi := 0x261F },
    ent 0x2620 1 .u32 .rw 0 0 1048575, ent 0x2620 2 .u32 .rw 1 1 1048576, ent 0x2620 3 .u8 .wo 0 1 5,
    ent 0x2620 4 (.dom 64 64) .ro, ent 0x2620 5 .u32 .ro,
    recs 0x2630 0x263F 1 .u8 .staged 0 0 1, recs 0x2630 0x263F 2 .u32 .staged 0, recs 0x2630 0x263F 3 .u32 .staged 1,
    recs 0x2630 0x263F 4 .u8 .staged 0 0 1, recs 0x2630 0x263F 5 .u8 .staged 2 1 2, recs 0x2630 0x263F 6 .u8 .staged 0 0 0x3F,
    recs 0x2630 0x263F 7 .u16 .staged 1024 0 16384, recs 0x2630 0x263F 8 .u8 .ro, recs 0x2630 0x263F 9 .u16 .staged 100 20 65535,
    recs 0x2630 0x263F 0x0A .u8 .staged 120 96 255,
    arr 0x2640 1 0x0B .u32 .ro, ent 0x2640 0x0C .u64 .ro ]

/-- Coding (Table 8-8), storage (Table 9-11) and security (Table 16-10). -/
def dictStorage : List Entry :=
  [ { ent 0x2700 1 .u8 .staged 8 2 8 with allowed := [2, 3, 4, 6, 8] }, ent 0x2700 2 .u8 .staged 0 0 1,
    arr 0x2700 3 4 .u32 .ro, ent 0x2700 5 .u16 .ro,
    ent 0x2710 1 .u16 .rwPreop 32 4 256, arr 0x2710 2 3 .u32 .ro, ent 0x2710 4 .u16 .ro, ent 0x2710 5 .u64 .ro,
    arr 0x2710 6 9 .u32 .ro,
    ent 0x2800 1 .u8 .ro, ent 0x2800 2 .u8 .wo 0 1 1, { ent 0x2800 3 .u32 .rw with allowed := [] }, ent 0x2800 4 .u8 .ro,
    ent 0x2800 5 .u32 .ro, ent 0x2800 6 .u8 .rwPreop 0 0 1, arr 0x2800 7 9 .u32 .ro, ent 0x2800 0x0A .u64 .ro,
    ent 0x2800 0x0B .u32 .ro,
    ent 0x2801 1 .u32 .rwPreop 224 16 896, ent 0x2801 2 .u32 .rwPreop 128 16 512, ent 0x2801 3 .u32 .rwPreop 16 4 64,
    ent 0x2801 4 .u8 .rwPreop 25 0 50, ent 0x2801 5 .u32 .ro,
    ent 0x2802 1 .u8 .ro, ent 0x2802 2 .u8 .ro, ent 0x2802 3 .u32 .ro, ent 0x2802 4 .u16 .ro, ent 0x2802 5 .u32 .ro,
    ent 0x2802 6 .u16 .ro, ent 0x2802 7 .u64 .ro, arr 0x2802 8 9 .u32 .ro, ent 0x2802 0x0A .u8 .ro,
    ent 0x2803 1 .u32 .rwPreop 20000 20000 1000000, ent 0x2803 2 .u16 .rwPreop 900 500 1000,
    ent 0x2803 3 .u32 .rwPreop 40000 1000 200000, ent 0x2803 4 .u16 .rwPreop 1000 10 1000, arr 0x2803 5 8 .u32 .ro,
    ent 0x2803 9 .u32 .rwPreop 8000000 0 1000000000,
    ent 0x2804 1 .u16 .rwPreop 24 1 168, ent 0x2804 2 .u16 .rwPreop 96 8 400, arr 0x2804 3 6 .u32 .ro,
    arr 0x2805 1 2 .u32 .rw, ent 0x2805 3 .u8 .wo 0 1 2, ent 0x2805 4 .u64 .ro,
    ent 0x2806 1 .u64 .ro, ent 0x2806 2 .u64 .rw, arr 0x2806 3 4 .u64 .ro, ent 0x2806 5 .u32 .ro, arr 0x2807 1 4 .u32 .ro,
    ent 0x2E00 1 .u32 .ro, arr 0x2E00 2 4 .u8 .ro, arr 0x2E00 5 9 .u16 .ro, arr 0x2E01 1 2 (.oct 64) .ro,
    ent 0x2E10 1 .u8 .wo 0 1 6, ent 0x2E10 2 .u32 .rw, ent 0x2E10 3 .u8 .ro,
    arr 0x2E11 1 2 .u8 .ro, arr 0x2E11 3 4 .u32 .ro, arr 0x2E11 5 6 .u16 .ro, arr 0x2E11 7 8 .u8 .ro,
    ent 0x2E11 9 (.oct 64) .ro, ent 0x2E20 1 .u8 .ro, ent 0x2E20 2 (.oct 133) .ro, ent 0x2E20 3 (.oct 16) .ro,
    ent 0x2E30 1 (.oct 64) .rwPreop, ent 0x2E40 1 (.oct 32) .rw ]

/-- Delivery (Table 10-12). -/
def dictDelivery : List Entry :=
  [ arr 0x2900 1 2 .u8 .ro, arr 0x2900 3 4 .u64 .ro, ent 0x2900 5 .i64 .ro, ent 0x2900 6 .u32 .ro,
    ent 0x2900 7 .u32 .staged 1000 1 200000, ent 0x2900 8 .u32 .staged 12000000 0 200000000,
    arr 0x2901 1 0x10 .u64 .ro, arr 0x2902 1 0x10 .u64 .ro,
    recs 0x2910 0x2913 1 .u8 .rwPreop 0 0 1, recs 0x2910 0x2913 2 .u8 .rwPreop 2 0 2, recs 0x2910 0x2913 3 .u16 .rwPreop 9000 1500 9000,
    { recs 0x2910 0x2913 4 .u16 .rwPreop 0xFFFF 1 0xFFFF with allowed := 0xFFFF :: (List.range 4094).map fun i => ((i + 1 : Nat) : Int) },
    recs 0x2910 0x2913 5 .u32 .rwPreop, recs 0x2910 0x2913 6 .u8 .rwPreop 24 8 30, recs 0x2910 0x2913 7 .u32 .rwPreop,
    recs 0x2910 0x2913 8 (.oct 16) .rwPreop, recs 0x2910 0x2913 9 .u8 .rwPreop 64 16 127,
    recs 0x2910 0x2913 0x0A .u16 .rwPreop 48500 1024 65535, recs 0x2910 0x2913 0x0B (.oct 6) .ro, recs 0x2910 0x2913 0x0C .u8 .ro,
    recs 0x2918 0x291B 1 .u32 .staged 125000 10000 1000000, recs 0x2918 0x291B 2 .u64 .staged, recs 0x2918 0x291B 3 .u8 .staged 1 1 8,
    recs 0x2918 0x291B 4 .u32 .staged 0x01E848FF, { arr 0x2918 5 0x0B .u32 .staged with hi := 0x291B },
    recs 0x2920 0x292F 1 .u8 .staged 0 0 1, recs 0x2920 0x292F 2 (.oct 16) .staged, recs 0x2920 0x292F 3 .u16 .staged 0 1 65535,
    recs 0x2920 0x292F 4 .u8 .staged 0 0 3, { recs 0x2920 0x292F 5 .u8 .staged 0xFF 0 0xFF with allowed := [0, 1, 2, 3, 0xFF] },
    recs 0x2920 0x292F 6 .u16 .staged, recs 0x2920 0x292F 7 .u8 .staged 3 1 3, recs 0x2920 0x292F 8 .u32 .staged 3,
    arr 0x2920 9 0x0A .u8 .ro |> (fun e => { e with hi := 0x292F }), recs 0x2920 0x292F 0x0B .u16 .ro,
    ent 0x2930 1 .u8 .rwPreop 0 0 1, arr 0x2940 1 9 .u32 .ro, arr 0x2941 1 9 .u32 .ro, arr 0x2942 1 5 .u32 .ro ]

end Sys2Proof.Machine
end

