-- ==== Sys2Proof/Machine/CodecTypes.lean ====
section
/-! DEFINITION. State of the DEFLATE engines and of the block coders' counters (chapter 8). -/

namespace Sys2Proof.Machine

/-- STATUS of a job (Table 8-6). -/
inductive JobStatus where
  | queued
  | running
  | done
  | error
  | noGain
  deriving DecidableEq, Repr

/-- Who submitted a job: the ingest of a container (FoE or a session), an evidence crop, the log bundle, or other firmware. -/
inductive JobOwner where
  | ingest (viaFoe : Bool) (ksid : Nat)
  | crop (session seq index : Nat)
  | bundle
  | firmware
  deriving DecidableEq, Repr

/-- A buffer of a chain after its job (Table 8-7): address, size, bytes written, FLAGS. -/
structure JobBuffer where
  addr : Nat
  size : Nat
  used : Nat
  flags : Nat
  deriving DecidableEq, Repr

/-- A job descriptor with the input and output it names (R250 to R254). `chain` is empty where the output goes to the
hub's SBF encoder. -/
structure Job where
  owner : JobOwner
  deflate : Bool
  wrap : Bool
  guaranteed : Bool
  input : List Byte
  declared : Nat
  toSbf : Bool                     -- CHAIN is 0: the output goes to the hub's SBF encoder
  chain : List JobBuffer
  status : JobStatus
  consumed : Nat
  produced : Nat
  error : Nat
  buffers : Nat
  check : Nat
  output : List Byte
  deriving DecidableEq, Repr

/-- Codec engines and counters (Table 8-8). -/
structure Codec where
  inflateQ : List Job              -- the first one runs
  deflateRun : Option Job
  deflateG : List Job
  deflateB : List Job
  lastJob : Option Job             -- the job that ended, or was refused, last
  selfFaults : Nat
  malformed : Nat
  maxErr : Nat
  inflateDone : Nat
  inflateErrors : Nat
  lastError : Nat
  lastOffset : Nat
  deflateDone : Nat
  noGain : Nat
  exhausted : Nat
  cropsSbf : Nat
  deriving DecidableEq, Repr

def Codec.reset : Codec :=
  { inflateQ := [], deflateRun := none, deflateG := [], deflateB := [], lastJob := none, selfFaults := 0, malformed := 0,
    maxErr := 0, inflateDone := 0, inflateErrors := 0, lastError := 0, lastOffset := 0, deflateDone := 0, noGain := 0,
    exhausted := 0, cropsSbf := 0 }

end Sys2Proof.Machine
end

