-- ==== Sys2Proof/Machine/CaptureTypes.lean ====
section
/-! DEFINITION. State of line timing (chapter 3), the segments' lines (chapters 2 and 5), contexts, lanes and items
(chapter 4) and inspection (chapter 6). -/

namespace Sys2Proof.Machine

/-- An exact fraction: positions and line pitches of the synthesiser's grid (R94). -/
structure Frac where
  num : Int
  den : Nat
  deriving DecidableEq, Repr

/-! ### Timebase -/

/-- What drives the timebase counter (R83 to R86). -/
inductive TbMode where
  | pll
  | holdover
  | internal
  deriving DecidableEq, Repr

/-- The discipline states of R79. -/
inductive DiscState where
  | locked
  | tracking
  | free
  deriving DecidableEq, Repr

/-- A grandmaster heard on a data port (R80): the data set that ranks it, its last Announce, the announce interval. -/
structure Master where
  rank : Nat
  last : Nat
  interval : Nat
  deriving DecidableEq, Repr

structure Timebase where
  mode : TbMode
  disc : DiscState
  offset : Int                      -- 0x2300:05
  corr : Int                        -- 0x2300:06, ppb
  samples : List (Nat × Int)        -- measured offsets of the last second, newest first
  lastRef : Option Nat              -- when the reference was last measured
  port : Nat                        -- 0x2300:0A
  masters : Vector (Option Master) 4
  sync0 : Bool                      -- SYNC0 activated by the master
  unlockAt : Option Nat             -- first out-of-lock cycle of the present loss
  holdoverEntries : Nat
  owed : Option Int                 -- the offset that the servo slews back to after a holdover (R85)
  syncLatch : Nat
  syncLast : Option Nat             -- last accepted SYNC_IN edge
  syncAligned : Bool
  syncIgnored : Nat                 -- 0x2304:06
  syncFirst : Bool                  -- a SYNC_IN edge of this session has placed its trigger (R82)
  stepPhase : Nat                   -- edges of the 500 MHz step lie at timebase values of this parity (R82)
  deriving DecidableEq, Repr

def Timebase.reset : Timebase :=
  { mode := .pll, disc := .free, offset := 0, corr := 0, samples := [], lastRef := none, port := 0xFF,
    masters := Vector.replicate 4 none, sync0 := false, unlockAt := none, holdoverEntries := 0, owed := none, syncLatch := 0,
    syncLast := none, syncAligned := false, syncIgnored := 0, syncFirst := false, stepPhase := 0 }

/-! ### Encoders, synthesiser, enforcer -/

/-- One encoder input (R87 to R92). -/
structure Encoder where
  zPos : Int
  zTime : Nat
  zLast : Option Int                -- position of the last Z edge, in any mode (R89)
  quadErrors : Nat
  quadTimes : List Nat              -- times of the last quadrature errors, newest first, at most 16
  counts : List (Nat × Int)         -- accepted counts, newest first: timestamp and the position it set
  wires : Nat                       -- bit 0 A, 1 B, 2 Z: open or shorted
  overspeed : Bool
  zero : Bool
  reverse : Bool
  deriving DecidableEq, Repr

def Encoder.reset : Encoder :=
  { zPos := 0, zTime := 0, zLast := none, quadErrors := 0, quadTimes := [], counts := [], wires := 0,
    overspeed := false, zero := false, reverse := false }

/-- Synthesiser states, 0x2301:0C. -/
inductive SynState where
  | stopped
  | position
  | locked
  | flywheel
  | unsync
  | overspeed
  deriving DecidableEq, Repr

/-- The line-trigger synthesiser (R94 to R103) with the minimum-period enforcer (R104) and the other trigger sources
(R71, R72). -/
structure Synth where
  state : SynState
  base : Option Frac                -- grid point j lies at base + j · L; none before the anchor
  nextJ : Nat
  regrids : List Frac               -- targets p_T of sync cues the grid has yet to reach (R99), in order
  phi : Int                         -- phase offset already in the grid, 1/256 line
  highest : Int                     -- the highest position reached in the session (R92)
  goodLines : Nat                   -- consecutive lines with the error in bound (R97)
  errOk : Bool                      -- no count edge out of bound since the last line
  period : Nat                      -- period of the last LOCKED line
  due : List Nat                    -- POSITION mode: request times of the grid points passed (R96)
  ready : Nat                       -- no request of the next grid point lies before this time
  lastReq : Nat                     -- request time of the last line
  drRun : Nat                       -- DR lines of the open episode
  overAt : Nat                      -- last time overspeed was detected
  issued : Option Nat               -- t_p
  first : Option (Nat × Int)        -- the session's first count: its timestamp, and the counter before it
  chkStart : Int                    -- ENC1 position at the last block-frame boundary (R93)
  ext : List (Nat × Nat)            -- EXTERNAL requests waiting: event time, time handed on
  burstLeft : Nat
  burstEnd : Option Nat             -- time of the last trigger of the last burst
  burstIgnored : Nat                -- 0x220B
  freeNext : Option Nat             -- when the FREE divider next falls due
  dropMs : Option Nat               -- the millisecond of the last LINES_DROPPED entry
  crawling : Bool
  delayed : Nat
  dropped : Nat
  drLines : Nat
  usLines : Nat
  deferred : Nat
  deriving DecidableEq, Repr

def Synth.reset : Synth :=
  { state := .stopped, base := none, nextJ := 1, regrids := [], phi := 0, highest := 0, goodLines := 0, errOk := true, period := 0,
    due := [], ready := 0, lastReq := 0,
    drRun := 0, overAt := 0, issued := none, first := none, chkStart := 0, ext := [], burstLeft := 0, burstEnd := none,
    burstIgnored := 0, freeNext := none, dropMs := none, crawling := false, delayed := 0, dropped := 0, drLines := 0,
    usLines := 0, deferred := 0 }

/-- What the line of a cue edge is found by (R124): the grid position it must reach, or, without the synthesiser, the cue's time
and how many lines after the first line at or after it. -/
inductive LineTarget where
  | grid (p : Frac)
  | time (tc lines : Nat)
  deriving DecidableEq, Repr

/-- A line of the session (R26, R27, R106): its times and position, timing flags, context and generation. -/
structure LineRec where
  n : Nat
  t : Nat
  tx : Nat
  pos : Int
  grid : Option Frac
  dropped : Bool
  dr : Bool
  drLost : Bool            -- its DR episode ended without relock (R103)
  us : Bool
  usUnsync : Bool          -- triggered in UNSYNC, not OVERSPEED
  dl : Bool
  td : Bool
  crawl : Bool
  ctx : Nat
  ppos : Nat               -- pattern position
  trunc : Bool             -- its pattern repetition was truncated (R112)
  gen : Nat
  pstep : Nat
  limited : Bool
  ist : Bool               -- claimed for in-service test
  adcOverrun : Nat         -- segments that reported ADC_OVERRUN, bit s
  opLive : Bool            -- the slave was in OP at the line
  deriving DecidableEq, Repr

/-! ### Segment lines -/

/-- What the hub keeps of a segment's line: its conversions by band and row, the dark level of each tile after the
line, and how it arrived (R162). -/
structure SegRec where
  seg : Nat
  n : Nat
  convs : List Conv
  darks : List (Nat × Int)          -- (tile, D)
  malformed : Bool
  voided : Bool                     -- its columns are void in the line
  streakVoid : Bool                 -- defect candidates or streak words were missing
  filled : Bool                     -- coded words were missing: the hub writes void blocks in their place
  ltf : Nat                         -- line timing flags in the line's segment status word (R106)
  faults : List (Nat × Nat)         -- (plane, group) in which the segment's decoder replica found a FAULT (R242)
  held : Nat                        -- when the hub held it
  deriving DecidableEq, Repr

/-- Per-segment status and line integrity (Table 2-7, R163). -/
structure SegStatus where
  present : Bool
  seamCal : Bool
  dx : Int
  dy : Int
  darkOk : Bool
  adcOvr : Nat
  rowVoid : Nat
  malformed : Nat                   -- 0x2440:01 to :08
  runBad : Nat                      -- consecutive malformed lines
  frameBad : Nat                    -- malformed lines of the present block frame
  frameNo : Nat
  reserved : Nat                    -- reserved down-bus words it has ignored and reported (Table 1-4)
  deriving DecidableEq, Repr

def SegStatus.reset : SegStatus :=
  { present := true, seamCal := true, dx := 0, dy := 0, darkOk := true, adcOvr := 0, rowVoid := 0, malformed := 0,
    runBad := 0, frameBad := 0, frameNo := 0, reserved := 0 }

/-- A set that went live in the session: its first line, generation and values (R44). -/
structure SetRec where
  line : Nat
  gen : Nat
  values : Store
  deriving DecidableEq, Repr

/-- A CODING stream line of the running block row (R239): its line descriptor, its planes by bin of the crop, and the
lines its box covers. -/
structure CodLine where
  desc : List Byte
  planes : List (List (Option Nat))
  first : Nat
  last : Nat
  deriving DecidableEq, Repr

/-! ### Lanes and items -/

/-- States of a reference handle (R172). -/
inductive RefState where
  | absent
  | ingesting
  | ready
  | failed
  deriving DecidableEq, Repr

/-- A plane as the SPOOL holds it: the coded blocks decoded, and the recorded error bound of each group (R174). -/
structure Plane where
  rows : List (List Nat)
  bounds : List Nat                 -- one per group of 16 consecutive blocks
  coded : List (List Byte × List Nat)     -- by block row: its blocks, its error summaries
  deriving DecidableEq, Repr

/-- A reference handle (R171, R172, 0x2540). -/
structure Reference where
  handle : Nat
  state : RefState
  detail : Nat
  width : Nat
  height : Nat
  res : Nat
  inkMask : Nat
  planes : List Plane               -- L, A, B, NIR
  inks : List (List (List Nat))     -- ink maps in ascending ink order
  charge : Nat
  maxW : Nat
  deriving DecidableEq, Repr

/-- A reference block that a segment's decoder read otherwise than it was stored: what it decoded to, none where it was
malformed (R238). -/
structure Garbled where
  seg : Nat
  plane : Nat
  block : Nat                       -- block row × blocks of a row + block
  samples : Option (List (Option Nat))
  deriving DecidableEq, Repr

/-- An item (R30, R127 to R130) from the acceptance of its announcement. -/
structure Item where
  lane : Nat
  number : Nat
  length : Nat
  handle : Nat
  pin : Bool
  ordValid : Bool
  ord : Nat
  sampled : Nat
  queued : Bool                     -- in its lane's queue
  matched : Bool                    -- an accepted edge has matched it: s is set
  started : Bool                    -- line s has been triggered: the frame has started
  s : Nat
  target : Option LineTarget        -- what its start line must reach (R124)
  lateTo : Nat                      -- lines [s, lateTo) are void (R125)
  nextS : Option Nat                -- start line of the lane's next accepted edge
  nextTarget : Option LineTarget
  obs : Option Nat                  -- observed end o
  obsTarget : Option LineTarget
  cutAt : Option Nat                -- a line at which another rule closes the frame (R91, R122, R126)
  f : Option Nat                    -- the closed frame's end
  seq : Option Nat
  gen : Nat
  laneSet : Store                   -- the lane-local parameters at its start (R39)
  reasons : Nat
  flags : Nat
  detail : Nat
  stopDue : Option Nat              -- deadline from a zero-speed detection (R91)
  readStart : Option Nat            -- start of reference read-ahead (R175)
  ref : Option Reference            -- the reference as read ahead, if it was found fit at line s
  refLost : Option Nat              -- the line from which its reference is READY no more (R269)
  garbled : List Garbled            -- blocks of it read otherwise than stored, newest first
  published : Bool
  deriving DecidableEq, Repr

/-- A cue edge a lane has yet to process (R123, R370). -/
structure CuePend where
  lane : Nat
  edge : Edge
  isPulse : Bool
  time : Nat
  locked : Bool                     -- the synthesiser was LOCKED when it arrived (R99)
  handed : Bool := false            -- it came before the grid's anchor, and its line is found with that (R124)
  deriving DecidableEq, Repr

/-- A lane's own state (R126, R129, Table 4-6). -/
structure Lane where
  nextOrd : Nat
  lastStart : Option Nat            -- previous accepted start line
  lastTarget : Option LineTarget    -- what it must reach (R99, R124)
  active : Bool                     -- cue active since an accepted LEADING event
  stuck : Bool
  ignored : Nat
  unannounced : Nat
  deriving DecidableEq, Repr

def Lane.reset : Lane :=
  { nextOrd := 0, lastStart := none, lastTarget := none, active := false, stuck := false, ignored := 0, unannounced := 0 }

/-! ### Inspection -/

/-- A job segment (R169, R170). -/
structure JobSeg where
  type : Nat
  sub : Nat
  handle : Nat
  raw : Nat
  resv : Bool              -- its reserved bytes are zero
  data : List Byte
  deriving DecidableEq, Repr

/-- Where a job segment that is complete in DRAM stands: with the inflate engine, inflated, failed its CRC-32C, or the END
segment (R170, R171). -/
inductive SegWait where
  | engine
  | inflated (j : Job)
  | badCrc
  | final (faulty : Bool)
  deriving DecidableEq, Repr

/-- The job container being taken in (R168 to R173). -/
structure Ingest where
  viaFoe : Bool
  ksid : Nat
  upload : Nat
  buffer : List Byte                -- container bytes not yet parsed
  taken : Nat                       -- bytes taken from the start
  header : Option (Nat × Nat × Nat × Nat)  -- VERSION, JOB_ID, COUNT, LENGTH
  segsSeen : Nat
  run : Option Nat                  -- handle of the run in progress
  runSkip : Bool                    -- the run's reference failed or was refused: skip to the next REFHDR
  expect : List (Nat × Nat)         -- (TYPE, SUBTYPE) the run still needs
  parts : List JobSeg
  waits : List (JobSeg × SegWait)   -- complete segments whose checks have not ended, in order
  parsedEnd : Bool                  -- the END segment is complete in DRAM: nothing after it is parsed
  commitDue : Bool                  -- all job segments passed: the reference waits for its commit
  ended : Bool                      -- the END segment was found, or the header refused
  closed : Bool                     -- every byte of the transfer has arrived
  firstFail : Option Nat            -- first failure's detail code
  readyCount : Nat
  failCount : Nat
  lastData : Nat
  deriving DecidableEq, Repr

/-- Fields of a verdict record (Table 6-7). -/
structure Verdict where
  seq : Nat
  number : Nat
  lane : Nat
  verdict : Nat
  seqValid : Bool
  failClasses : Nat
  coverage : Nat
  reasons : Nat
  flags : Nat
  detail : Nat
  gen : Nat
  tPub : Nat
  start : Nat
  length : Nat
  counts : List Nat
  records : Nat
  deMax : Nat
  handle : Nat
  deriving DecidableEq, Repr

/-- Fields of a defect record (Table 6-6). -/
structure Defect where
  seq : Nat
  cls : Nat
  ctx : Nat
  atLimit : Bool
  overflow : Bool
  seam : Bool
  mixed : Bool
  evidence : Bool
  gen : Nat
  c0 : Nat
  c1 : Nat
  y0 : Nat
  y1 : Nat
  area : Nat
  valA : Int
  valB : Int
  dnMax : Nat
  index : Nat
  deriving DecidableEq, Repr

/-- An evidence crop being coded (R191, R255): its record and where it lies, its planes L, A, B, NIR by rows. -/
structure Crop where
  session : Nat
  seq : Nat
  index : Nat
  c0 : Nat
  width : Nat
  height : Nat
  y0 : Nat
  planes : List (List (List (Option Nat)))
  guaranteed : Bool
  pinned : Bool
  published : Nat                  -- when its item was published
  line0 : Nat
  line1 : Nat
  gen : Nat
  deriving DecidableEq, Repr

/-- Counters of 0x2550. -/
structure InspCounters where
  published : Nat
  byVerdict : Vector Nat 4
  refLate : Nat
  small : Nat
  late : Nat
  deriving DecidableEq, Repr

def InspCounters.reset : InspCounters := ⟨0, Vector.replicate 4 0, 0, 0, 0⟩

/-- Capture, lanes and inspection. -/
structure Capture where
  tb : Timebase
  enc : Vector Encoder 2
  syn : Synth
  lineLog : List LineRec            -- newest first
  segLog : List SegRec              -- newest first
  segs : Vector SegStatus 8
  lastMalformed : Nat
  darkLevel : List ((Nat × Nat × Nat) × Int)   -- ((segment, tile, context), D)
  sets : List SetRec                -- newest first
  patAnchor : Nat                   -- n_p
  darkStart : Nat                   -- the dark pixel each dark ADC converts first in the session (R56)
  boxes : List ((Nat × Nat) × List Nat)   -- ((stream, context), lines of the running box) (R152)
  codRows : List (Nat × List CodLine)     -- (context, stream lines of the running CODING block row)
  ended : Bool                      -- the session has ended: no further line reaches the streams
  outLine : Nat                     -- next output line to enter the streams
  lanes : Vector Lane 32
  cues : List CuePend
  items : List Item
  nextSeq : Nat
  refs : List Reference
  ingests : List Ingest             -- running and ended-with-work container transfers, oldest first
  insp : InspCounters
  crops : List Crop                 -- with the deflate engine, oldest first
  pstep : Nat                       -- class P step in effect
  pstepDue : List (Nat × Nat)       -- decided steps waiting: (line, step)
  limitedCtx : Nat                  -- contexts already logged ILLUM_LIMITED, bit k
  snap : List ((Nat × Nat) × Int)   -- data-plane entries as they stood at the last line boundary (R24)
  snapAt : Nat                      -- the index n of that boundary
  deriving DecidableEq, Repr

def Capture.reset : Capture :=
  { tb := .reset, enc := Vector.replicate 2 .reset, syn := .reset, lineLog := [], segLog := [],
    segs := Vector.replicate 8 .reset, lastMalformed := 0, darkLevel := [], sets := [], patAnchor := 0, darkStart := 0,
    boxes := [], codRows := [], ended := false, outLine := 0, lanes := Vector.replicate 32 .reset,
    cues := [], items := [], nextSeq := 0, refs := [], ingests := [], insp := .reset, crops := [], pstep := 0,
    pstepDue := [], limitedCtx := 0, snap := [], snapAt := 0 }

end Sys2Proof.Machine
end

