-- ==== Sys2Proof/Machine/DeliveryTypes.lean ====
section
/-! DEFINITION. State of the data ports, KSP sessions and admission (chapter 10). -/

namespace Sys2Proof.Machine

/-- The IP header of a frame (R298): addresses of 16 bytes, DF, and of a UDP datagram its source port, destination port and
checksum. -/
structure IpHead where
  src : List Byte
  dst : List Byte
  df : Bool
  udp : Option (Nat × Nat × Nat)
  deriving DecidableEq, Repr

/-- What a queued frame carries. -/
inductive FrameKind where
  | ksp
  | gptp
  | arp
  | nd
  | echo
  deriving DecidableEq, Repr

/-- A frame in a port's queue: its traffic class (Table 10-1), its datagram or message bytes, the peer it goes to (for
KSP), its R-TAG sequence number if replicated, and the bound of R315 by which a GUARANTEED one must be queued. -/
structure Frame where
  kind : FrameKind
  cls : Nat
  bytes : List Byte
  peer : Nat
  stream : Nat
  rtag : Option Nat
  window : Option (Nat × Nat × Nat)   -- of a guaranteed NOZZLE frame of which no copy has left: w1 of its evidence window, its
                                   -- subscriber, t_close + D_nozzle
  ip : Option IpHead := none
  mac : List Byte := []            -- source MAC address
  vlan : Option (Nat × Nat) := none       -- VLAN ID and PCP of its tag
  deriving DecidableEq, Repr

/-- A unit to send: stream, message type, traffic class, the lines and generation it describes, its payload. -/
structure KspUnit where
  stream : Nat
  type : Nat
  cls : Nat
  be : Bool
  late : Bool
  line0 : Nat
  line1 : Nat
  gen : Nat
  payload : List Byte
  window : Option (Nat × Nat × Nat) := none
  deriving DecidableEq, Repr

/-- A data port (R297 to R301). -/
structure Port where
  up : Bool
  queue : List Frame               -- oldest first
  sent : List Frame                -- what has left the port, newest first
  gateEntry : Nat
  cycleStart : Nat
  gates : List Nat                 -- entries of the list in force
  cycle : Nat
  base : Nat
  entryEnd : Nat                   -- timebase at which the entry in progress ends
  free : Nat                       -- when the next frame may start, in 1/25 ns: a byte takes 8 of them
  deriving DecidableEq, Repr

def Port.reset : Port :=
  { up := false, queue := [], sent := [], gateEntry := 0, cycleStart := 0, gates := [0x01E848FF], cycle := 125000, base := 0,
    entryEnd := 0, free := 0 }

/-- An upload of a job container over a session (R311). -/
structure Upload where
  id : Nat
  length : Nat
  next : Nat
  lastData : Nat
  lastAck : Nat
  acked : Nat                      -- NEXT_OFFSET and WINDOW of the last ACK
  window : Nat
  parts : List (Nat × List Byte)   -- bytes taken beyond a gap: (offset, bytes)
  fresh : Bool                     -- data has arrived since the last ACK
  deriving DecidableEq, Repr

/-- A readback in progress (R312): the objects left to answer. -/
structure Readback where
  kind : Nat
  session : Nat
  next : Nat
  stop : Nat
  sub : Nat                        -- evidence objects of the item already sent
  deriving DecidableEq, Repr

/-- An open KSP session (R307 to R313). -/
structure Session where
  peer : Nat
  ksid : Nat
  version : Nat
  caps : Nat
  streams : Nat
  dialect : Nat
  lastRx : Nat
  lastKeep : Nat
  seqs : Vector Nat 16             -- next SEQ per stream, bar to peer
  rtags : Vector Nat 16
  gap : Nat                        -- GAP_BEFORE due, bit = stream
  taken : List (Nat × Nat)         -- (stream, SEQ) of the last 256 datagrams taken of each stream
  held : List (Nat × Nat × List Byte)   -- (stream, SEQ, datagram) kept for REPLAY, newest first
  upload : Option Upload
  readback : Option Readback
  credit : Nat
  deriving DecidableEq, Repr

/-- A bucket: tokens held, in 10⁻⁹ byte, and when they were counted. -/
structure Bucket where
  tokens : Nat
  time : Nat
  deriving DecidableEq, Repr

/-- Delivery. -/
structure Delivery where
  ports : Vector Port 4
  sessions : List Session
  nextKsid : Nat
  benchOut : List (Nat × Nat × KspUnit)   -- bench responses that wait for queue space: (peer, KSID, unit), oldest first
  ctrl : Vector (Nat × Nat) 16     -- of each peer: when the second of its CONTROL datagrams began, and how many have come (R314)
  listFrom : Nat                   -- t(apply line) of the live gate lists
  admState : Nat
  admNamed : Nat
  admFailing : Nat
  admDemand : List Int             -- per resource 1 to 16, 1/1,000 of its unit
  admCapacity : List Int
  evidence : Bucket
  upload : Bucket
  sent : Vector Nat 9
  beDropped : Vector Nat 9
  late : Nat
  discarded : Nat
  rxDropped : Nat
  helloRefused : Nat
  withheld : Nat
  deriving DecidableEq, Repr

def Delivery.reset : Delivery :=
  { ports := Vector.replicate 4 .reset, sessions := [], nextKsid := 1, benchOut := [], ctrl := Vector.replicate 16 (0, 0), listFrom := 0, admState := 0, admNamed := 0, admFailing := 0,
    admDemand := List.replicate 16 0, admCapacity := List.replicate 16 0, evidence := ⟨16777216 * 10 ^ 9, 0⟩,
    upload := ⟨4194304 * 10 ^ 9, 0⟩, sent := Vector.replicate 9 0, beDropped := Vector.replicate 9 0, late := 0, discarded := 0,
    rxDropped := 0, helloRefused := 0, withheld := 0 }

end Sys2Proof.Machine
end

