-- ==== Sys2Proof/Machine/IoTypes.lean ====
section
/-! DEFINITION. State of the Carousel engines (chapter 12), the timers and the position counters (chapter 13). -/

namespace Sys2Proof.Machine

/-- State of an engine (R372, 0x2A00 + e:02). -/
inductive EngineState where
  | halted
  | running
  | halting
  deriving DecidableEq, Repr

/-- Fault code of a channel status word (Table 12-11). -/
inductive ChFault where
  | none
  | illegalOp
  | pinNotOwned
  | joinedQueue
  | haltInstr
  deriving DecidableEq, Repr

/-- What a channel does between its turns: ready for its next instruction; or in a WAIT or a stall that began at `since`.
`met` is what the first engine step at which its condition held left (R362): for a WAIT the time it loads into TS, for an
input SHIFT with AT the level sampled (R368). -/
inductive ChBusy where
  | ready
  | waiting (since : Nat) (met : Option Nat := none)
  deriving DecidableEq, Repr

/-- The GET sources with a high-half shadow (R364), the linked pairs apart. -/
structure Shadows where
  timebase : Option Word32
  pos0 : Option Word32
  pos1 : Option Word32
  pairs : Vector (Option Word32) 8
  deriving DecidableEq, Repr

/-- No shadow armed. -/
def Shadows.clear : Shadows := ⟨none, none, none, Vector.replicate 8 none⟩

/-- An event a channel has posted (R370). -/
structure IoEvent where
  time : Nat
  kind : EventKind
  seq : Nat
  deriving DecidableEq, Repr

/-- One Carousel channel (Table 12-1, Table 12-11). -/
structure ChannelState where
  active : Bool            -- enabled, started and not halted
  stepped : Option Nat     -- the engine step, by its time, in which the channel last took its turn (R358)
  pc : Nat
  g : Vector Word32 4
  z : Bool
  n : Bool
  e : Bool
  sh : Word32
  bc : Nat
  ts : Nat
  shadows : Shadows
  busy : ChBusy
  cq : List Word32         -- oldest first
  rq : List Word32         -- oldest first
  event : Option IoEvent   -- posted, not yet handed on
  evCount : Nat            -- 16-bit sequence number of the next event
  outLate : Bool
  rqOvf : Bool
  feedLost : Bool
  fault : ChFault
  evPosted : Nat
  lateCount : Nat
  feedLostCount : Nat
  deriving DecidableEq, Repr

def ChannelState.reset : ChannelState :=
  { active := false, stepped := none, pc := 0, g := Vector.replicate 4 0, z := false, n := false, e := false, sh := 0, bc := 0,
    ts := 0, shadows := .clear, busy := .ready, cq := [], rq := [], event := none, evCount := 0,
    outLate := false, rqOvf := false, feedLost := false, fault := .none, evPosted := 0, lateCount := 0,
    feedLostCount := 0 }

/-- One Carousel engine. -/
structure Engine where
  state : EngineState
  program : Vector Word16 256
  faults : Nat
  turnFrom : Nat           -- time of the first step since the last start
  deriving DecidableEq, Repr

def Engine.reset : Engine := { state := .halted, program := Vector.replicate 256 0, faults := 0, turnFrom := 0 }

/-- What drives a pin: the bar's output stage. -/
inductive Drive where
  | released
  | low
  | high
  deriving DecidableEq, Repr

/-- The change an armed output compare makes (R367): a SET action, or the bit of an output SHIFT. -/
inductive PinAction where
  | low
  | high
  | toggle
  | release
  deriving DecidableEq, Repr

/-- An armed output compare of a pin: its target (low 32 bits of the timebase), the action and the channel. -/
structure OutCompare where
  target : Word32
  action : PinAction
  late : Bool              -- the target had passed when it was armed: it changes at the next step
  owner : Fin 64
  step : Nat               -- the engine step, by its time, in which it was armed
  deriving DecidableEq, Repr

/-- One J3 pin: what the bar drives, its armed compare, the time and level of its last change seen, and the end of
a bank-voltage hold. -/
structure Pin where
  drive : Drive
  compare : Option OutCompare
  level : Bool             -- the physical level last sampled
  edgeTime : Nat           -- timestamp of the edge that made it so
  deriving DecidableEq, Repr

def Pin.reset : Pin := { drive := .released, compare := none, level := false, edgeTime := 0 }

/-- One timer unit (R379 to R389). For a linked pair the even unit's record holds the pair. -/
structure Timer where
  running : Bool
  down : Bool              -- HALF: the next tick decrements
  count : Nat
  halfStart : Nat          -- the count at which the down half began (R386: h)
  halfPer : Nat            -- the period in force for matches of the half in progress (R387)
  settled : Bool           -- the present count has been compared (R385)
  aheadA : Bool            -- a write has put compare A, or B, above the period but ahead in the down half in progress (R386)
  aheadB : Bool
  at_ : Nat                -- when the tick of the present count fell
  due : Nat                -- when the next tick falls
  outA : Bool
  outB : Bool
  overrun : Bool
  miss : Bool
  double : Bool
  landing : Nat            -- Table 13-7
  matchesA : Nat
  matchesB : Nat
  deriving DecidableEq, Repr

def Timer.reset : Timer :=
  { running := false, down := false, count := 0, halfStart := 0, halfPer := 1, settled := true, aheadA := false, aheadB := false, at_ := 0, due := 0, outA := false,
    outB := false, overrun := false, miss := false, double := false, landing := 0, matchesA := 0, matchesB := 0 }

/-- The I/O block: engines, channels (16e + c), pins, timers, position counters, and the shadow each SDO channel
holds for each pair and for position counter 0 (R390). -/
structure Io where
  engines : Vector Engine 4
  chans : Vector ChannelState 64
  pins : Vector Pin 64
  bankHold : Vector (Option Nat) 8        -- end of the 1 ms hold after a bank-voltage change (R365)
  timers : Vector Timer 16
  pos : Vector Word64 2
  sdoPairShadow : Vector (Option Word32) 16   -- mailbox 0 to 7, bench 8 to 15
  sdoPosShadow : Vector (Option Word32) 2
  deriving DecidableEq, Repr

def Io.reset : Io :=
  { engines := Vector.replicate 4 .reset, chans := Vector.replicate 64 .reset, pins := Vector.replicate 64 .reset,
    bankHold := Vector.replicate 8 none, timers := Vector.replicate 16 .reset, pos := Vector.replicate 2 0,
    sdoPairShadow := Vector.replicate 16 none, sdoPosShadow := Vector.replicate 2 none }

end Sys2Proof.Machine
end

