-- ==== Sys2Proof/Machine/NozzleTypes.lean ====
section
/-! DEFINITION. State of the nozzle tracks (chapter 7). -/

namespace Sys2Proof.Machine

/-- Host states of a track (R201). -/
inductive HostState where
  | none
  | masked
  | compensated
  deriving DecidableEq, Repr

/-- Evidence states of a track (Table 7-1). -/
inductive EvState where
  | unknown
  | healthy
  | weak
  | missing
  | deviated
  deriving DecidableEq, Repr

/-- Classes of an observation (Table 7-6). -/
inductive ObsClass where
  | h
  | w
  | m
  | d
  | neutral
  deriving DecidableEq, Repr

/-- An observation (Table 7-3). -/
structure Obs where
  out : Nat
  dev : Int
  devValid : Bool
  ladder : Bool
  cls : ObsClass
  window : Nat
  deriving DecidableEq, Repr

/-- A track record (Table 7-1); `ring` holds its observations, oldest first, and `head` the entry the next one
takes. -/
structure Track where
  host : HostState
  ev : EvState
  mapped : Bool
  ambiguous : Bool
  conf : Nat
  head : Nat
  ring : List Obs
  covered : Bool           -- a module of the live map covers the track, on the bar or not
  column : Int             -- X + Δ, also off the bar
  module : Nat
  lastChange : Nat
  events : Nat
  toFault : Nat
  toHealthy : Nat
  obsTotal : Nat
  evented : Nat            -- STATE at the last event (R218)
  deriving DecidableEq, Repr

/-- A track as reset leaves it (R218). -/
def Track.reset : Track :=
  { host := .none, ev := .unknown, mapped := false, ambiguous := false, conf := 0, head := 0, ring := [], covered := false, column := 0,
    module := 0, lastChange := 0, events := 0, toFault := 0, toHealthy := 0, obsTotal := 0, evented := 0 }

/-- A module of the nozzle map (R202). -/
structure NzModule where
  ink : Nat
  row : Nat
  first : Nat
  stop : Nat
  bps : List (Nat × Int)   -- (nozzle, column in 1/64)
  deriving DecidableEq, Repr

/-- Track commands of Table 7-7. -/
inductive TrackOp where
  | mask
  | unmask
  | compensate
  | uncompensate
  | reset
  deriving DecidableEq, Repr

/-- A track command waiting for the next window close, with the peer and tag its acknowledgement goes to. -/
structure TrackCmd where
  op : TrackOp
  first : Nat
  stop : Nat
  time : Nat
  ack : Option (Nat × Nat)   -- (peer, tag); none for an SDO
  deriving DecidableEq, Repr

/-- An evidence window that has ended and waits for its close (R208): number, [w0, w1), generation. -/
structure NzWindow where
  number : Nat
  w0 : Nat
  w1 : Nat
  gen : Nat
  deriving DecidableEq, Repr

/-- A ladder observation that waits for the next window close (R212). -/
structure LadderObs where
  track : Nat
  out : Nat
  dev : Int
  devValid : Bool
  deriving DecidableEq, Repr

/-- A running ladder (R211): its descriptor, its first line, and the grid position that line must reach (R124). -/
structure LadderRun where
  desc : Nat
  line : Nat
  target : Option LineTarget
  deriving DecidableEq, Repr

/-- A serial frame that waits for room in its channel's command queue (R225). -/
structure SerialFrame where
  sub : Nat
  w1 : Nat
  payload : Nat              -- bytes 2 to 9 as a number
  due : Nat
  guaranteed : Bool
  deriving DecidableEq, Repr

/-- Nozzle tracks. `tracks` lists those that differ from reset, by rising index. -/
structure Nozzle where
  tracks : List (Nat × Track)
  map : List NzModule
  mapSlots : Slots         -- the persisted map files (R204, R459)
  pending : Option (List NzModule × List Byte)
  drift : List Int                 -- Δ of each module
  cmds : List TrackCmd             -- in order of receipt
  unchanged : Nat                  -- 0x2620:05
  winNumber : Nat
  winStart : Nat
  ended : List NzWindow            -- ended, not closed; oldest first
  ladder : Option LadderRun
  ladderNext : Nat                 -- next sequence entry
  ladderObs : List LadderObs
  ladderIgnored : Nat
  ladderCues : List Nat            -- times of cue edges handed on
  offBar : Nat
  dialect : Vector Nat 16          -- negotiated with each peer (R224)
  serialSeq : Vector Nat 16
  serial : List SerialFrame        -- oldest first
  lateEvents : Nat
  lateLogged : List Nat            -- windows, by w1, for which NOZZLE_LATE has been logged
  closed : Nat
  tClose : Nat
  nClose : Nat                     -- w1 and generation of the window closed last
  genClose : Nat
  deriving DecidableEq, Repr

def Nozzle.reset : Nozzle :=
  { tracks := [], map := [], mapSlots := .blank, pending := none, drift := [], cmds := [], unchanged := 0, winNumber := 0,
    winStart := 0, ended := [], ladder := none, ladderNext := 0, ladderObs := [], ladderIgnored := 0, ladderCues := [],
    offBar := 0, dialect := Vector.replicate 16 0, serialSeq := Vector.replicate 16 0, serial := [], lateEvents := 0,
    lateLogged := [], closed := 0, tClose := 0, nClose := 0, genClose := 0 }

/-- The nozzle map file in force in MRAM. -/
def Nozzle.mapFile (z : Nozzle) : List Byte := z.mapSlots.current

end Sys2Proof.Machine
end

