-- ==== Sys2Proof/Machine/SafetyTypes.lean ====
section
/-! DEFINITION. State of the Ringmaster (chapter 15): Safety Net, in-service test, watchdog and retained record; and of
thermal management, slack and power (chapter 14). -/

namespace Sys2Proof.Machine

/-- Active causes of the Safety Net (Table 15-2), kept apart where one SNFLAGS bit has several. -/
structure Causes where
  tb : Bool                         -- bit 0
  slack : Bool                      -- bit 1
  spool : Bool                      -- bit 2
  lineSegs : List (Nat × Nat)       -- bit 3: (segment, lines without a malformed one since)
  late : Bool                       -- bit 4
  fw : Bool                         -- bit 5
  host : Bool                       -- bit 6
  istFails : List ((Nat × Nat × Nat) × Nat)   -- bit 7: failing (test, segment, unit) and its passes in a row since
  istOverrun : Bool                 -- bit 7
  stall : List ((Nat × Nat) × Nat)  -- bit 8: stalled (segment or 0xFF, class), and when
  dram : List Nat                   -- bit 8: DRAM regions with an uncorrectable word
  crit : Bool                       -- bit 8
  lockstep : Bool                   -- bit 8
  absent : Bool                     -- bit 8: a segment did not answer at bring-up (R445)
  deriving DecidableEq, Repr

def Causes.none : Causes :=
  { tb := false, slack := false, spool := false, lineSegs := [], late := false, fw := false, host := false,
    istFails := [], istOverrun := false, stall := [], dram := [], crit := false, lockstep := false, absent := false }

/-- The Safety Net (R422 to R426, 0x2D00). -/
structure SafetyNet where
  engaged : Bool
  since : Nat                       -- SNFLAGS: causes since engagement
  causes : Causes
  engagements : Nat
  lastEngaged : Nat
  lastCode : Nat
  lastRelease : Nat
  lastClear : Nat                   -- when the last cause cleared
  lastLate : Nat                    -- last VERDICT_LATE
  lastUntimely : Nat                -- last untimely stripe
  untimely : List Nat               -- times of untimely stripes within the last second
  deriving DecidableEq, Repr

/-- In-service test (R427 to R432, 0x2D10). -/
structure Ist where
  passStart : Nat
  passClean : Bool                  -- every test of the running pass has passed so far
  overrun : Bool                    -- the running pass has been reported longer than 2 s
  cleanPass : Option Nat            -- start of the last complete pass with every test passed
  lastDuration : Nat                -- µs
  passes : Nat
  done : Bool                       -- COVERAGE_DONE
  lastFail : Nat
  lookback : Nat
  stolen : Nat
  lastSteal : Option Nat            -- the stealing interval of the last stolen line
  claimed : Bool                    -- the next trigger is stolen
  passed : List ((Nat × Nat × Nat) × Nat)  -- last passed line of an element's test
  tested : List (Nat × Nat × Nat)   -- (test, segment, unit) run in the present pass
  idleServed : Option Nat           -- the stealing interval in which idle time last served a test
  stolenReady : Nat                 -- stolen lines that no test has used yet
  linesFor : List Nat               -- tests that have had their stolen lines in the present pass
  darkRuns : List ((Nat × Nat) × Nat × Bool)  -- (segment, tile): lines in a row outside the dark limits; more than 15 of them since its test
  dramScrubs : Nat
  mramScrubs : Nat
  deriving DecidableEq, Repr

/-- One watchdog slot (R434, Table 15-7). -/
structure WdgSlot where
  times : List Nat                  -- check-ins of the current period, oldest first
  supervised : Bool
  passed : Bool
  lastFault : Nat
  clean : Nat
  misses : Nat
  deriving DecidableEq, Repr

def WdgSlot.reset : WdgSlot := ⟨[], false, false, 0, 0, 0⟩

/-- The settings of a watchdog period, in ns (R433). -/
structure WdgSettings where
  period : Nat
  fo : Nat
  fc : Nat
  ho : Nat
  hc : Nat
  deriving DecidableEq, Repr

structure Watchdog where
  started : Bool
  k : Nat
  tk : Nat
  inForce : WdgSettings
  slots : Vector WdgSlot 8
  fwMissed : Bool                   -- slots 0 to 5 missed in the last closed period
  hostFrom : Option Nat             -- first sampled cycle of the session
  hostLost : Bool
  hostClean : Nat                   -- consecutive periods in which both host slots passed
  deriving DecidableEq, Repr

/-- The retained record (Table 15-5). -/
structure Retained where
  boots : Nat
  running : Bool
  wdgResets : Nat
  thermal : Nat
  brownOuts : Nat
  powerLosses : Nat
  snEntries : Nat
  lastCause : Nat
  lastSn : Nat
  lastBoot : Nat
  lastTime : Nat
  lastLine : Nat
  deriving DecidableEq, Repr

/-- Whether the bar runs. -/
inductive Power where
  | reset                           -- reset released, start-up not run yet
  | running
  | recovery                        -- recovery mode
  | shutdown                        -- tripped (R408)
  | extest                          -- held in reset by EXTEST (R495)
  deriving DecidableEq, Repr

/-- The instructions of the JTAG port (R495). -/
inductive TapInstr where
  | idcode
  | bypass
  | samplePreload
  | extest
  deriving DecidableEq, Repr

structure Safety where
  power : Power
  tap : TapInstr                    -- the instruction of the TAP; no row of the table scans its data registers (log 185)
  sn : SafetyNet
  ist : Ist
  wdg : Watchdog
  ret : Retained
  resetAt : Option (Nat × Nat)      -- a decided reset of R437: when decided, and its cause
  faultMismatch : Bool
  faultWas : Bool                   -- the level requested of FAULT_N (R424) after the last command
  faultAt : Nat                     -- when that request last changed
  deriving DecidableEq, Repr

def Safety.reset : Safety :=
  { power := .reset, tap := .idcode
    sn := { engaged := false, since := 0, causes := .none, engagements := 0, lastEngaged := 0, lastCode := 0,
            lastRelease := 0, lastClear := 0, lastLate := 0, lastUntimely := 0, untimely := [] }
    ist := { passStart := 0, passClean := true, overrun := false, cleanPass := none, lastDuration := 0, passes := 0,
             done := false, lastFail := 0, lookback := 0, stolen := 0, lastSteal := none, claimed := false,
             passed := [], tested := [], idleServed := none, stolenReady := 0, linesFor := [], darkRuns := [], dramScrubs := 0, mramScrubs := 0 }
    wdg := { started := false, k := 0, tk := 0, inForce := ⟨100000000, 0, 100000000, 0, 100000000⟩,
             slots := Vector.replicate 8 .reset, fwMissed := false, hostFrom := none, hostLost := false, hostClean := 0 }
    ret := { boots := 0, running := false, wdgResets := 0, thermal := 0, brownOuts := 0, powerLosses := 0,
             snEntries := 0, lastCause := 0, lastSn := 0, lastBoot := 0, lastTime := 0, lastLine := 0 }
    resetAt := none, faultMismatch := false, faultWas := false, faultAt := 0 }

/-- A temperature sensor (R397 to R402). Values are in 1/16 °C. -/
structure Sensor where
  raws : List Int                   -- last raw samples, newest first, at most 4
  sampledAt : Option Nat            -- when the last one was taken
  filtered : Option Int
  hist : List (Nat × Int)           -- filtered values of the last 2 s and a little more, newest first
  up : Vector Nat 3                 -- consecutive filtered values at or above WARN, THROTTLE, CRIT
  dn : Vector Nat 3                 -- consecutive filtered values below the threshold less 3 K
  inLevel : Vector Bool 3
  rateUp : Nat
  rateDn : Nat
  rate : Bool
  failed : Bool
  badRun : Nat
  goodRun : Nat
  demand : Nat
  stepFrom : Option Nat             -- when the running step-up interval began
  leftAt : Option Nat               -- when the running step-down interval began
  cool : Option (Nat × Nat)         -- in a shutdown: reading below 95 °C since when, and its last reading
  deriving DecidableEq, Repr

def Sensor.reset : Sensor :=
  { raws := [], sampledAt := none, filtered := none, hist := [], up := Vector.replicate 3 0, dn := Vector.replicate 3 0,
    inLevel := Vector.replicate 3 false, rateUp := 0, rateDn := 0, rate := false, failed := false, badRun := 0,
    goodRun := 0, demand := 0, stepFrom := none, leftAt := none, cool := none }

/-- The transactions of the PMBus (R410): VOUT_MODE, VOUT_COMMAND of a voltage in mV, READ_VOUT, STATUS_WORD, CLEAR_FAULTS. -/
inductive PmbusOp where
  | voutMode
  | vout (mv : Nat)
  | readVout
  | readStatus
  | clearFaults
  deriving DecidableEq, Repr

/-- A transaction that has failed once or twice and waits for its retry (R412). -/
structure PmbusRetry where
  op : PmbusOp
  tries : Nat
  at_ : Nat                         -- when it last failed
  deriving DecidableEq, Repr

/-- A transaction on the bus: address, command, the data written if it is a write, and whether it has a PEC byte. -/
structure PmbusSent where
  addr : Nat
  cmd : Nat
  data : Option Nat
  pec : Bool
  deriving DecidableEq, Repr

/-- AVS states, 0x2C20:07. -/
inductive AvsState where
  | active
  | atLimit
  | fault
  | disabled
  deriving DecidableEq, Repr

/-- Thermal management and power. -/
structure Thermal where
  sensors : Vector Sensor 26
  /-- Settings 0x2C02 to 0x2C10 as they stood at the last filtered sample, from which on they are in force (R415). -/
  inForce : Option Store
  slotAt : Option Nat               -- when the last conversion slot was used
  bStep : Nat                       -- class B step in effect
  advice : Nat
  critSealed : Bool                 -- storage sealed for an on-die CRIT
  critClear : Option Nat            -- since when no on-die sensor is in CRIT
  tripSensor : Nat                  -- 0x2C30:03
  tripPeak : Int
  tripOpen : Bool                   -- the trip was an open or shorted diode
  slack : Vector Int 9              -- lowest of the running interval, S0 to S7 and the hub, 0.1 %
  slackCls : Vector Nat 9
  lastSlack : Vector Int 9          -- 0x2C21, 0x2C22:01
  lastLoc : Nat                     -- 0x2C22:02
  slackPeak : Option Int            -- the highest of the interval's lowest slacks: below the floor for a whole interval
  withholding : Bool                -- R21: slack fell below 5 % and has not reached 10 % since
  slackBad : Nat                    -- measurements at or below 0 on a GUARANTEED class, tokens all withheld
  highSince : Option Nat            -- slack above the floor plus 10 points since
  okSince : Option Nat              -- slack at or above the floor since
  withheld : Nat                    -- the Tightrope's own eighths
  vcore : Nat                       -- requested, mV
  vread : Nat
  avs : AvsState
  vexp : Option Int                 -- VOUT_MODE's exponent, once it has been read
  retries : List PmbusRetry         -- transactions that wait for a retry
  pmbusFaults : Nat
  statusWord : Nat
  mismatch : Nat
  polledAt : Option Nat             -- when READ_VOUT and STATUS_WORD were last read
  sent : List PmbusSent             -- PMBus transactions sent, newest first
  deriving DecidableEq, Repr

def Thermal.reset : Thermal :=
  { sensors := Vector.replicate 26 .reset, inForce := none, slotAt := none, bStep := 0, advice := 0xFFFF, critSealed := false, critClear := none,
    tripSensor := 0xFF, tripPeak := 0, tripOpen := false, slack := Vector.replicate 9 1000,
    slackCls := Vector.replicate 9 0, lastSlack := Vector.replicate 9 0, lastLoc := 0, slackPeak := none, withholding := false, slackBad := 0,
    highSince := none, okSince := none, withheld := 0, vcore := 0, vread := 0, avs := .active, vexp := none,
    retries := [], pmbusFaults := 0, statusWord := 0, mismatch := 0, polledAt := none, sent := [] }

end Sys2Proof.Machine
end

