-- ==== Sys2Proof/Machine/SecurityTypes.lean ====
section
/-! DEFINITION. State of the fuses, the MRAM's firmware and calibration regions and the security commands
(chapter 16). -/

namespace Sys2Proof.Machine

/-- A fuse row as its two margin reads give it (R451). -/
structure FuseRow where
  row : Nat
  low : Nat
  high : Nat
  deriving DecidableEq, Repr

/-- A fuse array: rows not listed read 0 at both margins. -/
abbrev FuseArray := List FuseRow

/-- The boot anchor (R463). -/
structure BootAnchor where
  preferred : Bool                 -- true: B
  trial : Bool
  tries : Nat
  deriving DecidableEq, Repr

/-- What the spec fixes of the identity certificate, stored in MRAM at manufacture (R459, R475): the subject's serialNumber, the
unique ID as 16 capital hex digits, and its public key. -/
structure IdentityCert where
  serialNumber : List Byte
  subjectKey : List Byte
  deriving DecidableEq, Repr

/-- Security state. -/
structure Security where
  hub : FuseArray                  -- the arrays as read at start, with the bits programmed since
  segOtp : Vector FuseArray 8
  hubStart : List Nat              -- values of rows 0 to 47 taken at start
  groupsDefault : Nat              -- 0x2E00:01
  redirected : Nat
  driftRow : Nat
  driftLogged : List Nat
  redirBad : Bool                  -- the start found a bad redirection entry (R450)
  slotA : List Byte
  slotB : List Byte
  anchor : BootAnchor
  running : Option Bool            -- running slot, true: B
  fellBack : Bool
  calSlots : Vector (List Byte) 2
  calActive : Nat
  calNew : Bool                    -- a new store waits for the end of PRE-OP
  uncalibrated : Bool
  recovery : Bool
  romVersion : Nat
  identity : IdentityCert
  deriving DecidableEq, Repr

/-- Check row of a group (R447). -/
def otpCheckRow (group : Nat) (rows : List Nat) : Nat :=
  crc32c (rows.flatMap (leBytes 8)) + group * 2 ^ 32

/-- The feature word of an RDX4808 (Table 16-4). -/
def featureWord4808 : Nat := 0x48080008

/-- Reset: the fuses of an RDX4808 of standard grade, field-closed, with no other group programmed; MRAM blank, but for
the identity certificate of a part whose unique ID reads 0 and that has no identity key. -/
def Security.reset : Security :=
  { hub := [⟨2, featureWord4808, featureWord4808⟩, ⟨3, otpCheckRow 1 [featureWord4808], otpCheckRow 1 [featureWord4808]⟩,
            ⟨27, 0xFF, 0xFF⟩]
    segOtp := Vector.replicate 8 [], hubStart := [], groupsDefault := 0, redirected := 0, driftRow := 0xFFFF,
    driftLogged := [], redirBad := false, slotA := [], slotB := [], anchor := ⟨false, false, 0⟩, running := none, fellBack := false,
    calSlots := Vector.replicate 2 [], calActive := 0, calNew := false, uncalibrated := false, recovery := false,
    romVersion := 0, identity := ⟨List.replicate 16 0x30, zeros 133⟩ }

end Sys2Proof.Machine
end

