-- ==== Sys2Proof/Machine/State.lean ====
section
/-! DEFINITION. The state of the bar, its faults and refusals, and the state at reset. -/

namespace Sys2Proof.Machine

/-- Why a step stops with a fault. -/
inductive Fault where
  /-- A hardware event names a segment the fused part does not have (R1, R4). Raised by the segment commands.
  Safe: no such event comes about on that part. -/
  | absentSegment
  deriving DecidableEq, Repr

/-- Why a command has no meaning. -/
inductive Refusal where
  /-- The command is not modelled yet. Raised by an arm of the dispatch only. Safe. -/
  | notModelled (mnemonic : String)
  deriving DecidableEq, Repr

/-- Everything the bar holds. -/
structure Bar where
  now : Nat                -- timebase, ns (R13, R77)
  free : Nat               -- the model's own: how many free values have been drawn
  segs : Nat               -- S, fused (R1)
  lines : Nat              -- line triggers of the session so far: the next line index
  par : Params
  persist : Persist
  ecat : Ecat
  log : EventLog
  sm1 : List MailItem
  sdoM : SdoChannel
  sdoB : SdoChannel
  seg : Option SegTransfer
  foe : Option FoeTransfer
  foeDetail : Nat
  io : Io
  cap : Capture
  saf : Safety
  thm : Thermal
  nz : Nozzle
  cod : Codec
  sto : Storage
  dlv : Delivery
  sec : Security
  deriving DecidableEq, Repr

/-- The machine: the bar and the commands that wait for it, first in, first out. -/
structure State where
  pending : List Instr
  bar : Bar
  deriving DecidableEq, Repr

def Bar.reset : Bar :=
  { now := 0, free := 0, segs := 8, lines := 0, par := .reset, persist := .reset, ecat := .reset, log := .reset,
    sm1 := [], sdoM := .reset, sdoB := .reset, seg := none, foe := none, foeDetail := 0, io := .reset, cap := .reset,
    saf := .reset, thm := .reset, nz := .reset, cod := .reset, sto := .reset, dlv := .reset, sec := .reset }

def State.reset : State := { pending := [], bar := .reset }

end Sys2Proof.Machine
end

