-- ==== Sys2Proof/Machine/Params.lean ====
section
/-! DEFINITION. Reading and writing the parameter copies (R33 to R39): sparse stores over the dictionary's defaults. -/

namespace Sys2Proof.Machine

/-- The key of an entry in a store. -/
def objKey (index sub : Nat) : Nat := index * 256 + sub

/-- The value a store lists for a key. -/
def Store.find : Store → Nat → Option Val
  | [], _ => none
  | (k, v) :: rest, key => if k = key then some v else Store.find rest key

/-- The store with a key's value set, keys rising. -/
def Store.put : Store → Nat → Val → Store
  | [], key, v => [(key, v)]
  | (k, w) :: rest, key, v =>
    if key < k then (key, v) :: (k, w) :: rest
    else if key = k then (key, v) :: rest
    else (k, w) :: Store.put rest key v

/-- The canonical form of a store: keys strictly rising. -/
def Store.wf : Store → Bool
  | [] => true
  | [_] => true
  | (k, _) :: (k', w) :: rest => decide (k < k') && Store.wf ((k', w) :: rest)

/-- The whole dictionary. -/
def dictionary : List Entry := dict0 ++ dictCapture ++ dictTiming ++ dictPipeline ++ dictInspect ++ dictIo ++ dictSafety
  ++ dictNozzle ++ dictStorage ++ dictDelivery

/-- The row of the dictionary that holds an entry. -/
def findEntry (index sub : Nat) : Option Entry :=
  dictionary.find? fun e => e.lo ≤ index && index ≤ e.hi && e.sub ≤ sub && sub ≤ e.subHi

/-- A default as a number. -/
def dfltOf (S index sub : Nat) : Int :=
  match findEntry index sub with
  | some e => if e.perS then e.dflt * (S : Int) else e.dflt
  | none => 0

/-- The number a store gives an entry, or the entry's default. -/
def Store.numAt (st : Store) (S index sub : Nat) : Int :=
  match st.find (objKey index sub) with
  | some (.num n) => n
  | some (.raw _) => 0
  | none => dfltOf S index sub

/-- The bytes a store gives an entry of a string or DOMAIN type; none when nothing is stored. -/
def Store.rawAt (st : Store) (index sub : Nat) : List Byte :=
  match st.find (objKey index sub) with
  | some (.raw bs) => bs
  | _ => []

/-- An RW or RW_PREOP parameter. -/
def Bar.rwI (b : Bar) (index sub : Nat) : Int := b.par.rw.numAt b.segs index sub
def Bar.rwN (b : Bar) (index sub : Nat) : Nat := (b.rwI index sub).toNat
/-- The live copy of a STAGED parameter. -/
def Bar.liveI (b : Bar) (index sub : Nat) : Int := b.par.live.numAt b.segs index sub
def Bar.liveN (b : Bar) (index sub : Nat) : Nat := (b.liveI index sub).toNat
/-- The staged copy of a STAGED parameter. -/
def Bar.stagedI (b : Bar) (index sub : Nat) : Int := b.par.staged.numAt b.segs index sub
def Bar.stagedN (b : Bar) (index sub : Nat) : Nat := (b.stagedI index sub).toNat

/-- An RW or RW_PREOP parameter written. -/
def Bar.putRw (b : Bar) (index sub : Nat) (v : Val) : Bar :=
  { b with par := { b.par with rw := b.par.rw.put (objKey index sub) v } }

/-- The newest valid parameter image (R341). -/
def Persist.newest (p : Persist) : Option ParamImage :=
  let images := if p.anchor = 0 then [p.image0, p.image1] else [p.image1, p.image0]
  (images.filterMap id).find? (·.valid)

end Sys2Proof.Machine
end

