-- ==== Sys2Proof/Machine/Ops.lean ====
section
/-! DEFINITION. Operations every block shares: time, free values, the event log and Emergencies. -/

namespace Sys2Proof.Machine

/-- The live line index: that of the last line triggered in the session. -/
def Bar.liveLine (b : Bar) : Nat := b.lines - 1

/-- The regions of DRAM (Table 1-2) in MiB: firmware, nozzle tracks, staging, read-ahead, item workspace, port buffers,
evidence and DEFLATE buffers, merge line stores. -/
def dramRegions : List Nat := [704, 64, 512, 1024, 512, 512, 512, 256]

/-- Bytes of a DRAM region. -/
def regionBytes (region : Nat) : Nat := dramRegions.getD region 0 * 2 ^ 20

/-- A free value below a bound, and the state with the draw counted. -/
def Bar.draw (b : Bar) (bound : Nat) : Nat × Bar := (Config.freeNat b.free % bound, { b with free := b.free + 1 })

/-- A condition that raised an error of severity 2 or 3 still holds: the Safety Net is engaged or one of its causes is
active, a sensor has failed or is in CRIT, the regulator is at a limit, has failed or is in no linear mode, a fuse group stands
at its default, a fuse row has drifted or a redirection is bad, the start fell back from a firmware slot, a Carousel channel is
faulted, the bar is uncalibrated or in recovery mode. DEDUCED (log 6): R354 does not say when an error stops being active. -/
def Bar.errorActive (b : Bar) : Bool :=
  b.saf.sn.engaged || b.saf.sn.causes ≠ .none || b.thm.sensors.toList.any (fun x => x.failed || x.inLevel[2])
    || b.thm.avs = .atLimit || b.thm.avs = .fault || b.thm.avs = .disabled
    || b.sec.groupsDefault ≠ 0 || b.sec.driftLogged ≠ [] || b.sec.redirBad || b.sec.fellBack
    || b.io.chans.toList.any (fun c => c.fault ≠ .none && c.fault ≠ .haltInstr) || b.sec.uncalibrated || b.sec.recovery

/-- The error register 0x1001 (R354). -/
def Bar.errorRegister (b : Bar) : Nat :=
  b2n b.errorActive + b2n (decide (0 < b.cap.pstep)) * 8 + b2n b.saf.sn.engaged * 128

/-- Severity of an event log code (Table 11-14) where a rule gives one. -/
def knownSeverity : List (Nat × Nat) :=
  [(0xA020, 2), (0xC020, 1), (0xC021, 1), (0xC023, 1), (0xC024, 2), (0xC027, 3), (0xC028, 1), (0xC030, 2), (0xC031, 2),
   (0xC032, 2), (0xC033, 2), (0xC034, 1), (0xC035, 3), (0xD020, 3), (0xD021, 1), (0xD022, 1), (0xD023, 2), (0xD024, 2),
   (0xD025, 2), (0xD026, 2), (0xD027, 3), (0xD029, 3), (0xD02A, 3), (0xD02B, 3), (0xD02C, 3), (0xD02D, 3), (0xD031, 3),
   (0xD033, 2), (0xE005, 2), (0xE009, 2), (0xE020, 2), (0xE022, 2), (0xE023, 2), (0xE024, 2), (0xE025, 2), (0xE026, 3),
   (0xE027, 2), (0xE028, 3)]

/-- The severity of a code's entries: the one a rule gives, or a free value. -/
def severityOf (code : Nat) : Nat :=
  match knownSeverity.find? (·.1 = code) with
  | some (_, s) => s
  | none => (Config.openSeverity code).toNat

/-- How many Emergencies wait in the mailbox queue. -/
def emergenciesWaiting (q : List MailItem) : Nat :=
  q.countP fun m => match m with | .emergency _ => true | _ => false

/-- The eight bytes of an Emergency (R353). -/
def emergencyBytes (errorCode reg code number : Nat) : List Byte :=
  leBytes 2 errorCode ++ leBytes 1 reg ++ leBytes 2 code ++ leBytes 3 number

/-- The Emergency error code of a detail code: 0x4200 for 0x2Cxx, 0xFF00 for all others (R353). -/
def emergencyCode (code : Nat) : Nat := if code / 0x1000 = 0xC then 0x4200 else 0xFF00

/-- Size of the event log ring (R352). -/
def logSize : Nat := 16384

/-- An entry of a given severity is written, and its Emergency queued, dropped or not due. `reserved` is the place
kept for a Safety Net engagement; `release` marks the one Emergency that severity 1 causes (R353). -/
def Bar.logWith (b : Bar) (code arg sev : Nat) (reserved release : Bool) : Bar :=
  let due := decide (2 ≤ sev) || release
  let room := decide (emergenciesWaiting b.sm1 < 15) || reserved
  let entry : LogEntry :=
    { time := b.now, line := if b.ecat.session then b.liveLine else 0, code := code, severity := sev,
      sent := due && room, dropped := due && !room, number := b.log.next, arg := arg }
  let full := decide (logSize ≤ b.log.entries.length)
  { b with
    log := { b.log with
      entries := entry :: b.log.entries.take (logSize - 1)
      next := b.log.next + 1
      overwritten := if full then sat32 b.log.overwritten else b.log.overwritten
      emergDropped := if due && !room then sat32 b.log.emergDropped else b.log.emergDropped }
    sm1 := if due && room then
        b.sm1 ++ [.emergency (emergencyBytes (if release then 0 else emergencyCode code) b.errorRegister code b.log.next)]
      else b.sm1 }

/-- The Barker logs a code (R352, R353). -/
def Bar.logEvent (b : Bar) (code arg : Nat) : Bar := b.logWith code arg (severityOf code) false false

/-- The Barker logs a code at a severity its rule gives for the case at hand. -/
def Bar.logAt (b : Bar) (code arg sev : Nat) : Bar := b.logWith code arg sev false false

/-- A code is logged at most once per period for one unit. -/
def Bar.logLimited (b : Bar) (code unit arg period : Nat) : Bar :=
  let recent := b.log.limits.any fun l => l.1 = (code, unit) && decide (b.now < l.2 + period)
  if recent then b
  else
    let b := b.logEvent code arg
    { b with log := { b.log with limits := ((code, unit), b.now) :: b.log.limits.filter (fun l => l.1 ≠ (code, unit)) } }

/-- The counter's value at t: it never runs back (R77), and off the PLL it moves by 40 at a time (R83, R86). -/
def Bar.counterAt (b : Bar) (t : Nat) : Nat := if b.cap.tb.mode = .pll then max b.now t else b.now + (t - b.now) / 40 * 40

/-- Time moves to the moment a command comes about. -/
def Bar.at (b : Bar) (t : Nat) : Bar := { b with now := b.counterAt t }

/-- A command whose effect is a function of the bar: the next state, the queue untouched. -/
def State.occur (s : State) (t : Nat) (f : Bar → Bar) : Host.Outcome State Fault Refusal :=
  .next { s with bar := f (s.bar.at t) }

end Sys2Proof.Machine
end

