-- ==== Sys2Proof/Machine/Sbf.lean ====
section
/-! DEFINITION. The Smikorath Block Format (R228 to R243): coding and decoding a block of 16 by 4 samples. A sample is
an `Option Nat`, none where it is void. -/

namespace Sys2Proof.Machine

/-- Block size in bits. -/
def sbfBits (d r : Nat) : Nat := 64 * d / r

/-- The supported pairs of depth and ratio (Table 8-1). -/
def sbfPairs : List (Nat × Nat) :=
  [(8, 2), (8, 4), (8, 8), (10, 2), (10, 4), (10, 8), (12, 2), (12, 3), (12, 4), (12, 6), (12, 8), (16, 2), (16, 4), (16, 8)]

def sbfKT (d r : Nat) : Nat := min d ((sbfBits d r - 6) / 16)
def sbfQT (d r : Nat) : Nat := d - sbfKT d r

/-- h(q) of R230. -/
def sbfHalf (q : Nat) : Nat := if q = 0 then 0 else 2 ^ (q - 1)

/-- A quantised value rebuilt (R230). -/
def sbfRebuild (d q u : Nat) : Nat := min (2 ^ d - 1) (u * 2 ^ q + sbfHalf q)

/-- The low w bits of x, most significant first. -/
def msbBits : (w : Nat) → Nat → List Bool
  | 0, _ => []
  | w + 1, x => x.testBit w :: msbBits w x

/-- The value of bits, most significant first. -/
def ofMsbBits (bs : List Bool) : Nat := bs.foldl (fun a v => 2 * a + b2n v) 0

/-- Bits packed into bytes, the first in bit 7 (R231). -/
def packMsb : Nat → List Bool → List Byte
  | 0, _ => []
  | n + 1, bs => BitVec.ofNat 8 (ofMsbBits ((bs ++ List.replicate 8 false).take 8)) :: packMsb n (bs.drop 8)

/-- Bits of bytes, bit 7 first. -/
def unpackMsb (bs : List Byte) : List Bool := bs.flatMap fun x => msbBits 8 x.toNat

/-- Sample (x, y) of a block's list of 64. -/
def px (u : List Nat) (x y : Nat) : Nat := u.getD (16 * y + x) 0

/-- The median-edge predictor (R233). -/
def medPred (a b c : Nat) : Nat :=
  if max a b ≤ c then min a b else if c ≤ min a b then max a b else a + b - c

/-- First column of the half of x. -/
def halfStart (split : Bool) (x : Nat) : Nat := if split && decide (8 ≤ x) then 8 else 0

/-- The prediction of (x, y) over the values so far; neighbours outside the half take its base. -/
def sbfPred (split : Bool) (base0 base1 : Nat) (u : List Nat) (x y : Nat) : Nat :=
  let x0 := halfStart split x
  let base := if x0 = 8 then base1 else base0
  let left := decide (x0 < x)
  let up := decide (0 < y)
  medPred (if left then px u (x - 1) y else base) (if up then px u x (y - 1) else base)
    (if left && up then px u (x - 1) (y - 1) else base)

/-- The residual of (x, y), in the signed range of k bits. -/
def sbfResidual (k : Nat) (split : Bool) (u : List Nat) (x y : Nat) : Int :=
  let p := sbfPred split (px u 0 0) (px u 8 0) u x y
  (((px u x y : Int) - p + 2 ^ (k - 1)) % (2 ^ k : Nat)) - 2 ^ (k - 1)

def sbfRow (k : Nat) (split : Bool) (u : List Nat) (y : Nat) : List Int :=
  (List.range 16).map fun x => sbfResidual k split u x y

/-- The smallest row width (R236). -/
def rowWidth (es : List Int) : Nat :=
  if es.all (· = 0) then 0
  else match (List.range 14).find? fun i => es.all fun e => decide (-(2 ^ i : Int) ≤ e) && decide (e ≤ 2 ^ i - 1) with
    | some i => i + 1
    | none => 16

/-- The fields of a row: width code and residuals (R232). -/
def rowBits (es : List Int) : List Bool :=
  let w := rowWidth es
  msbBits 4 (if w = 16 then 15 else w) ++ es.flatMap fun e => if w = 0 then [] else msbBits w (unsigned w e)

/-- The three prediction modes' bit strings at a quantiser, where they fit. -/
def sbfModes (d q size : Nat) (u : List Nat) : Option (List Bool) :=
  let k := d - q
  let head (mode : Nat) := msbBits 2 mode ++ msbBits 4 q
  let flat := head 0 ++ msbBits k (px u 0 0)
  let rows (split : Bool) := (List.range 4).flatMap fun y => rowBits (sbfRow k split u y)
  let dpcm := head 1 ++ msbBits k (px u 0 0) ++ rows false
  let splitB := head 2 ++ msbBits k (px u 0 0) ++ msbBits k (px u 8 0) ++ rows true
  if u.all (· = px u 0 0) && decide (flat.length ≤ size) then some flat
  else if dpcm.length ≤ size then some dpcm
  else if splitB.length ≤ size then some splitB
  else none

/-- The prediction candidate at the smallest quantiser that fits, from q on: the quantiser and its bits. -/
def sbfCandidate (d size : Nat) (xs : List Nat) : Nat → Nat → Option (Nat × List Bool)
  | 0, _ => none
  | fuel + 1, q =>
    match sbfModes d q size (xs.map (· / 2 ^ q)) with
    | some bits => some (q, bits)
    | none => sbfCandidate d size xs fuel (q + 1)

/-- The quad of (x, y) and its TRUNC value (R234). -/
def truncValue (xs : List Nat) (qT i : Nat) : Nat :=
  let x := 2 * (i % 8)
  let y := 2 * (i / 8)
  (px xs x y + px xs (x + 1) y + px xs x (y + 1) + px xs (x + 1) (y + 1)) / 4 / 2 ^ qT

/-- Samples rebuilt from the 16 quad values. -/
def truncRebuild (d qT : Nat) (vs : List Nat) : List Nat :=
  (List.range 64).map fun j => sbfRebuild d qT (vs.getD (j % 16 / 2 + 8 * (j / 16 / 2)) 0)

def absDiff (a b : Nat) : Nat := if a < b then b - a else a - b

/-- The largest error over the non-void samples. -/
def blockErr (src : List (Option Nat)) (rec : List Nat) : Nat :=
  (List.zipWith (fun s r => match s with | some x => absDiff x r | none => 0) src rec).foldl max 0

/-- A coded block: its bits, the encoder's reconstruction (none: VOID) and its error. -/
structure SbfCoded where
  bits : List Bool
  recon : List (Option Nat)
  err : Nat

/-- The encoder's decision (R235, R236). -/
def sbfCode (d r : Nat) (src : List (Option Nat)) : SbfCoded :=
  let size := sbfBits d r
  if src.all (·.isNone) then ⟨msbBits 2 3 ++ msbBits 4 15, List.replicate 64 none, 0⟩
  else
    let xs := src.map (·.getD 0)
    let qT := sbfQT d r
    let vs := (List.range 16).map (truncValue xs qT)
    let tRec := truncRebuild d qT vs
    let tErr := blockErr src tRec
    let trunc : SbfCoded := ⟨msbBits 2 3 ++ msbBits 4 qT ++ vs.flatMap (msbBits (sbfKT d r)), tRec.map some, tErr⟩
    match sbfCandidate d size xs d 0 with
    | none => trunc
    | some (q, bits) =>
      let pRec := xs.map fun x => sbfRebuild d q (x / 2 ^ q)
      let pErr := blockErr src pRec
      if pErr ≤ tErr then ⟨bits, pRec.map some, pErr⟩ else trunc

/-- The block's bytes. -/
def SbfCoded.bytes (c : SbfCoded) (d r : Nat) : List Byte := packMsb (sbfBits d r / 8) c.bits

/-! ### Decoding (R237) -/

/-- A field of w bits and the rest; none past the end of the block. -/
def readBits (w : Nat) (s : List Bool) : Option (Nat × List Bool) :=
  if w ≤ s.length then some (ofMsbBits (s.take w), s.drop w) else none

/-- n fields of w bits. -/
def readMany (w : Nat) : Nat → List Bool → Option (List Nat × List Bool)
  | 0, s => some ([], s)
  | n + 1, s => do
    let (v, s) ← readBits w s
    let (vs, s) ← readMany w n s
    return (v :: vs, s)

/-- One row's samples over those decoded so far. -/
def decodeRowVals (k : Nat) (split : Bool) (b0 b1 y : Nat) (es : List Int) (u : List Nat) : List Nat :=
  (List.range 16).foldl (fun u x =>
    u ++ [(((sbfPred split b0 b1 u x y : Nat) : Int) + es.getD x 0) % (2 ^ k : Nat) |>.toNat]) u

/-- The rows of a DPCM or SPLIT block. -/
def decodeRows (k : Nat) (split : Bool) (b0 b1 : Nat) : Nat → Nat → List Nat → List Bool → Option (List Nat × List Bool)
  | 0, _, u, s => some (u, s)
  | n + 1, y, u, s => do
    let (code, s) ← readBits 4 s
    let w := if code = 15 then 16 else code
    if decide (k < w) && !(w = 16 && decide (15 ≤ k)) then none
    else do
      let (es, s) ← if w = 0 then some ((List.replicate 16 (0 : Int)), s)
        else (readMany w 16 s).map fun p => (p.1.map (signed w), p.2)
      decodeRows k split b0 b1 n (y + 1) (decodeRowVals k split b0 b1 y es u) s

/-- A block decoded: 64 samples, or none if it is malformed. -/
def sbfDecode (d r : Nat) (bytes : List Byte) : Option (List (Option Nat)) := do
  let s := unpackMsb bytes
  if s.length ≠ sbfBits d r then none
  else do
    let (mode, s) ← readBits 2 s
    let (q, s) ← readBits 4 s
    if mode = 3 then
      if q = 15 then if s.all (!·) then some (List.replicate 64 none) else none
      else if q ≠ sbfQT d r then none
      else do
        let (vs, s) ← readMany (sbfKT d r) 16 s
        if s.all (!·) then some ((truncRebuild d q vs).map some) else none
    else if d - 1 < q then none
    else do
      let k := d - q
      let (b0, s) ← readBits k s
      let (b1, s) ← if mode = 2 then readBits k s else some (b0, s)
      let (u, s) ← if mode = 0 then some (List.replicate 64 b0, s) else decodeRows k (mode = 2) b0 b1 4 0 [] s
      if s.all (!·) then some (u.map fun v => some (sbfRebuild d q v)) else none

/-- A FAULT (R240): the replica finds the block malformed or a reconstruction other than the encoder's. -/
def sbfFault (d r : Nat) (c : SbfCoded) : Bool := sbfDecode d r (c.bytes d r) ≠ some c.recon

/-! ### Planes (R239, R241) -/

/-- The block of columns [16i, 16i + 16) of four rows. -/
def blockOf (rows : List (List (Option Nat))) (i : Nat) : List (Option Nat) :=
  (List.range 4).flatMap fun y => (List.range 16).map fun x => (((rows.getD y []).getD (16 * i + x) none))

/-- A coded block row of a plane: bytes of its blocks, its summaries' words, its reconstruction by block. -/
structure SbfRow where
  bytes : List Byte
  summaries : List Nat
  recon : List (List (Option Nat))
  faults : Nat

/-- The summary of a group of blocks (Table 8-3). -/
def summaryOf (d r : Nat) (g : List SbfCoded) : Nat :=
  if g.any (sbfFault d r) then 0x8000 + 0x7FFF else min 0x7FFF ((g.map (·.err)).foldl max 0)

/-- Groups of 16 consecutive blocks. -/
def groupsOf {α : Type} : Nat → List α → List (List α)
  | 0, _ => []
  | fuel + 1, l => if l.isEmpty then [] else l.take 16 :: groupsOf fuel (l.drop 16)

/-- Four rows of a plane coded, n blocks wide. -/
def sbfBlockRow (d r n : Nat) (rows : List (List (Option Nat))) : SbfRow :=
  let cs := (List.range n).map fun i => sbfCode d r (blockOf rows i)
  { bytes := cs.flatMap fun c => c.bytes d r
    summaries := (groupsOf n cs).map (summaryOf d r)
    recon := cs.map (·.recon)
    faults := cs.countP (sbfFault d r) }

/-- Row y of a reconstructed block row. -/
def SbfRow.line (c : SbfRow) (y : Nat) : List (Option Nat) :=
  c.recon.flatMap fun blk => (blk.drop (16 * y)).take 16

end Sys2Proof.Machine
end

