-- ==== Sys2Proof/Machine/Codec.lean ====
section
/-! DEFINITION. Jobs of the inflate and deflate engines: submission, buffer chains and ends (R247 to R254). -/

namespace Sys2Proof.Machine

def Bar.modCod (b : Bar) (f : Codec → Codec) : Bar := { b with cod := f b.cod }

/-! ### Descriptors (R250, R251) -/

/-- A buffer descriptor that the engine refuses. -/
def bufferBad (d : List Byte) : Bool :=
  decide (leAt d 8 4 < 1024) || decide (16777216 < leAt d 8 4) || leAt d 0x1C 4 ≠ 0 || bits (leAt d 0x18 4) 31 2 ≠ 0

/-- The buffers of a chain: the descriptors from the one CHAIN names up to the first with NEXT = 0. -/
def chainOf : List (List Byte) → List JobBuffer
  | [] => []
  | d :: ds => ⟨leAt d 0 8, leAt d 8 4, 0, 0⟩ :: if leAt d 0x10 8 = 0 then [] else chainOf ds

/-- The job a descriptor asks for (R250): `input` is what stands at INPUT_ADDR, of which INPUT_LEN bytes are taken, and `chain`
the buffer descriptors CHAIN leads to, in order; CHAIN = 0 is the hub's SBF encoder. -/
def jobOf (owner : JobOwner) (desc input : List Byte) (chain : List (List Byte)) : Job :=
  let c := leAt desc 0 4
  let none_ := leAt desc 0x18 8 = 0
  { owner := owner, deflate := bit c 0, wrap := bit c 1, guaranteed := bit c 2
    input := input.take (leAt desc 0x10 8), declared := leAt desc 0x20 8, toSbf := none_ && !bit c 0
    chain := if none_ then [] else chainOf chain, status := .queued
    consumed := 0, produced := 0, error := 0, buffers := 0, check := 0, output := [] }

/-- A job enters its engine's queue; an idle deflate engine takes it at once. -/
def Bar.queueJob (b : Bar) (j : Job) : Bar :=
  b.modCod fun c =>
    if j.deflate then
      match c.deflateRun with
      | none => { c with deflateRun := some { j with status := .running } }
      | some _ => if j.guaranteed then { c with deflateG := c.deflateG ++ [j] } else { c with deflateB := c.deflateB ++ [j] }
    else { c with inflateQ := c.inflateQ ++ [if c.inflateQ.isEmpty then { j with status := .running } else j] }

/-- A BEST_EFFORT deflate job of more than 1 MiB (R248). -/
def Job.tooLong (j : Job) : Bool := j.deflate && !j.guaranteed && decide (1048576 < j.input.length)

/-- A submission with an invalid chain is refused: STATUS stays QUEUED, with ERROR set (R251). So is a BEST_EFFORT deflate job that
is too long, with the same code (DESIGN CHOICE, log 183: R248 bounds its input and names no answer). -/
def Bar.submitJob (b : Bar) (j : Job) (chain : List (List Byte)) : Bar :=
  if chain.any bufferBad || j.tooLong then b.modCod fun c => { c with lastJob := some { j with error := 0x704D } }
  else b.queueJob j

/-! ### Buffer chains (R249, R253, R254) -/

/-- What an engine writes at once: its bits, the input bytes it stands for, and whether the engine checks for room and gain
before it (R249, R253): a token, a block header or the trailer, but neither the zlib header nor a raw stream's last padding. -/
structure OutItem where
  bits : Nat
  input : Nat
  checked : Bool

/-- Buffers closed so far (in reverse), the open one with its bits, those to come. -/
structure Filling where
  closed : List JobBuffer
  buffer : JobBuffer
  bitsUsed : Nat
  rest : List JobBuffer

/-- The room check before an item: none where a change of buffer is due and there is no next one. -/
def Filling.room (f : Filling) (reserve : Nat) : Option Filling :=
  if f.buffer.size - f.bitsUsed / 8 < reserve then
    match f.rest with
    | [] => none
    | n :: rest => some ⟨{ f.buffer with used := f.bitsUsed / 8, flags := 1 } :: f.closed, n, f.bitsUsed % 8, rest⟩
  else some f

/-- The chain as it stands: END marks the buffer with the last output byte. -/
def Filling.chain (f : Filling) (done : Bool) : List JobBuffer :=
  ({ f.buffer with used := if done then ceilDiv f.bitsUsed 8 else f.bitsUsed / 8, flags := if done then 2 else 0 } :: f.closed).reverse ++ f.rest

/-- How writing ended: the chain, bits written, input bytes they stand for, items written, and the code that stopped it. -/
structure Written where
  fill : Filling
  bits : Nat
  input : Nat
  count : Nat
  stop : Nat

/-- Items written one after another, up to the first that the checks stop: NO_GAIN where the output would reach `gain` bytes,
CHAIN_EXHAUSTED where the chain ends. -/
def writeItems (reserve : Nat) (gain : Option Nat) : List OutItem → Written → Written
  | [], w => w
  | n :: ns, w =>
    let put (f : Filling) : Written :=
      { w with fill := { f with bitsUsed := f.bitsUsed + n.bits }, bits := w.bits + n.bits, input := w.input + n.input, count := w.count + 1 }
    if !n.checked then writeItems reserve gain ns (put w.fill)
    else if gain.any fun g => decide (g ≤ ceilDiv (w.bits + n.bits) 8) then { w with stop := 0x704C }
    else match w.fill.room reserve with
      | none => { w with stop := 0x704B }
      | some f => writeItems reserve gain ns (put f)

/-- Writing of items into a chain, from its first buffer on. A chain without a buffer has no room. -/
def writeChain (reserve : Nat) (gain : Option Nat) (chain : List JobBuffer) (items : List OutItem) : Written :=
  writeItems reserve gain items ⟨⟨[], chain.headD ⟨0, 0, 0, 0⟩, 0, chain.tail⟩, 0, 0, 0, 0⟩

def countBuffers (c : List JobBuffer) : Nat := c.countP fun x => x.used ≠ 0 || x.flags ≠ 0

/-- A job's chain as written, and how many of its buffers are. -/
def Job.withChain (j : Job) (c : List JobBuffer) : Job := { j with chain := if j.chain.isEmpty then [] else c, buffers := countBuffers c }

/-! ### Ends of jobs -/

/-- The inflate engine's end of a job (R245, R246, R254). A fault counts only if the tokens before it found room. -/
def endInflate (j : Job) : Job :=
  let r := inflate j.wrap j.input j.declared
  let j := { j with consumed := r.consumed, produced := r.output.length, output := r.output, check := adler32 r.output }
  let w := writeChain 258 none j.chain (r.tokens.map fun t => ⟨8 * t.1, 0, true⟩)
  if !j.toSbf && w.stop ≠ 0 then
    let kept := r.tokens.take w.count
    { j.withChain (w.fill.chain false) with
      status := .error, error := w.stop, output := [], produced := w.bits / 8, consumed := ceilDiv (kept.getLastD (0, 0)).2 8
      check := adler32 (r.output.take (w.bits / 8)) }
  else if r.error ≠ 0 then { (if j.toSbf then j else j.withChain (w.fill.chain false)) with status := .error, error := r.error }
  else { (if j.toSbf then j else j.withChain (w.fill.chain true)) with status := .done }

/-! ### The deflate engine (R248) -/

/-- What tokens decode to, if they are tokens RFC 1951 allows within 32 KiB. -/
def applyTokens : List (Nat × Nat) → Array Byte → Option (Array Byte)
  | [], out => some out
  | (len, x) :: ts, out =>
    if len = 0 then (if x < 256 then applyTokens ts (out.push (BitVec.ofNat 8 x)) else none)
    else if decide (len < 3) || decide (258 < len) || x = 0 || decide (min out.size 32768 < x) then none
    else applyTokens ts (copyBack x len out)

/-- The engine's tokens: a free choice that decodes to the input. -/
def deflateTokens (depth : Nat) (input : List Byte) : List (Nat × Nat) :=
  let ts := Config.deflateTokens depth input
  if (applyTokens ts #[]).map (·.toList) = some input then ts else input.map fun x => (0, x.toNat)

def tokenInput (t : Nat × Nat) : Nat := if t.1 = 0 then 1 else t.1

/-- A block ends once it stands for 64 KiB of input or holds 16,384 tokens. DESIGN CHOICE (log 132): a token that crosses
64 KiB belongs to the block it begins in. -/
def splitBlocks : List (Nat × Nat) → (block : List (Nat × Nat)) → (bytes count : Nat) → List (List (Nat × Nat))
  | [], block, _, _ => [block.reverse]
  | t :: ts, block, bytes, count =>
    let bytes := bytes + tokenInput t
    if !ts.isEmpty && (decide (65536 ≤ bytes) || decide (16384 ≤ count + 1)) then (t :: block).reverse :: splitBlocks ts [] 0 0
    else splitBlocks ts (t :: block) bytes (count + 1)

/-- The canonical code of a symbol, most significant bit first (RFC 1951, 3.2.2). -/
def canonCode (ls : List Nat) (sym : Nat) : List Bool :=
  let l := ls.getD sym 0
  let first := ((List.range l).map fun k => if k = 0 then 0 else lenCount ls k * 2 ^ (l - k)).sum
  msbBits l (first + (ls.take sym).countP (· = l))

/-- The low n bits of a value, least significant first. -/
def lsbBits (n v : Nat) : List Bool := (List.range n).map v.testBit

/-- The symbol of a length or distance, with its extra bits. -/
def codeFor (code : Nat → Nat × Nat) (symbols : List Nat) (v : Nat) : Nat × List Bool :=
  let s := (symbols.filter fun s => decide ((code s).1 ≤ v)).foldl max (symbols.headD 0)
  (s, lsbBits (code s).2 (v - (code s).1))

def tokenBits (lit dist : List Nat) (t : Nat × Nat) : List Bool :=
  if t.1 = 0 then canonCode lit t.2
  else
    let (s, e) := codeFor lengthCode ((List.range 29).map (257 + ·)) t.1
    let (d, f) := codeFor distCode (List.range 30) t.2
    canonCode lit s ++ e ++ canonCode dist d ++ f

/-- Do two codes hold every symbol of a block? -/
def codesHold (lit dist : List Nat) (ts : List (Nat × Nat)) : Bool :=
  lit.getD 256 0 ≠ 0 && ts.all fun t =>
    if t.1 = 0 then lit.getD t.2 0 ≠ 0
    else lit.getD (codeFor lengthCode ((List.range 29).map (257 + ·)) t.1).1 0 ≠ 0 && dist.getD (codeFor distCode (List.range 30) t.2).1 0 ≠ 0

/-- Bits packed into bytes, the first in bit 0. -/
def packLsb : Nat → List Bool → List Byte
  | 0, _ => []
  | n + 1, bs => BitVec.ofNat 8 (ofMsbBits ((bs ++ List.replicate 8 false).take 8).reverse) :: packLsb n (bs.drop 8)

/-- A block's bit strings with the input they stand for: header, tokens, end of block. -/
def blockWith (head : List Bool) (lit dist : List Nat) (ts : List (Nat × Nat)) : List (List Bool × Nat) :=
  [(head, 0)] ++ ts.map (fun t => (tokenBits lit dist t, tokenInput t)) ++ [(canonCode lit 256, 0)]

/-- A fixed or a dynamic block, whichever is shorter; the fixed one if they are equal, and where the engine's dynamic header is
none that decodes. -/
def blockItems (final : Bool) (ts : List (Nat × Nat)) : List (List Bool × Nat) :=
  let size (x : List (List Bool × Nat)) : Nat := (x.map (·.1.length)).sum
  let fixed := blockWith [final, true, false] fixedLit fixedDist ts
  let head := Config.dynamicHeader ts
  match Sys2Proof.Machine.dynamicHeader (packLsb (ceilDiv head.length 8) head).toArray 0 with
  | .ok (i, lit, dist) =>
    let dynamic := blockWith ([final, false, true] ++ head) lit dist ts
    if i = head.length && codesHold lit dist ts && decide (size dynamic < size fixed) then dynamic else fixed
  | .bad _ _ _ => fixed

/-- The deflate engine's bit strings for an input. -/
def deflateItems (depth : Nat) (input : List Byte) : List (List Bool × Nat) :=
  let blocks := splitBlocks (deflateTokens depth input) [] 0 0
  (List.range blocks.length).flatMap fun i => blockItems (decide (i + 1 = blocks.length)) (blocks.getD i [])

/-- The deflate engine's end of a job (R248, R249, R253, R254). -/
def endDeflate (depth : Nat) (j : Job) : Job :=
  let items := deflateItems depth j.input
  let body := (items.map (·.1.length)).sum
  let pad := (8 - body % 8) % 8
  let out := (if j.wrap then [(⟨16, 0, false⟩ : OutItem)] else []) ++ items.map (fun x => ⟨x.1.length, x.2, true⟩)
    ++ [if j.wrap then ⟨pad + 32, 0, true⟩ else ⟨pad, 0, false⟩]
  let w := writeChain 512 (some j.input.length) j.chain out
  if w.stop ≠ 0 then
    { j.withChain (w.fill.chain false) with
      status := if w.stop = 0x704C then .noGain else .error, error := w.stop, output := [], consumed := w.input, produced := w.bits / 8
      check := adler32 (j.input.take w.input) }
  else
    let bytes := packLsb (ceilDiv body 8) (items.flatMap (·.1))
    let stream := if j.wrap then [0x78, 0x9C] ++ bytes ++ beBytes 4 (adler32 j.input) else bytes
    { j.withChain (w.fill.chain true) with
      status := .done, output := stream, consumed := j.input.length, produced := stream.length, check := adler32 j.input }

/-- The inflate engine ends its job and takes the next one at once. -/
def Bar.inflateEnd (b : Bar) : Bar × Option Job :=
  match b.cod.inflateQ with
  | [] => (b, none)
  | j :: rest =>
    let e := endInflate j
    (b.modCod fun c =>
      { c with
        inflateQ := match rest with | [] => [] | k :: ks => { k with status := .running } :: ks
        lastJob := some e
        inflateDone := if e.status = .done then sat32 c.inflateDone else c.inflateDone
        inflateErrors := if e.status = .done then c.inflateErrors else sat32 c.inflateErrors
        lastError := if e.status = .done then c.lastError else e.error
        lastOffset := if e.status = .done then c.lastOffset else e.consumed
        exhausted := if e.error = 0x704B then sat32 c.exhausted else c.exhausted }, some e)

/-- The deflate engine ends its job; GUARANTEED jobs go first. -/
def Bar.deflateEnd (b : Bar) : Bar × Option Job :=
  match b.cod.deflateRun with
  | none => (b, none)
  | some j =>
    let e := endDeflate (b.rwN 0x2710 1) j
    let start (j : Job) : Job := { j with status := .running }
    (b.modCod fun c =>
      { c with
        deflateRun := match c.deflateG, c.deflateB with | k :: _, _ => some (start k) | [], k :: _ => some (start k) | [], [] => none
        deflateG := c.deflateG.drop 1
        deflateB := if c.deflateG.isEmpty then c.deflateB.drop 1 else c.deflateB
        lastJob := some e
        deflateDone := if e.status = .done then sat32 c.deflateDone else c.deflateDone
        noGain := if e.status = .noGain then sat32 c.noGain else c.noGain
        exhausted := if e.error = 0x704B then sat32 c.exhausted else c.exhausted }, some e)

/-- Faults found by a replica (R242). -/
def Bar.sbfFaults (b : Bar) (n : Nat) : Bar :=
  if n = 0 then b else (b.modCod fun c => { c with selfFaults := satAdd32 c.selfFaults n }).logEvent 0x7020 0

end Sys2Proof.Machine
end

