-- ==== Sys2Proof/Machine/Flags.lean ====
section
/-! DEFINITION. Flag words: the bits of REASONS and FLAGS of a verdict record (R193, R194), and masks built from
conditions. -/

namespace Sys2Proof.Machine

/-! ### Names of reasons and flags (Tables 6-8 and 6-9) -/

def rShortFrame : Nat := 0
def rLowCoverage : Nat := 1
def rOverspeed : Nat := 2
def rSyncLost : Nat := 3
def rPressStopped : Nat := 4
def rStuckCue : Nat := 5
def rAnnounceRefused : Nat := 6
def rSafetyNet : Nat := 7
def rVerdictLate : Nat := 8
def rNoReference : Nat := 9
def rRefUnavailable : Nat := 10
def rRefGeometry : Nat := 11
def rUncalibrated : Nat := 12
def rConfigExcluded : Nat := 13
def rInspectionOff : Nat := 14
def rSeamUncalibrated : Nat := 15
def rIlluminationLimited : Nat := 16
def rRefWidened : Nat := 17
def rNotLive : Nat := 18
def rCueMissed : Nat := 19

def fShortFrame : Nat := 0
def fLongFrame : Nat := 1
def fCueLate : Nat := 7

/-- x with bit i set. -/
def setBit (x i : Nat) : Nat := x ||| 2 ^ i

/-- The mask of the listed bits whose condition holds. -/
def maskOf (l : List (Nat × Bool)) : Nat := l.foldl (fun m p => if p.2 then setBit m p.1 else m) 0

end Sys2Proof.Machine
end

