-- ==== Sys2Proof/Machine/Carousel.lean ====
section
/-! DEFINITION. The Carousel I/O engines (chapter 12): the instruction set, pins, queues, events, and starting and
halting an engine. -/

namespace Sys2Proof.Machine

/-- Channel c of engine e as its source number, engine × 16 + channel. -/
def chanOf (e : Fin 4) (c : Fin 16) : Fin 64 := ⟨e.val * 16 + c.val, by omega⟩

/-- The engine of a source number. -/
def engineOf (k : Fin 64) : Fin 4 := ⟨k.val / 16, by omega⟩

/-- ALU operations of Table 12-2. -/
inductive AluOp where
  | mov | add | sub | and | or | xor | shl | shr | cmp | tst
  deriving DecidableEq, Repr

/-- A second operand of the ALU: a register or a 5-bit immediate. -/
inductive AluArg where
  | reg (r : Fin 4)
  | imm (v : Nat)
  deriving DecidableEq, Repr

/-- A decoded Carousel instruction (Tables 12-2 to 12-5). -/
inductive CInstr where
  | jmp (cond : Nat) (target : Nat)
  | wait (kind : Nat) (arg : Nat)
  | set (action : PinAction) (timed : Bool) (r : Fin 4) (pin : Fin 64)
  | ldi (r : Fin 4) (imm : Nat)
  | ldh (r : Fin 4) (imm : Nat)
  | alu (op : AluOp) (d : Fin 4) (arg : AluArg)
  | get (src : Nat) (r : Fin 4) (arg : Nat)
  | send (r : Fin 4) (oldest : Bool)
  | fetch (r : Fin 4) (peek : Bool)
  | shift (isIn msb timed : Bool) (r : Fin 4) (pin : Fin 64)
  | putSh (r : Fin 4)
  | putBc (r : Fin 4)
  | evt (kind : EventKind) (atNow : Bool)
  | nop
  | halt
  | clrsh
  | log
  deriving DecidableEq, Repr

/-- Register number in a 2-bit field. -/
def regAt (w lo : Nat) : Fin 4 := ⟨w / 2 ^ lo % 4, by omega⟩

/-- Pin number in bits [5:0]. -/
def pinAt (w : Nat) : Fin 64 := ⟨w % 64, by omega⟩

def decodeAluOp : Nat → Option AluOp
  | 0 => some .mov | 1 => some .add | 2 => some .sub | 3 => some .and | 4 => some .or | 5 => some .xor
  | 6 => some .shl | 7 => some .shr | 8 => some .cmp | 9 => some .tst | _ => none

/-- A legal WAIT (Table 12-3): kind and operand with its reserved bits zero. -/
def waitLegal (kind arg : Nat) : Bool :=
  if kind ≤ 4 then decide (arg < 64)
  else if kind ≤ 6 then decide (arg < 32)
  else if kind ≤ 9 then decide (arg < 4)
  else if kind = 10 then arg = 0
  else if kind = 11 then decide (arg < 16)
  else false

/-- A legal GET (Table 12-5). -/
def getLegal (src arg : Nat) : Bool :=
  if src = 8 || src = 9 then decide (arg < 16) && arg % 2 = 0
  else if src = 12 then decide (arg < 8)
  else decide (src ≤ 13) && arg = 0

/-- The instruction a word encodes; none for an illegal opcode, a reserved field that is not 0, or a reserved
code (R361). -/
def decodeCarousel (word : Word16) : Option CInstr :=
  let w := word.toNat
  match w / 4096 with
  | 0 => if bits w 11 8 ≤ 11 then some (.jmp (bits w 11 8) (bits w 7 0)) else none
  | 1 => if waitLegal (bits w 11 8) (bits w 7 0) then some (.wait (bits w 11 8) (bits w 7 0)) else none
  | 2 =>
    if bit w 8 then none
    else some (.set (match bits w 11 10 with | 0 => .low | 1 => .high | 2 => .toggle | _ => .release)
      (bit w 9) (regAt w 6) (pinAt w))
  | 3 => if bits w 9 8 = 0 then some (.ldi (regAt w 10) (bits w 7 0)) else none
  | 4 => if bits w 9 8 = 0 then some (.ldh (regAt w 10) (bits w 7 0)) else none
  | 5 =>
    match decodeAluOp (bits w 11 8) with
    | none => none
    | some op =>
      if bit w 5 then some (.alu op (regAt w 6) (.imm (bits w 4 0)))
      else if bits w 4 2 = 0 then some (.alu op (regAt w 6) (.reg (regAt w 0)))
      else none
  | 6 => if getLegal (bits w 11 8) (bits w 5 0) then some (.get (bits w 11 8) (regAt w 6) (bits w 5 0)) else none
  | 7 => if bits w 8 0 = 0 then some (.send (regAt w 10) (bit w 9)) else none
  | 8 => if bits w 8 0 = 0 then some (.fetch (regAt w 10) (bit w 9)) else none
  | 9 => if bit w 8 then none else some (.shift (bit w 11) (bit w 10) (bit w 9) (regAt w 6) (pinAt w))
  | 10 =>
    if bits w 5 0 ≠ 0 then none
    else match bits w 11 8 with
      | 0 => some (.putSh (regAt w 6))
      | 1 => some (.putBc (regAt w 6))
      | _ => none
  | 11 =>
    if bits w 8 0 ≠ 0 then none
    else match bits w 11 10 with
      | 0 => some (.evt .leading (bit w 9))
      | 1 => some (.evt .trailing (bit w 9))
      | 2 => some (.evt .pulse (bit w 9))
      | _ => none
  | 12 =>
    if bits w 7 0 ≠ 0 then none
    else match bits w 11 8 with
      | 0 => some .nop
      | 1 => some .halt
      | 2 => some .clrsh
      | 3 => some .log
      | _ => none
  | _ => none

/-- Code of an ALU operation. -/
def AluOp.code : AluOp → Nat
  | .mov => 0 | .add => 1 | .sub => 2 | .and => 3 | .or => 4 | .xor => 5 | .shl => 6 | .shr => 7 | .cmp => 8 | .tst => 9

/-- Code of a SET action. -/
def PinAction.code : PinAction → Nat
  | .low => 0 | .high => 1 | .toggle => 2 | .release => 3

/-- The fields of an instruction lie in their ranges (Tables 12-2 to 12-5). -/
def CInstr.wf : CInstr → Bool
  | .jmp cond target => decide (cond ≤ 11) && decide (target < 256)
  | .wait kind arg => waitLegal kind arg
  | .ldi _ imm => decide (imm < 256)
  | .ldh _ imm => decide (imm < 256)
  | .alu _ _ (.imm v) => decide (v < 32)
  | .get src _ arg => getLegal src arg
  | .alu _ _ (.reg _) | .set _ _ _ _ | .send _ _ | .fetch _ _ | .shift _ _ _ _ _ | .putSh _ | .putBc _ | .evt _ _ | .nop | .halt
  | .clrsh | .log => true

/-- The word of an instruction (Table 12-2), as a number. -/
def CInstr.code : CInstr → Nat
  | .jmp cond target => cond * 256 + target
  | .wait kind arg => 0x1000 + kind * 256 + arg
  | .set a timed r pin => 0x2000 + a.code * 1024 + b2n timed * 512 + r.val * 64 + pin.val
  | .ldi r imm => 0x3000 + r.val * 1024 + imm
  | .ldh r imm => 0x4000 + r.val * 1024 + imm
  | .alu op d (.reg s) => 0x5000 + op.code * 256 + d.val * 64 + s.val
  | .alu op d (.imm v) => 0x5000 + op.code * 256 + d.val * 64 + 32 + v
  | .get src r arg => 0x6000 + src * 256 + r.val * 64 + arg
  | .send r oldest => 0x7000 + r.val * 1024 + b2n oldest * 512
  | .fetch r peek => 0x8000 + r.val * 1024 + b2n peek * 512
  | .shift isIn msb timed r pin => 0x9000 + b2n isIn * 2048 + b2n msb * 1024 + b2n timed * 512 + r.val * 64 + pin.val
  | .putSh r => 0xA000 + r.val * 64
  | .putBc r => 0xA100 + r.val * 64
  | .evt .leading atNow => 0xB000 + b2n atNow * 512
  | .evt .trailing atNow => 0xB400 + b2n atNow * 512
  | .evt .pulse atNow => 0xB800 + b2n atNow * 512
  | .nop => 0xC000
  | .halt => 0xC100
  | .clrsh => 0xC200
  | .log => 0xC300

def encodeCarousel (i : CInstr) : Word16 := BitVec.ofNat 16 i.code

/-! ### Access to channels, engines and pins -/

def Bar.chan (b : Bar) (k : Fin 64) : ChannelState := b.io.chans[k]
def Bar.engine (b : Bar) (e : Fin 4) : Engine := b.io.engines[e]
def Bar.modChan (b : Bar) (k : Fin 64) (f : ChannelState → ChannelState) : Bar :=
  { b with io := { b.io with chans := vmod b.io.chans k f } }
def Bar.modEngine (b : Bar) (e : Fin 4) (f : Engine → Engine) : Bar :=
  { b with io := { b.io with engines := vmod b.io.engines e f } }
def Bar.modPin (b : Bar) (i : Fin 64) (f : Pin → Pin) : Bar :=
  { b with io := { b.io with pins := vmod b.io.pins i f } }

/-- The configuration word of a pin (Table 12-6). -/
def Bar.pinCfg (b : Bar) (i : Fin 64) : Nat :=
  match b.par.rw.find (objKey 0x2A50 (i.val + 1)) with
  | some (.num n) => n.toNat
  | _ => 0
def Bar.pinMode (b : Bar) (i : Fin 64) : Nat := bits (b.pinCfg i) 1 0
def Bar.pinHaltLevel (b : Bar) (i : Fin 64) : Nat := bits (b.pinCfg i) 3 2
def Bar.pinInvert (b : Bar) (i : Fin 64) : Bool := bit (b.pinCfg i) 4
def Bar.pinOwner (b : Bar) (i : Fin 64) : Nat := bits (b.pinCfg i) 13 8

/-- The bank of a pin (R365). -/
def bankOf (i : Fin 64) : Fin 8 := ⟨i.val / 8, by omega⟩

/-- Is the pin's bank held as inputs after a voltage change (R365)? -/
def Bar.pinHeld (b : Bar) (i : Fin 64) : Bool := (b.io.bankHold[bankOf i]).isSome

/-- The pin is an output now. -/
def Bar.pinIsOutput (b : Bar) (i : Fin 64) : Bool := (b.pinMode i = 1 || b.pinMode i = 2) && !b.pinHeld i

/-- A timer output names the pin (R383). -/
def Bar.timerPin (b : Bar) (i : Nat) : Bool :=
  (List.range 16).any fun j => b.rwN (0x2B10 + j) 4 = i || b.rwN (0x2B10 + j) 5 = i

/-- The channel may drive the pin: it owns it, the pin is an output, and no timer names it (R365, R383). -/
def Bar.ownsPin (b : Bar) (k i : Fin 64) : Bool := b.pinIsOutput i && b.pinOwner i = k.val && !b.timerPin i.val

/-- The physical level of a pin: what the bar drives, or the level sampled from outside. -/
def Bar.pinPhys (b : Bar) (i : Fin 64) : Bool :=
  let p := b.io.pins[i]
  if b.pinIsOutput i then
    match p.drive with
    | .low => false
    | .high => true
    | .released => p.level
  else p.level

/-- The level that waits, JMP and GET see (Table 12-6: INVERT). -/
def Bar.pinSeen (b : Bar) (i : Fin 64) : Bool := b.pinPhys i ^^ b.pinInvert i

/-- Depth of a channel's queues: 4 words, 16 when it joins its group's, 0 when another took them (R369). -/
def Bar.queueDepth (b : Bar) (k : Fin 64) : Nat :=
  if bit (b.rwN (0x2A00 + k.val / 16) 4) (k.val % 16 / 4) then (if k.val % 4 = 0 then 16 else 0) else 4

/-- The word a channel fetches. -/
def Bar.fetched (b : Bar) (k : Fin 64) : Word16 := (b.engine (engineOf k)).program[(b.chan k).pc % 256]!

/-- A time or position compare of kinds 7 to 9: the signed 32-bit difference is not negative (R362). -/
def reached (value : Nat) (target : Word32) : Bool := !(BitVec.ofNat 32 value - target).msb

/-! ### Engine steps (R358, R376) -/

/-- Length of an engine step: 2 ns, one holdover increment of 40 ns off the PLL. -/
def Bar.stepNs (b : Bar) : Nat := if b.cap.tb.mode = .pll then 2 else 40

/-- Steps an engine has made since its start, and when the present one began. -/
def Bar.stepNo (b : Bar) (e : Fin 4) : Nat := (b.now - (b.engine e).turnFrom) / b.stepNs
def Bar.stepFrom (b : Bar) (e : Fin 4) : Nat := (b.engine e).turnFrom + b.stepNo e * b.stepNs

/-- The step of an engine in which the timebase value te lies began here. -/
def Bar.stepOf (b : Bar) (e : Fin 4) (te : Nat) : Nat :=
  (b.engine e).turnFrom + (te - (b.engine e).turnFrom) / b.stepNs * b.stepNs

/-- The counter's value at a moment up to now: off the PLL it moves by 40 at a time, so that edges and samples fall on the 40 ns
grid (R376). -/
def Bar.counterThen (b : Bar) (te : Nat) : Nat :=
  if b.cap.tb.mode = .pll then min te b.now else b.now - (b.now - te + 39) / 40 * 40

/-! ### Wait conditions, evaluated at every engine step (R362, R363) -/

/-- What an engine step brings that a WAIT may be for: an edge of a pin with its timestamp, a line trigger, a compare A
match. Conditions that stand are evaluated at every step. -/
inductive StepEvent where
  | none
  | edge (pin : Fin 64) (rising : Bool) (time : Nat)
  | line (time : Nat)
  | tmrMatch (tmr : Nat) (time : Nat)
  deriving DecidableEq, Repr

/-- An edge of pin i as programs see it, sampled once the WAIT has begun: its timestamp. -/
def Bar.edgeSeen (b : Bar) (i : Fin 64) (since : Nat) (rising falling : Bool) : StepEvent → Option Nat
  | .edge j up te => if j = i && decide (since ≤ te) && (if up ^^ b.pinInvert i then rising else falling) then some te else none
  | _ => none

/-- Does the condition of a WAIT hold at this step (Table 12-3)? If so, the time it loads into TS; kinds 5 to 9 load none,
and 0 stands for that. A level wait takes the time of the edge that made the level. -/
def Bar.waitMet (b : Bar) (k : Fin 64) (kind arg since : Nat) (ev : StepEvent) : Option Nat :=
  let c := b.chan k
  let pin := pinAt arg
  let when (holds : Bool) (ts : Nat) : Option Nat := if holds then some ts else none
  match kind with
  | 0 => b.edgeSeen pin since true false ev
  | 1 => b.edgeSeen pin since false true ev
  | 2 => b.edgeSeen pin since true true ev
  | 3 => when (b.pinSeen pin) b.io.pins[pin].edgeTime
  | 4 => when (!b.pinSeen pin) b.io.pins[pin].edgeTime
  | 5 => when (decide (arg ≤ c.cq.length)) 0
  | 6 => when (decide (c.rq.length + arg ≤ b.queueDepth k)) 0
  | 7 => when (reached b.now c.g[regAt arg 0]) 0
  | 8 => when (reached b.io.pos[0].toNat c.g[regAt arg 0]) 0
  | 9 => when (reached b.io.pos[1].toNat c.g[regAt arg 0]) 0
  | 10 => match ev with | .line t => when (decide (since ≤ t)) t | _ => none
  | _ => match ev with | .tmrMatch i t => when (decide (i = arg) && decide (since ≤ t)) t | _ => none

/-- The first step at which a pending WAIT's condition holds is recorded. -/
def Bar.noteWait (b : Bar) (ev : StepEvent) (k : Fin 64) : Bar :=
  match (b.chan k).busy with
  | .waiting since none => match decodeCarousel (b.fetched k) with
    | some (.wait kind arg) => match b.waitMet k kind arg since ev with
      | some ts => b.modChan k fun c => { c with busy := .waiting since (some ts) }
      | none => b
    | _ => b
  | _ => b

/-- A step of every channel's condition. -/
def Bar.noteWaits (b : Bar) (ev : StepEvent) : Bar := (List.finRange 64).foldl (fun b k => b.noteWait ev k) b

/-- An input SHIFT with AT samples at the first step that reaches Gx (R368): when its pin changes in a later step, at te, the
sample was the level before. -/
def Bar.noteShift (b : Bar) (i : Fin 64) (te : Nat) (k : Fin 64) : Bar :=
  match (b.chan k).busy with
  | .waiting since none => match decodeCarousel (b.fetched k) with
    | some (.shift true _ true r j) =>
      let target := (b.chan k).g[r]
      if j = i && reached (b.stepOf (engineOf k) te - b.stepNs) target then
        b.modChan k fun c => { c with busy := .waiting since (some (b2n (b.pinSeen i))) }
      else b
    | _ => b
  | _ => b

/-- A pin changes at te: its edge leaves its timestamp, if its level differs, and meets the waits for it. -/
def Bar.changePin (b : Bar) (i : Fin 64) (te : Nat) (f : Pin → Pin) : Bar :=
  let old := b.pinPhys i
  let after := b.modPin i f
  if after.pinPhys i = old then after
  else
    let b := (List.finRange 64).foldl (fun b k => b.noteShift i te k) b
    (b.modPin i fun p => { f p with edgeTime := te }).noteWaits (.edge i (!old) te)

/-- A change of the pins' settings: every pin whose level it changes has its edge now. -/
def Bar.resample (b : Bar) (f : Bar → Bar) : Bar :=
  let changed := (List.finRange 64).filter fun i => (f b).pinPhys i ≠ b.pinPhys i
  let before := changed.foldl (fun x i => (List.finRange 64).foldl (fun x k => x.noteShift i b.now k) x) b
  changed.foldl (fun x i => (x.modPin i fun p => { p with edgeTime := b.now }).noteWaits (.edge i (!b.pinPhys i) b.now)) (f before)

/-- The pin stage samples the level of one pin (R366). -/
def samplePin (lv : BitVec 64) (te : Nat) (b : Bar) (i : Fin 64) : Bar :=
  if b.io.pins[i].level = lv.getLsbD i.val then b else b.changePin i te fun p => { p with level := lv.getLsbD i.val }

/-- The pin stage samples every pin (R366). -/
def Bar.samplePins (b : Bar) (lv : BitVec 64) (te : Nat) : Bar :=
  (List.finRange 64).foldl (samplePin lv te) b

/-- Physical drive for a physical level, by the pin's mode: an open-drain output is off when high. -/
def Bar.driveFor (b : Bar) (i : Fin 64) (level : Bool) : Drive :=
  if level then (if b.pinMode i = 2 then .released else .high) else .low

/-- A pin's drive set at te, with the edge it makes. -/
def Bar.drivePinAt (b : Bar) (i : Fin 64) (d : Drive) (te : Nat) : Bar := b.changePin i te fun p => { p with drive := d }

/-- A pin's drive set now. -/
def Bar.drivePin (b : Bar) (i : Fin 64) (d : Drive) : Bar := b.drivePinAt i d b.now

/-- A pin takes the level a SET action or shifted bit names; INVERT inverts the level driven (Table 12-6). -/
def Bar.actPin (b : Bar) (i : Fin 64) (a : PinAction) : Bar :=
  match a with
  | .low => b.drivePin i (b.driveFor i (false ^^ b.pinInvert i))
  | .high => b.drivePin i (b.driveFor i (true ^^ b.pinInvert i))
  | .toggle =>
    let level := match b.io.pins[i].drive with
      | .low => false
      | .high => true
      | .released => if b.pinMode i = 2 then true else b.io.pins[i].level
    b.drivePin i (b.driveFor i (!level))
  | .release => b.drivePin i .released

/-- A pin takes its HALT_LEVEL (Table 12-6): hold, low, high or released. -/
def Bar.haltPin (b : Bar) (i : Fin 64) : Bar :=
  match b.pinHaltLevel i with
  | 1 => b.drivePin i .low
  | 2 => b.drivePin i (b.driveFor i true)
  | 3 => b.drivePin i .released
  | _ => b

/-- The compares that a channel armed are cancelled, and the output pins it owns take their HALT_LEVEL (R373). -/
def Bar.haltPinsOf (b : Bar) (k : Fin 64) : Bar :=
  (List.finRange 64).foldl (fun b i =>
    let b := b.modPin i fun p => { p with compare := p.compare.filter fun c => c.owner ≠ k }
    if b.pinOwner i = k.val && !b.timerPin i.val && (b.pinMode i = 1 || b.pinMode i = 2) then b.haltPin i else b) b

/-- A channel halts: it abandons a wait or stall, keeps PC, SH, BC and its queues, and drops an event not handed on
(R373). -/
def haltedChannel (c : ChannelState) : ChannelState := { c with active := false, busy := .ready, event := none }

def Bar.haltChannel (b : Bar) (k : Fin 64) : Bar := (b.modChan k haltedChannel).haltPinsOf k

/-- The code of a fault in a channel status word (Table 12-11). -/
def ChFault.code : ChFault → Nat
  | .none => 0 | .illegalOp => 1 | .pinNotOwned => 2 | .joinedQueue => 3 | .haltInstr => 4

/-- A channel faults: it halts alone and the fault is logged with PC (R373). -/
def Bar.faultChannel (b : Bar) (k : Fin 64) (f : ChFault) : Bar :=
  let pc := (b.chan k).pc
  let b := b.modChan k fun c => { c with fault := f }
  let b := b.modEngine (engineOf k) fun e => { e with faults := sat32 e.faults }
  let b := b.logEvent 0xA020 (k.val * 2 ^ 56 + f.code * 256 + pc)
  b.haltChannel k

/-- The channel goes on with the next instruction. -/
def ChannelState.next (c : ChannelState) : ChannelState := { c with pc := (c.pc + 1) % 256, busy := .ready }

/-- A register written. -/
def ChannelState.setG (c : ChannelState) (r : Fin 4) (v : Word32) : ChannelState := { c with g := vmod c.g r fun _ => v }

/-- Z and N from a value. -/
def ChannelState.flags (c : ChannelState) (v : Word32) : ChannelState := { c with z := v = 0, n := v.msb }

/-- The instruction stalls at its address. -/
def ChannelState.stall (c : ChannelState) (now : Nat) : ChannelState :=
  match c.busy with
  | .ready => { c with busy := .waiting now }
  | .waiting _ _ => c

/-! ### The instructions -/

/-- Does a jump condition hold (Table 12-4), LOOP apart? -/
def Bar.jumpHolds (b : Bar) (k : Fin 64) (cond : Nat) : Bool :=
  let c := b.chan k
  let home := b.pinSeen (pinAt (b.rwN (0x2A10 + k.val) 2))
  match cond with
  | 0 => true
  | 1 => c.z
  | 2 => !c.z
  | 3 => c.n
  | 4 => !c.n
  | 5 => home
  | 6 => !home
  | 7 => c.cq.isEmpty
  | 8 => !c.cq.isEmpty
  | 9 => c.bc = 0
  | 10 => c.bc ≠ 0
  | _ => c.g[3] - 1 ≠ 0

/-- JMP: LOOP decrements G3 without touching the flags. -/
def Bar.chJmp (b : Bar) (k : Fin 64) (cond target : Nat) : Bar :=
  let holds := b.jumpHolds k cond
  b.modChan k fun c =>
    let c := if cond = 11 then c.setG 3 (c.g[3] - 1) else c
    if holds then { c with pc := target, busy := .ready } else c.next

/-- A WAIT whose condition has held completes: kinds 0 to 4, 10 and 11 load TS (Table 12-3). -/
def Bar.chWaitComplete (b : Bar) (k : Fin 64) (kind : Nat) (met : Option Nat) : Bar :=
  match met with
  | some ts => b.modChan k fun c => (if kind ≤ 4 || 10 ≤ kind then { c with ts := ts } else c).next
  | none => b

/-- What a WAIT meets in its own step: an edge that its pin has been sampled with in it (R363). -/
def Bar.ownStep (b : Bar) (k : Fin 64) (kind arg : Nat) : StepEvent :=
  let i := pinAt arg
  let te := b.io.pins[i].edgeTime
  if kind ≤ 2 && decide (0 < te) && decide (b.stepFrom (engineOf k) ≤ te) then .edge i (b.pinPhys i) te else .none

/-- WAIT starts waiting, and completes at once if its condition holds in this step, which is the first turn at or after it (R362);
the queue kinds fault on a channel without queues or an impossible count (R369). -/
def Bar.chWait (b : Bar) (k : Fin 64) (kind arg : Nat) : Bar :=
  if (kind = 5 || kind = 6) && b.queueDepth k = 0 then b.faultChannel k .joinedQueue
  else if (kind = 5 || kind = 6) && (arg = 0 || b.queueDepth k < arg) then b.faultChannel k .illegalOp
  else
    let b := (b.modChan k fun c => c.stall (b.stepFrom (engineOf k))).noteWait (b.ownStep k kind arg) k
    match (b.chan k).busy with
    | .waiting _ met => b.chWaitComplete k kind met
    | .ready => b

/-- The low half of a 64-bit source read, or its high half by the shadow rule of R364: the value, and the shadow
after the read. -/
def shadowRead (high : Bool) (value : Nat) (shadow : Option Word32) : Word32 × Option Word32 :=
  if high then (shadow.getD (BitVec.ofNat 32 (value / 2 ^ 32)), none)
  else (BitVec.ofNat 32 value, some (BitVec.ofNat 32 (value / 2 ^ 32)))

/-- The 64-bit count of pair j: the even unit's record while linked, else the two units' counts. -/
def Bar.pairCount (b : Bar) (j : Fin 8) : Nat :=
  let lo := b.io.timers[2 * j.val]
  let hi := b.io.timers[2 * j.val + 1]
  if bit (b.rwN (0x2B10 + 2 * j.val) 1) 2 then lo.count else lo.count % 2 ^ 32 + 2 ^ 32 * (hi.count % 2 ^ 32)

/-- The levels of a pin bank, pin 8b + i in bit i. -/
def Bar.bankLevels (b : Bar) (bank : Nat) : Nat :=
  ((List.range 8).map fun i => b2n (b.pinSeen (pinAt (8 * bank + i))) * 2 ^ i).sum

/-- GET (Table 12-5). -/
def Bar.chGet (b : Bar) (k : Fin 64) (src : Nat) (r : Fin 4) (arg : Nat) : Bar :=
  let c := b.chan k
  let done (v : Word32) (sh : Shadows) : Bar := b.modChan k fun c => (({ c with shadows := sh }.setG r v).flags v).next
  let high := src % 2 = 1
  match src with
  | 0 | 1 => done (BitVec.ofNat 32 (if high then c.ts / 2 ^ 32 else c.ts)) c.shadows
  | 2 | 3 =>
    let (v, s) := shadowRead high b.now c.shadows.timebase
    done v { c.shadows with timebase := s }
  | 4 | 5 =>
    let (v, s) := shadowRead high b.io.pos[0].toNat c.shadows.pos0
    done v { c.shadows with pos0 := s }
  | 6 | 7 =>
    let (v, s) := shadowRead high b.io.pos[1].toNat c.shadows.pos1
    done v { c.shadows with pos1 := s }
  | 8 | 9 =>
    let j : Fin 8 := ⟨arg / 2 % 8, by omega⟩
    let (v, s) := shadowRead high (b.pairCount j) c.shadows.pairs[j]
    done v { c.shadows with pairs := vmod c.shadows.pairs j fun _ => s }
  | 10 => done c.sh c.shadows
  | 11 => done (BitVec.ofNat 32 c.bc) c.shadows
  | 12 => done (BitVec.ofNat 32 (b.bankLevels arg)) c.shadows
  | _ => done (BitVec.ofNat 32 b.liveLine) c.shadows

/-- The ALU's result. -/
def aluResult (op : AluOp) (d s : Word32) : Word32 :=
  match op with
  | .mov => s
  | .add => d + s
  | .sub | .cmp => d - s
  | .and | .tst => d &&& s
  | .or => d ||| s
  | .xor => d ^^^ s
  | .shl => d <<< (s.toNat % 32)
  | .shr => d >>> (s.toNat % 32)

/-- Does the operation store its result? -/
def AluOp.stores : AluOp → Bool
  | .cmp | .tst => false
  | _ => true

def Bar.chAlu (b : Bar) (k : Fin 64) (op : AluOp) (d : Fin 4) (arg : AluArg) : Bar :=
  b.modChan k fun c =>
    let s := match arg with | .reg r => c.g[r] | .imm v => BitVec.ofNat 32 v
    let v := aluResult op c.g[d] s
    ((if op.stores then c.setG d v else c).flags v).next

/-- SEND (Table 12-2): a full queue drops the new or the oldest word and sets RQ_OVF. -/
def Bar.chSend (b : Bar) (k : Fin 64) (r : Fin 4) (oldest : Bool) : Bar :=
  let c := b.chan k
  if b.queueDepth k = 0 then b.faultChannel k .joinedQueue
  else if c.rq.length < b.queueDepth k then b.modChan k fun c => { c with rq := c.rq ++ [c.g[r]] }.next
  else
    let b := b.logLimited 0xA023 k.val 0 1000000000
    b.modChan k fun c =>
      { c with rqOvf := true, rq := if oldest then c.rq.drop 1 ++ [c.g[r]] else c.rq }.next

/-- FETCH (Table 12-2). -/
def Bar.chFetch (b : Bar) (k : Fin 64) (r : Fin 4) (peek : Bool) : Bar :=
  if b.queueDepth k = 0 then b.faultChannel k .joinedQueue
  else b.modChan k fun c =>
    match c.cq with
    | [] => { c with e := true }.next
    | w :: rest => ({ c with e := false, cq := if peek then c.cq else rest }.setG r w |>.flags w).next

/-- The pin's compare armed with a target (R367): late when it has passed, which is logged. The instruction stalls
while the compare is still armed. -/
def Bar.armPin (b : Bar) (k i : Fin 64) (target : Word32) (a : PinAction) (after : ChannelState → ChannelState) : Bar :=
  match b.io.pins[i].compare with
  | some _ => b.modChan k fun c => c.stall b.now
  | none =>
    let late := reached b.now target && BitVec.ofNat 32 b.now ≠ target
    let b := b.modPin i fun p => { p with compare := some ⟨target, a, late, k, b.stepFrom (engineOf k)⟩ }
    let b := if late then
        (b.logLimited 0xA022 k.val (k.val * 2 ^ 56 + i.val) 1000000000).modChan k
          fun c => { c with outLate := true, lateCount := sat32 c.lateCount }
      else b
    b.modChan k fun c => (after c).next

/-- SET (R367). -/
def Bar.chSet (b : Bar) (k : Fin 64) (a : PinAction) (timed : Bool) (r : Fin 4) (i : Fin 64) : Bar :=
  if !b.ownsPin k i then b.faultChannel k .pinNotOwned
  else if timed then b.armPin k i (b.chan k).g[r] a id
  else (b.actPin i a).modChan k ChannelState.next

/-- SH and BC after an output SHIFT. -/
def shiftedOut (msb : Bool) (c : ChannelState) : ChannelState :=
  { c with sh := if msb then c.sh <<< 1 else c.sh >>> 1, bc := c.bc - 1 }

/-- SH and BC after an input SHIFT of a bit. -/
def shiftedIn (msb v : Bool) (c : ChannelState) : ChannelState :=
  { c with
    sh := if msb then (c.sh <<< 1) ||| BitVec.ofNat 32 (b2n v) else (c.sh >>> 1) ||| BitVec.ofNat 32 (b2n v * 2 ^ 31)
    bc := if c.bc < 255 then c.bc + 1 else 255 }

/-- SHIFT (R368). -/
def Bar.chShift (b : Bar) (k : Fin 64) (isIn msb timed : Bool) (r : Fin 4) (i : Fin 64) : Bar :=
  let c := b.chan k
  if isIn then
    if timed && !reached b.now c.g[r] then b.modChan k fun c => c.stall b.now
    else
      let v := match c.busy with | .waiting _ (some level) => level = 1 | _ => b.pinSeen i
      b.modChan k fun c => (shiftedIn msb v c).next
  else if !b.ownsPin k i then b.faultChannel k .pinNotOwned
  else
    let a : PinAction := if (if msb then c.sh.msb else c.sh.getLsbD 0) then .high else .low
    if timed then b.armPin k i c.g[r] a (shiftedOut msb)
    else (b.actPin i a).modChan k fun c => (shiftedOut msb c).next

/-- EVT posts an event, or stalls until the previous one has been handed on (R370). -/
def Bar.chEvt (b : Bar) (k : Fin 64) (kind : EventKind) (atNow : Bool) : Bar :=
  b.modChan k fun c =>
    match c.event with
    | some _ => c.stall b.now
    | none =>
      { c with
        event := some ⟨if atNow then b.now else c.ts, kind, c.evCount⟩
        evCount := (c.evCount + 1) % 65536
        evPosted := sat32 c.evPosted }.next

/-- CTL HALT halts the channel alone (R373), with FAULT 4. -/
def Bar.chHalt (b : Bar) (k : Fin 64) : Bar :=
  (b.modChan k fun c => { c with fault := .haltInstr }).haltChannel k

/-- One instruction of a channel in its step. -/
def Bar.chExec (b : Bar) (k : Fin 64) (i : CInstr) : Bar :=
  match i with
  | .jmp cond target => b.chJmp k cond target
  | .wait kind arg => b.chWait k kind arg
  | .set a timed r pin => b.chSet k a timed r pin
  | .ldi r imm => b.modChan k fun c => (c.setG r (BitVec.ofNat 32 imm)).next
  | .ldh r imm => b.modChan k fun c => (c.setG r ((c.g[r] <<< 8) ||| BitVec.ofNat 32 imm)).next
  | .alu op d arg => b.chAlu k op d arg
  | .get src r arg => b.chGet k src r arg
  | .send r oldest => b.chSend k r oldest
  | .fetch r peek => b.chFetch k r peek
  | .shift isIn msb timed r pin => b.chShift k isIn msb timed r pin
  | .putSh r => b.modChan k fun c => { c with sh := c.g[r] }.next
  | .putBc r => b.modChan k fun c => { c with bc := (c.g[r]).toNat % 256 }.next
  | .evt kind atNow => b.chEvt k kind atNow
  | .nop => b.modChan k ChannelState.next
  | .halt => b.chHalt k
  | .clrsh => b.modChan k fun c => { c with sh := 0, bc := 0 }.next
  | .log => (b.logEvent 0xA024 (k.val * 2 ^ 56 + ((b.chan k).g[0]).toNat)).modChan k ChannelState.next

/-! ### Turns (R358, R376) -/

/-- The enabled channels of an engine, ascending. -/
def Bar.enabled (b : Bar) (e : Fin 4) : List Nat := (List.range 16).filter fun c => bit (b.rwN (0x2A00 + e.val) 5) c

/-- This step is the channel's: the engine serves its enabled channels in ascending order, one step each. -/
def Bar.onTurn (b : Bar) (k : Fin 64) : Bool :=
  let e := engineOf k
  let cs := b.enabled e
  decide ((b.engine e).turnFrom ≤ b.now) && cs[b.stepNo e % cs.length]? = some (k.val % 16)
    && match (b.chan k).stepped with | some t => decide (t < b.stepFrom e) | none => true

/-- The channel takes its step: its engine runs, the channel is active, and it is its turn. -/
def Bar.canStep (b : Bar) (k : Fin 64) : Bool := (b.engine (engineOf k)).state = .running && (b.chan k).active && b.onTurn k

/-- The step is the one that the channel takes in this turn. -/
def Bar.takeStep (b : Bar) (k : Fin 64) : Bar :=
  let t := b.stepFrom (engineOf k)
  b.modChan k fun c => { c with stepped := some t }

/-- Is the channel inside a WAIT that has begun? -/
def ChannelState.inWait (c : ChannelState) (i : CInstr) : Bool :=
  match i, c.busy with
  | .wait _ _, .waiting _ _ => true
  | _, _ => false

/-- A channel's step runs the instruction at its PC when the word there is one the command names; a WAIT that has
begun goes on only by its completion (R358, R361). -/
def Bar.instrStep (b : Bar) (k : Fin 64) (sel : CInstr → Bool) : Bar :=
  if b.canStep k then
    match decodeCarousel (b.fetched k) with
    | some i => if sel i && !(b.chan k).inWait i then (b.takeStep k).chExec k i else b
    | none => b
  else b

/-- A channel that fetches an illegal word faults with ILLEGAL_OP (R361). -/
def Bar.illegalStep (b : Bar) (k : Fin 64) : Bar :=
  if b.canStep k && (decodeCarousel (b.fetched k)).isNone then (b.takeStep k).faultChannel k .illegalOp else b

/-- The channel's turn finds the WAIT at its PC pending: it completes once its condition has held (R362). -/
def Bar.waitCompleteStep (b : Bar) (k : Fin 64) (kind : Nat) : Bar :=
  if b.canStep k then
    match decodeCarousel (b.fetched k), ((b.noteWait .none k).chan k).busy with
    | some (.wait kind' _), .waiting _ met => if kind' = kind then (b.takeStep k).chWaitComplete k kind met else b
    | _, _ => b
  else b

/-- An armed compare is due in the present step of its engine: one whose low 32 bits of the timebase reach its target, or, when it
was late, a step after the one that armed it (R367). -/
def Bar.compareDue (b : Bar) (oc : OutCompare) : Bool :=
  let step := b.stepFrom (engineOf oc.owner)
  if oc.late then decide (oc.step < step) else reached step oc.target

/-- A pin's output compare fires when it is due (R367); a pin that a timer names by then is driven by the timer alone (R383). -/
def Bar.compareFire (b : Bar) (i : Fin 64) : Bar :=
  match b.io.pins[i].compare with
  | some oc =>
    if b.compareDue oc then
      let b := b.modPin i fun p => { p with compare := none }
      if b.timerPin i.val then b else b.actPin i oc.action
    else b
  | none => b

/-! ### Starting and halting -/

/-- A channel started at its entry address (R359, R374). -/
def startedChannel (enabled clear : Bool) (entry : Nat) (c : ChannelState) : ChannelState :=
  if enabled then
    let c := { c with active := true, stepped := none, pc := entry, g := Vector.replicate 4 0, z := false, n := false, e := false,
                      busy := .ready, event := none, fault := .none }
    if clear then { c with sh := 0, bc := 0, cq := [], rq := [], outLate := false, rqOvf := false, feedLost := false } else c
  else { c with active := false }

/-- Every channel of an engine changed. -/
def Bar.modEngineChans (b : Bar) (e : Fin 4) (f : Fin 64 → ChannelState → ChannelState) : Bar :=
  (List.finRange 16).foldl (fun b c => b.modChan (chanOf e c) (f (chanOf e c))) b

/-- RUN or RUN_CLEAR of a HALTED engine (R374). -/
def Bar.startEngine (b : Bar) (e : Fin 4) (clear : Bool) : Bar :=
  let enable := b.rwN (0x2A00 + e.val) 5
  -- the first step falls on the 2 ns grid of the steps
  let first := b.now + (b.now + b.cap.tb.stepPhase) % 2
  let b := b.modEngine e fun g => { g with state := .running, turnFrom := first }
  let b := b.modEngineChans e fun k =>
    startedChannel (bit enable (k.val % 16)) clear (b.rwN (0x2A10 + k.val) 1)
  b.logEvent 0xA025 (e.val * 256 + 1)

/-- HALT of a running engine (R373). -/
def Bar.haltEngine (b : Bar) (e : Fin 4) : Bar :=
  if (b.engine e).state = .running then b.modEngine e fun g => { g with state := .halting } else b

/-- Every channel of a HALTING engine has halted: the engine is HALTED and its pins take their HALT_LEVEL (R373). -/
def Bar.engineHalted (b : Bar) (e : Fin 4) : Bar :=
  if (b.engine e).state = .halting then
    let b := b.modEngineChans e fun _ => haltedChannel
    let b := (List.finRange 16).foldl (fun b c => b.haltPinsOf (chanOf e c)) b
    let b := b.modEngine e fun g => { g with state := .halted }
    b.logEvent 0xA025 (e.val * 256)
  else b

/-- Engines with autostart start with RUN when PRE-OP is first reached after reset (R375). -/
def Bar.autostartEngines (b : Bar) : Bar :=
  (List.finRange 4).foldl (fun b e =>
    if b.rwN (0x2A00 + e.val) 3 = 1 && (b.engine e).state = .halted then b.startEngine e false else b) b

/-! ### Queues and events -/

/-- Words appended to a channel's command queue. -/
def Bar.pushCq (b : Bar) (k : Fin 64) (ws : List Word32) : Bar := b.modChan k fun c => { c with cq := c.cq ++ ws }

/-- Room in a channel's command queue. -/
def Bar.cqRoom (b : Bar) (k : Fin 64) : Nat := b.queueDepth k - (b.chan k).cq.length

/-- The verdict feed hands a channel its pair of words, or drops the pair whole (R371). -/
def Bar.feedPair (b : Bar) (k : Fin 64) (word posS seq : Nat) : Bar :=
  if 2 ≤ b.cqRoom k then b.pushCq k [BitVec.ofNat 32 word, BitVec.ofNat 32 posS]
  else (b.logEvent 0xA021 (k.val * 2 ^ 56 + seq % 2 ^ 32)).modChan k fun c =>
    { c with feedLost := true, feedLostCount := sat32 c.feedLostCount }

/-- The feed of one verdict to every channel whose producer is FEED and whose live lane mask names the lane. -/
def Bar.feedVerdict (b : Bar) (verdict lane seq posS : Nat) (seqValid : Bool) : Bar :=
  let word := verdict + b2n seqValid * 4 + lane * 8 + seq % 4096 * 256
  (List.finRange 64).foldl (fun b k =>
    if b.rwN (0x2A10 + k.val) 3 = 1 && bit (b.liveN (0x2A10 + k.val) 4) lane then b.feedPair k word posS seq else b) b

/-- A channel status word (Table 12-11). -/
def ChannelState.status (c : ChannelState) : Nat :=
  b2n c.active + b2n (c.busy ≠ .ready) * 2 + b2n c.outLate * 4 + b2n c.rqOvf * 8 + b2n c.feedLost * 16 + b2n c.e * 32
    + c.pc * 256 + c.fault.code * 65536 + c.bc * 2 ^ 24

/-- The pins of a bank leave the input hold 1 ms after a voltage change and return to their configured modes
(R365). -/
def Bar.bankHoldEnd (b : Bar) (bank : Fin 8) : Bar :=
  match b.io.bankHold[bank] with
  | some t =>
    if t ≤ b.now then b.resample fun b => { b with io := { b.io with bankHold := vmod b.io.bankHold bank fun _ => none } } else b
  | none => b

end Sys2Proof.Machine
end

