-- ==== Sys2Proof/Machine/Egress.lean ====
section
/-! DEFINITION. What leaves the data ports: KSP datagrams, replication, the port queues and the gate schedule
(R298 to R306, R315, R323). -/

namespace Sys2Proof.Machine

/-! ### Peers, ports and sessions -/

def portIx (p : Nat) : Fin 4 := ⟨p % 4, by omega⟩

def Bar.modPort (b : Bar) (p : Fin 4) (f : Port → Port) : Bar :=
  { b with dlv := { b.dlv with ports := vmod b.dlv.ports p f } }

/-- A live field of peer k (0x2920 + k). -/
def Bar.peerN (b : Bar) (k sub : Nat) : Nat := b.liveN (0x2920 + k) sub
def Bar.peerOn (b : Bar) (k : Nat) : Bool := b.peerN k 1 = 1
/-- The 16 address bytes of a peer; all zero when never written. -/
def Bar.peerAddr (b : Bar) (k : Nat) : List Byte := padTo 16 (b.par.live.rawAt (0x2920 + k) 2)
/-- An IPv4 address carried as ::ffff:a.b.c.d. -/
def isV4 (a : List Byte) : Bool := a.take 12 = zeros 10 ++ [0xFF, 0xFF]
def ipHeader (a : List Byte) : Nat := if isV4 a then 20 else 40
/-- KSP header length of a version. -/
def kspHeader (v : Nat) : Nat := if v = 1 then 16 else if v = 2 then 40 else 44

def Bar.portN (b : Bar) (p sub : Nat) : Nat := b.rwN (0x2910 + p) sub
/-- The enabled ports run unless group 10 took its default or the bar is in recovery (R446, Table 16-3). -/
def Bar.portOn (b : Bar) (p : Fin 4) : Bool := b.portN p.val 1 = 1 && !b.sec.recovery && !bit b.sec.groupsDefault 10
def Bar.portUp (b : Bar) (p : Fin 4) : Bool := b.portOn p && (b.dlv.ports[p]).up

/-- A fuse row of the hub as taken at start. -/
def Bar.hubRow (b : Bar) (r : Nat) : Nat := b.sec.hubStart.getD r 0

/-- MAC address of a port (R447): 48 bits each from row 44 bit 0, the low byte first (DESIGN CHOICE, log 25). -/
def Bar.macAddr (b : Bar) (p : Nat) : List Byte :=
  if bit b.sec.groupsDefault 10 then zeros 6
  else leBytes 6 ((b.hubRow 44 + 2 ^ 64 * b.hubRow 45 + 2 ^ 128 * b.hubRow 46) >>> (48 * p))

/-- Eighths of the best-effort tokens withheld: the larger of the two counts (R405). -/
def Bar.withheld (b : Bar) : Nat := max b.thm.bStep b.thm.withheld

def Bar.session? (b : Bar) (k : Nat) : Option Session := b.dlv.sessions.find? (·.peer = k)
def Bar.modSession (b : Bar) (k : Nat) (f : Session → Session) : Bar :=
  { b with dlv := { b.dlv with sessions := b.dlv.sessions.map fun s => if s.peer = k then f s else s } }

/-- The replica port of a peer's stream, which VERDICT and NOZZLE have (R304). -/
def Bar.replica? (b : Bar) (k stream : Nat) : Option (Fin 4) :=
  let p := b.peerN k 5
  if p < 4 && (stream = 1 || stream = 2) then some (portIx p) else none

/-- Largest payload of a datagram of a stream to a peer at a version (R306): it fits the MTU of each port that it leaves by
(R298). -/
def Bar.pMax (b : Bar) (k v stream : Nat) : Nat :=
  let mtu := b.portN (b.peerN k 4) 3
  ((b.replica? k stream).elim mtu fun p => min mtu (b.portN p.val 3)) - ipHeader (b.peerAddr k) - 8 - kspHeader v

/-! ### IP (R298) -/

/-- One's complement sum of 16-bit words, big-endian (PRESUMED, log 23: RFC 1071). -/
def inetSum : List Byte → Nat → Nat
  | a :: c :: rest, acc => inetSum rest (acc + a.toNat * 256 + c.toNat)
  | [a], acc => acc + a.toNat * 256
  | [], acc => acc
def inetChecksum (bs : List Byte) : Nat :=
  let s := inetSum bs 0
  let s := s % 65536 + s / 65536
  let s := s % 65536 + s / 65536
  0xFFFF - s

/-- The IPv4 address of a port, the high byte first; all zero where IPv4 is off. -/
def Bar.ip4 (b : Bar) (p : Fin 4) : List Byte := beBytes 4 (b.portN p.val 5)
def Bar.ip6 (b : Bar) (p : Fin 4) : List Byte := padTo 16 (b.par.rw.rawAt (0x2910 + p.val) 8)
/-- The link-local address formed from a port's MAC address (PRESUMED, log 23: modified EUI-64). -/
def Bar.linkLocal (b : Bar) (p : Fin 4) : List Byte :=
  let m := b.macAddr p.val
  [0xFE, 0x80] ++ zeros 6 ++ leBytes 1 ((leAt m 0 1).xor 2) ++ sliceAt m 1 2 ++ [0xFF, 0xFE] ++ m.drop 3

/-- Is an address link-local (fe80::/10)? -/
def isLocal (a : List Byte) : Bool := leAt a 0 1 = 0xFE && leAt a 1 1 / 64 = 2

/-- The address that a port sends from: of the destination's family, the link-local one to a link-local destination or where the
port has no other (DESIGN CHOICE, log 150). -/
def Bar.srcAddr (b : Bar) (p : Fin 4) (dst : List Byte) : List Byte :=
  if isV4 dst then zeros 10 ++ [0xFF, 0xFF] ++ b.ip4 p
  else if isLocal dst || b.ip6 p = zeros 16 then b.linkLocal p else b.ip6 p

/-- The bytes of an address as its IP header has them. -/
def onWire (a : List Byte) : List Byte := if isV4 a then a.drop 12 else a

/-- The checksum of a UDP datagram, never sent as 0 (PRESUMED, log 23: RFC 768 and RFC 8200). -/
def udpSum (src dst : List Byte) (from_ to_ : Nat) (payload : List Byte) : Nat :=
  let n := payload.length + 8
  let pseudo := onWire src ++ onWire dst ++ (if isV4 dst then [0, 17] ++ beBytes 2 n else beBytes 4 n ++ [0, 0, 0, 17])
  let c := inetChecksum (pseudo ++ beBytes 2 from_ ++ beBytes 2 to_ ++ beBytes 2 n ++ [0, 0] ++ payload)
  if c = 0 then 0xFFFF else c

/-- The header of a datagram that leaves from a port's KSP port. -/
def Bar.kspHead (b : Bar) (p : Fin 4) (dst : List Byte) (udp : Nat) (payload : List Byte) : IpHead :=
  let src := b.srcAddr p dst
  let own := b.portN p.val 0x0A
  ⟨src, dst, isV4 dst, some (own, udp, udpSum src dst own udp payload)⟩

/-! ### Datagrams -/

/-- The fields a KSP datagram carries beside its session's. -/
structure DgFields where
  stream : Nat
  type : Nat
  flags : Nat
  seq : Nat
  stamp : Nat
  line0 : Nat
  line1 : Nat
  gen : Nat
  ksid : Nat
  frag : Nat
  last : Bool

/-- A datagram's bytes (R305, R310). -/
def kspBytes (version : Nat) (pcrc : Bool) (d : DgFields) (payload : List Byte) : List Byte :=
  if version = 1 then
    [0x50, 0x4C] ++ leBytes 1 d.stream ++ leBytes 1 (b2n d.last) ++ leBytes 4 d.seq ++ leBytes 4 (d.stamp / 1000)
      ++ leBytes 4 d.line0 ++ payload
  else
    leBytes 1 version ++ leBytes 1 d.stream ++ leBytes 1 d.type ++ leBytes 1 d.flags ++ leBytes 4 d.seq
      ++ leBytes 8 d.stamp ++ leBytes 8 d.line0 ++ leBytes 8 d.line1 ++ leBytes 2 d.gen ++ leBytes 2 payload.length
      ++ leBytes 2 d.ksid ++ leBytes 2 (d.frag % 32768 + b2n d.last * 32768)
      ++ (if version = 3 then leBytes 4 (if pcrc then crc32c payload else 0) else []) ++ payload

/-- Pieces of at most n bytes; an empty unit is one empty piece. -/
def pieces (n : Nat) : Nat → List Byte → List (List Byte)
  | 0, bs => [bs]
  | fuel + 1, bs => if bs.length ≤ n || n = 0 then [bs] else bs.take n :: pieces n fuel (bs.drop n)

/-- Bytes a frame takes on the wire: 38 of Ethernet, its tags and headers, and what it carries (R302, R318). -/
def Frame.wire (f : Frame) : Nat :=
  f.bytes.length + 38 + b2n f.vlan.isSome * 4 + b2n f.rtag.isSome * 6
    + f.ip.elim 0 fun h => (if isV4 h.dst then 20 else 40) + b2n h.udp.isSome * 8

/-- Bytes of BEST_EFFORT frames queued at a port. -/
def Port.beQueued (p : Port) : Nat := ((p.queue.filter fun f => f.cls = 0).map fun f => f.bytes.length).sum

/-! ### Late datagrams (R220, R315) -/

/-- Field of subscriber j. -/
def Bar.subN (b : Bar) (j sub : Nat) : Nat := b.liveN (0x2630 + j) sub
def Bar.subOn (b : Bar) (j : Nat) : Bool := b.subN j 1 = 1

/-- The EVENT records of a queued NOZZLE frame marked LATE, its header flag and check value renewed (R220, R221): the
frame and how many events it holds. -/
def lateFrame (f : Frame) (dialect : Nat) (pcrc : Bool) : Frame × Nat :=
  let v := leAt f.bytes 0 1
  let h := kspHeader v
  let head := f.bytes.take h
  let recs := pieces (if dialect = 1 then 12 else 32) f.bytes.length (f.bytes.drop h)
  let isEvent (r : List Byte) : Bool := dialect = 1 || leAt r 0 1 = 1
  let mark (r : List Byte) : List Byte := if dialect ≠ 1 && isEvent r then leBytes 32 (leNat r ||| 2 ^ 53) else r
  let payload := (recs.map mark).flatten
  let head := head.take 3 ++ leBytes 1 (leAt head 3 1 ||| 1) ++ head.drop 4
  let head := if v = 3 then head.take 40 ++ leBytes 4 (if pcrc then crc32c payload else 0) else head
  ({ f with bytes := head ++ payload }, recs.countP isEvent)

/-- Has a frame's deadline passed, and is it not marked LATE yet? -/
def lateDue (now : Nat) (f : Frame) : Bool :=
  (match f.window with | some (_, _, due) => decide (due < now) | none => false) && !bit (leAt f.bytes 3 1) 0

/-- GUARANTEED datagrams were queued or sent after their bound (R315). -/
def Bar.lateDatagrams (b : Bar) (n : Nat) : Bar :=
  { b with dlv := { b.dlv with late := satAdd32 b.dlv.late n } }.logLimited 0x9026 0 0 1000000000

/-- Late NOZZLE events are counted, and each window, by subscriber and w1, is logged once (R220). -/
def Bar.lateEvents (b : Bar) (n : Nat) (windows : List (Nat × Nat)) : Bar :=
  windows.foldl (fun b x =>
    if x.2 ∈ b.nz.lateLogged then b
    else { b with nz := { b.nz with lateLogged := x.2 :: b.nz.lateLogged } }.logEvent 0x6022 (x.1 * 2 ^ 56 + x.2 % 2 ^ 56))
    { b with nz := { b.nz with lateEvents := satAdd32 b.nz.lateEvents n } }

/-- The subscriber whose events a frame of a window holds, with its w1; none where it holds no event, but the window's end alone. -/
def Frame.windows (f : Frame) (events : Nat) : List (Nat × Nat) :=
  match f.window with
  | some (w1, sub, _) => if events = 0 then [] else [(sub, w1)]
  | none => []

/-- The copy of a datagram that is kept for REPLAY holds the bytes that go out (R313). -/
def Bar.renewHeld (b : Bar) (f : Frame) (bytes : List Byte) : Bar :=
  b.modSession f.peer fun s => { s with held := s.held.map fun h => if h.1 = f.stream && h.2.2 = f.bytes then (h.1, h.2.1, bytes) else h }

/-- What is said of the copies of a datagram that still wait, at either port (R304). -/
def Bar.modCopies (b : Bar) (f : Frame) (g : Frame → Frame) : Bar :=
  { b with dlv := { b.dlv with ports := b.dlv.ports.map fun q =>
    { q with queue := q.queue.map fun x => if x.kind = .ksp && x.peer = f.peer && x.bytes = f.bytes then g x else x } } }

/-- A frame marked LATE, at its peer's dialect, and how many events it holds. -/
def Bar.marked (b : Bar) (f : Frame) : Frame × Nat :=
  match b.session? f.peer with | some s => lateFrame f s.dialect (bit s.caps 0) | none => (f, 0)

/-! ### Gate schedule -/

/-- Gate mask and duration of a list entry. -/
def gateMask (e : Nat) : Nat := e % 256
def gateDur (e : Nat) : Nat := e / 256

/-- For how long class c stays open from the start of the first of these entries; `full` when it never closes. -/
def openFor (c full : Nat) : List Nat → Nat
  | [] => full
  | e :: rest => if bit (gateMask e) c then gateDur e + openFor c full rest else 0

/-- The live gate list of a port. -/
def Bar.liveGates (b : Bar) (p : Nat) : List Nat :=
  (List.range (b.liveN (0x2918 + p) 3)).map fun i => b.liveN (0x2918 + p) (4 + i)

/-- The first start of a cycle at or after t, on the timebase: base + k × cycle on the reference time scale (R301). k may
be any whole number, so that the grid has no beginning (DEDUCED, log 134). -/
def cycleFrom (base cycle : Nat) (offset : Int) (t : Nat) : Nat :=
  t + (((base : Int) - offset - t) % (max 1 cycle : Nat)).toNat

/-- Where a port's schedule stands when a gate event is due: list, entry and start of that entry. -/
structure GateStep where
  gates : List Nat
  cycle : Nat
  base : Nat
  entry : Nat
  start : Nat

/-- The entry that begins at a port by now, if one does: the live list at its first cycle start at or after t(apply line);
else the next entry of the list in force, a new cycle starting at the first grid point at or after the end of the last.
An event handled a whole cycle late joins the cycle in progress. -/
def Bar.gateStep (b : Bar) (p : Fin 4) : Option GateStep :=
  let q := b.dlv.ports[p]
  let offset := b.cap.tb.offset
  let gates := b.liveGates p.val
  let cycle := b.liveN (0x2918 + p.val) 1
  let base := b.liveN (0x2918 + p.val) 2
  let fresh := !(gates = q.gates && cycle = q.cycle && base = q.base)
  let first := cycleFrom base cycle offset b.dlv.listFrom
  let join (start cycle : Nat) : Nat := start + (b.now - start) / max 1 cycle * cycle
  if fresh && decide (first ≤ b.now) then some ⟨gates, cycle, base, 0, join first cycle⟩
  else if q.gates.length ≤ q.gateEntry + 1 then
    let start := cycleFrom q.base q.cycle offset q.entryEnd
    if start ≤ b.now then some ⟨q.gates, q.cycle, q.base, 0, join start q.cycle⟩ else none
  else if q.entryEnd ≤ b.now then some ⟨q.gates, q.cycle, q.base, q.gateEntry + 1, q.entryEnd⟩
  else none

/-- When the gate of class c next closes at a port, of the entry in progress; a list that is to take over has its own gates. -/
def Bar.openUntil (b : Bar) (p : Fin 4) (c : Nat) : Nat :=
  let q := b.dlv.ports[p]
  let turn := q.gates.drop q.gateEntry ++ q.gates.take q.gateEntry
  let shut := q.entryEnd - gateDur (turn.headD 0) + openFor c (turn.map gateDur).sum turn
  let gates := b.liveGates p.val
  let cycle := b.liveN (0x2918 + p.val) 1
  let base := b.liveN (0x2918 + p.val) 2
  let first := cycleFrom base cycle b.cap.tb.offset (max b.dlv.listFrom q.cycleStart)
  if !(gates = q.gates && cycle = q.cycle && base = q.base) && decide (first < shut) then first + openFor c (gates.map gateDur).sum gates
  else shut

/-- The first frame of a class, and the queue without it; of BEST_EFFORT datagrams only with a handshake token (R324). -/
def takeClass (c : Nat) (token : Bool) : List Frame → Option (Frame × List Frame)
  | [] => none
  | f :: rest =>
    if f.cls = c && (token || c ≠ 0 || f.kind ≠ .ksp) then some (f, rest)
    else match takeClass c token rest with
      | some (g, rest') => some (g, f :: rest')
      | none => none

/-- The next frame of the highest open class whose first frame ends before its gate closes (R300, R301). -/
def Bar.nextFrame (b : Bar) (p : Fin 4) (token : Bool) : List Nat → Option (Frame × List Frame)
  | [] => none
  | c :: rest =>
    let q := b.dlv.ports[p]
    match takeClass c token q.queue with
    | some (f, q') => if q.free + 8 * f.wire ≤ 25 * b.openUntil p c then some (f, q') else b.nextFrame p token rest
    | none => b.nextFrame p token rest

/-- A frame starts on the wire. The first copy of a NOZZLE datagram to leave says whether its events were late (R220). -/
def Bar.frameLeaves (b : Bar) (p : Fin 4) (f : Frame) (rest : List Frame) : Bar :=
  let late := lateDue ((b.dlv.ports[p]).free / 25) f
  let (g, events) := if late then b.marked f else (f, 0)
  let b := b.modPort p fun q => { q with queue := rest, sent := { g with window := none } :: q.sent, free := q.free + 8 * f.wire }
  let b := if f.window.isSome then b.modCopies f fun x => { x with bytes := g.bytes, window := none } else b
  let b := if late then ((b.renewHeld f g.bytes).lateEvents events (f.windows events)).lateDatagrams 1 else b
  if h : f.kind = .ksp ∧ f.stream < 9 then { b with dlv := { b.dlv with sent := vmod b.dlv.sent ⟨f.stream, h.2⟩ sat32 } } else b

/-- Frames start one after the other, each when the one before has ended, while the entry in progress lasts. With w eighths
of the handshake tokens withheld a BEST_EFFORT datagram finds one by a free draw, at 8 never (R324; DESIGN CHOICE, log 151). -/
def Bar.portFrames (b : Bar) (p : Fin 4) : Nat → Bar
  | 0 => b
  | fuel + 1 =>
    let q := b.dlv.ports[p]
    if 25 * b.now < q.free || 25 * q.entryEnd ≤ q.free then b
    else
      let asks := b.withheld ≠ 0 && q.queue.any fun f => f.cls = 0 && f.kind = .ksp
      let (x, b) := if asks then b.draw 8 else (7, b)
      match b.nextFrame p (!asks || decide (b.withheld ≤ x)) [7, 6, 5, 4, 3, 2, 1, 0] with
      | none => b
      | some (f, rest) => (b.frameLeaves p f rest).portFrames p fuel

/-- A port sends what may have started by now. -/
def Bar.portRun (b : Bar) (p : Fin 4) : Bar :=
  if b.portUp p then
    (b.portFrames p (b.dlv.ports[p]).queue.length).modPort p fun q => { q with free := max q.free (25 * b.now) }
  else b

/-- Every port sends what may have started by now. -/
def Bar.portsRun (b : Bar) : Bar := (List.finRange 4).foldl (fun b p => b.portRun p) b

/-- A gate control list entry begins (R301): what may leave does, a frame of the entry before ended. -/
def Bar.gateEntryStart (b : Bar) (p : Fin 4) : Bar :=
  match b.portUp p, b.gateStep p with
  | true, some g =>
    (((b.portRun p).modPort p fun q =>
      { q with
        gateEntry := g.entry, gates := g.gates, cycle := g.cycle, base := g.base
        cycleStart := if g.entry = 0 then g.start else q.cycleStart
        entryEnd := g.start + gateDur (g.gates.getD g.entry 0)
        free := max q.free (25 * g.start) }).portRun p)
  | _, _ => b

/-! ### Queueing -/

/-- A frame is queued at a port, from its MAC address and with its tag (R297), or discarded while the port is down (R299). It
leaves at once if nothing holds it: what a frame waits for is one in transmission, gates, and what goes before it (R302). -/
def Bar.enqueue (b : Bar) (p : Fin 4) (f : Frame) : Bar :=
  if b.portUp p then
    let vlan := b.portN p.val 4
    let f := { f with mac := b.macAddr p.val, vlan := if f.kind = .gptp || vlan = 0xFFFF then none else some (vlan, f.cls) }
    ((b.portRun p).modPort p fun q => { q with queue := q.queue ++ [f] }).portRun p
  else { b with dlv := { b.dlv with discarded := sat32 b.dlv.discarded } }

/-- TD of a header: the timebase is not driven by the PLL. -/
def Bar.tdNow (b : Bar) : Bool := b.cap.tb.mode ≠ .pll

/-- One datagram of a unit goes out on the data port and, for VERDICT and NOZZLE, the replica port (R304). -/
def Bar.sendPiece (b : Bar) (k : Nat) (u : KspUnit) (stamp frag : Nat) (last : Bool) (payload : List Byte) : Bar :=
  match b.session? k with
  | none => b
  | some s =>
    let st : Fin 16 := ⟨u.stream % 16, by omega⟩
    let gap := bit s.gap u.stream
    let flags := b2n u.late + b2n u.be * 2 + b2n gap * 4 + b2n b.tdNow * 16
    let d : DgFields := ⟨u.stream, u.type, flags, s.seqs[st], stamp, u.line0, u.line1, u.gen, s.ksid, frag, last⟩
    let bytes := kspBytes s.version (bit s.caps 0) d payload
    let replica := b.replica? k u.stream
    let port := portIx (b.peerN k 4)
    let frame : Frame :=
      { kind := .ksp, cls := u.cls, bytes := bytes, peer := k, stream := u.stream
        rtag := if replica.isSome then some s.rtags[st] else none, window := u.window
        ip := some (b.kspHead port (b.peerAddr k) (b.peerN k 3) bytes) }
    let keep := bit s.caps 1 && (u.stream = 1 || u.stream = 2)
    let held := if keep then
        let mine := (s.held.filter fun h => h.1 = u.stream).take 4095
        (u.stream, s.seqs[st], bytes) :: mine ++ s.held.filter (fun h => h.1 ≠ u.stream)
      else s.held
    let b := b.modSession k fun s =>
      { s with
        seqs := vmod s.seqs st fun q => (q + 1) % 2 ^ 32
        rtags := if replica.isSome then vmod s.rtags st fun q => (q + 1) % 65536 else s.rtags
        gap := putBit s.gap u.stream false, held := held }
    let b := b.enqueue port frame
    replica.elim b fun p => b.enqueue p frame

/-- The datagrams of a unit, in order. -/
def Bar.sendPieces (b : Bar) (k : Nat) (u : KspUnit) (stamp : Nat) : Nat → List (List Byte) → Bar
  | _, [] => b
  | frag, [p] => b.sendPiece k u stamp frag true p
  | frag, p :: rest => (b.sendPiece k u stamp frag false p).sendPieces k u stamp (frag + 1) rest

/-- A BEST_EFFORT unit that finds no room is dropped whole (R323). -/
def Bar.dropUnit (b : Bar) (k stream : Nat) : Bar :=
  let b := b.modSession k fun s => { s with gap := putBit s.gap stream true }
  let b := if h : stream < 9 then
      { b with dlv := { b.dlv with beDropped := vmod b.dlv.beDropped ⟨stream, h⟩ sat32 } }
    else b
  b.logLimited 0x9027 0 0 1000000000

/-- What a version 1 session may carry now (R310): VISION only as L16, CODING only in check mode PLITUR. -/
def Bar.v1Carries (b : Bar) (s : Session) (stream : Nat) : Bool :=
  s.version ≠ 1 || !((stream = 4 && b.liveN 0x2430 3 ≠ 0) || (stream = 5 && b.liveN 0x2700 2 ≠ 1))

/-- The payloads of a unit's datagrams to a peer at a version (R306). -/
def Bar.unitPieces (b : Bar) (k v : Nat) (u : KspUnit) : List (List Byte) := pieces (b.pMax k v u.stream) u.payload.length u.payload

/-- Bytes that the port buffers hold in all (R16). -/
def Bar.portBytes (b : Bar) : Nat := (b.dlv.ports.toList.map fun q => (q.queue.map fun f => f.bytes.length).sum).sum

/-- Datagrams of a version with these payloads find room in a port's BEST_EFFORT queue of 8 MiB (R323), and in the region of the
port buffers (R16). -/
def Bar.beRoom (b : Bar) (p : Fin 4) (v : Nat) (ps : List (List Byte)) : Bool :=
  let b := b.portRun p
  let n := (ps.map fun x => x.length + kspHeader v).sum
  decide ((b.dlv.ports[p]).beQueued + n ≤ 8388608) && decide (b.portBytes + n ≤ regionBytes 5)

/-- A unit to one peer: sent if its session has been granted the stream; without a session, GUARANTEED datagrams are
counted as withheld (R309). READBACK and bench responses are never dropped (R323). -/
def Bar.sendUnit (b : Bar) (k : Nat) (u : KspUnit) : Bar :=
  match b.session? k with
  | none =>
    if b.peerOn k && bit (b.peerN k 6) u.stream && !u.be then
      { b with dlv := { b.dlv with withheld := satAdd32 b.dlv.withheld (b.unitPieces k (b.peerN k 7) u).length } }
    else b
  | some s =>
    if bit s.streams u.stream && b.v1Carries s u.stream then
      let ps := b.unitPieces k s.version u
      let room := b.beRoom (portIx (b.peerN k 4)) s.version ps && (b.replica? k u.stream).all fun p => b.beRoom p s.version ps
      if u.be && !room && u.stream ≠ 0 && u.stream ≠ 8 then b.dropUnit k u.stream
      else if u.be && u.stream = 0 && (!room || b.dlv.benchOut.any fun w => w.1 = k) then
        { b with dlv := { b.dlv with benchOut := b.dlv.benchOut ++ [(k, s.ksid, u)] } }
      else (if u.late && !u.be then b.lateDatagrams ps.length else b).sendPieces k u b.now 0 ps
    else b

/-- A unit of a stream to every peer; `f` forms the payload for the session's version. -/
def Bar.sendAll (b : Bar) (u : KspUnit) (v1 : List Byte) : Bar :=
  (List.range 16).foldl (fun b k =>
    let v := match b.session? k with | some s => s.version | none => 0
    b.sendUnit k (if v = 1 then { u with payload := v1 } else u)) b

/-- A bench response that waited goes out, if it is the first of its port and finds room, which an empty queue always has. -/
def Bar.benchNext (b : Bar) (p : Fin 4) (w : Nat × Nat × KspUnit) : Bar :=
  match b.session? w.1 with
  | none => b
  | some s =>
    let ps := b.unitPieces w.1 s.version w.2.2
    let first := b.dlv.benchOut.find? fun x => portIx (b.peerN x.1 4) = p
    if first = some w && (((b.portRun p).dlv.ports[p]).beQueued = 0 || b.beRoom p s.version ps) then
      let b := { b with dlv := { b.dlv with benchOut := b.dlv.benchOut.erase w } }
      if s.ksid = w.2.1 then b.sendPieces w.1 w.2.2 b.now 0 ps else b
    else b

/-- Bench responses that waited go out while their port's BEST_EFFORT queue has room (R323). -/
def Bar.benchResume (b : Bar) (p : Fin 4) : Bar := b.dlv.benchOut.foldl (fun b w => b.benchNext p w) b

/-- A port goes down (R299). -/
def Bar.linkDown (b : Bar) (p : Fin 4) : Bar :=
  if (b.dlv.ports[p]).up then
    let n := (b.dlv.ports[p]).queue.length
    let b := b.modPort p fun q => { q with up := false, queue := [] }
    let b := { b with dlv := { b.dlv with discarded := satAdd32 b.dlv.discarded n } }
    b.logEvent 0x9024 0
  else b

/-- A port comes up (R299). -/
def Bar.linkUp (b : Bar) (p : Fin 4) : Bar :=
  if b.portOn p && !(b.dlv.ports[p]).up then
    (b.modPort p fun q => { q with up := true, free := max q.free (25 * b.now) }).logEvent 0x9025 0
  else b

/-- A reply that is no KSP datagram: queued in class 0, 802.1AS messages in class 7 (Table 10-1). -/
def Bar.sendReply (b : Bar) (p : Fin 4) (kind : FrameKind) (ip : Option IpHead) (bytes : List Byte) : Bar :=
  b.enqueue p
    { kind := kind, cls := if kind = .gptp then 7 else 0, bytes := bytes, peer := 0xFF, stream := 0, rtag := none, window := none, ip := ip }

end Sys2Proof.Machine
end

