-- ==== Sys2Proof/Machine/Storage.lean ====
section
/-! DEFINITION. Flash storage (chapter 9): media and quotas, the ledger, staging and commit, groups, the rings and pins,
FORMAT and mount, and power loss. -/

namespace Sys2Proof.Machine

def Bar.modSto (b : Bar) (f : Storage → Storage) : Bar := { b with sto := f b.sto }

/-! ### Discovery (R258, R259) -/

/-- One byte through the CRC-16 of an ONFI parameter page: polynomial 0x8005, high bit first. PRESUMED (log 119): the spec
names ONFI's CRC and does not give it. -/
def onfiCrcByte (crc : Nat) (x : Byte) : Nat :=
  (List.range 8).foldl (fun c _ => if c / 32768 % 2 = 1 then (c * 2 % 65536) ^^^ 0x8005 else c * 2 % 65536) (crc ^^^ (x.toNat * 256))

def onfiCrc (bs : List Byte) : Nat := bs.foldl onfiCrcByte 0x4F4E

/-- The first copy of a target's parameter page whose CRC-16 matches; without one the target is absent. -/
def targetPage (t : Target) : Option (List Byte) :=
  t.copies.find? fun p => p.length = 256 && leAt p 254 2 = onfiCrc (p.take 254)

/-- The geometry of the targets that answer. The fields' places in the page are ONFI's (PRESUMED, log 119). -/
def discover (f : Found) : Media :=
  let here := f.targets.filterMap fun t => (targetPage t).map fun p => (t, p)
  match here with
  | [] => .none
  | (t, p) :: _ =>
    let per (c : Fin 8) : Nat := here.countP fun x => x.1.channel = c
    { present := true
      uniform := (List.finRange 8).all (fun c => per c = per 0) && here.all fun x => x.1.id.take 8 = t.id.take 8 && x.2.take 254 = p.take 254
      id := t.id.take 8, enables := per 0, perTarget := leAt p 100 1, planes := 2 ^ (leAt p 113 1 % 16)
      multi := bit (leAt p 6 2) 3 && bit (leAt p 6 2) 6
      pageData := leAt p 80 4, spare := leAt p 84 2, pages := leAt p 92 4, blocks := leAt p 96 4
      onfi := here.all fun x => x.1.onfi5 && decide (0 < x.1.lpddr4)
      rate := here.foldl (fun m x => min m x.1.lpddr4) 1600, suspend := here.all fun x => x.1.suspend, marked := f.marked }

/-! ### Geometry (R258 to R264, R285) -/

/-- Data bytes of a channel-page (R263). -/
def mediaPage (m : Media) : Nat := m.planes * m.pageData
/-- User bytes of a page stripe: SPOOL groups lose one channel-page in eight to parity (R267). -/
def Storage.stripeBytes (s : Storage) (spool : Bool) : Nat := (if spool then 7 else 8) * mediaPage s.media
/-- User bytes of a group. -/
def Storage.groupBytes (s : Storage) (spool : Bool) : Nat := s.stripeBytes spool * s.media.pages
/-- Good blocks of a LUN, by plane in ascending address. -/
def mediaGood (m : Media) (bad : List BlockId) (lun plane : Nat) : List Nat :=
  (List.range (m.blocks / m.planes)).filter fun a => !bad.any fun x => x = ⟨lun, plane, a⟩
/-- The replacement reserve of a LUN: 2 % of its good blocks, rounded up (R262). -/
def mediaReserve (m : Media) (bad : List BlockId) (lun : Nat) : Nat :=
  ceilDiv (2 * ((List.range m.planes).map fun p => (mediaGood m bad lun p).length).sum) 100
/-- How many of a plane's blocks the reserve takes. DESIGN CHOICE (log 120): spread over the planes, the highest addresses. -/
def mediaTaken (m : Media) (bad : List BlockId) (lun plane : Nat) : Nat :=
  let r := mediaReserve m bad lun
  r / m.planes + b2n (decide (plane < r % m.planes))
/-- Usable capacity U (R262) as counted from the good blocks. -/
def mediaUsable (m : Media) (bad : List BlockId) : Nat :=
  ((List.range (8 * m.luns)).map fun l =>
    ((List.range m.planes).map fun p => (mediaGood m bad l p).length).sum - mediaReserve m bad l).sum * m.pages * m.pageData
/-- U: once formatted, the reserve is what is left of it. -/
def Storage.usable (s : Storage) : Nat :=
  if s.formatted then ((s.groups.map fun g => g.blocks.length).sum + s.leftover.length) * s.media.pages * s.media.pageData
  else mediaUsable s.media s.bad
/-- F_cover (R285). -/
def Storage.fCover (s : Storage) : Nat := 10 * (8 * s.media.luns) * (mediaPage s.media)

/-- Table 9-1 as far as discovery shows it, without the capacity. -/
def mediaMeets (m : Media) : Bool :=
  m.uniform && m.onfi && decide (1 ≤ m.enables) && decide (m.enables ≤ 4) && (m.perTarget = 1 || m.perTarget = 2)
    && (m.pageData = 16384 && decide (2048 ≤ m.spare) || m.pageData = 32768 && decide (4096 ≤ m.spare))
    && (m.planes = 1 || ((m.planes = 2 || m.planes = 4) && m.multi)) && m.suspend

/-- Fields of the stored media profile (Table 9-2). -/
def Storage.profileEndurance (s : Storage) : Nat := leAt s.profile 0x24 4
def Storage.tProg (s : Storage) : Nat := leAt s.profile 0x1E 2

/-- A media profile file is valid (R260). -/
def profileValid (f : List Byte) : Bool :=
  f.length = 64 && leAt f 0 4 = 0x4C53504D && leAt f 4 2 = 1 && leAt f 6 2 = 0 && leAt f 0x11 1 = 0 && leAt f 0x16 2 = 0
    && leAt f 0x1B 1 = 0 && sliceAt f 0x2A 18 = zeros 18 && leAt f 0x3C 4 = crc32c (f.take 0x3C)
    && decide (leAt f 0x1C 2 ≤ 40) && decide (leAt f 0x1E 2 ≤ 250) && decide (leAt f 0x20 2 ≤ 5000)
    && decide (leAt f 0x22 2 ≤ 30)

/-- What Table 9-1 asks that only the profile gives: pSLC endurance, and retention of a year after it. -/
def profileMeets (f : List Byte) : Bool := decide (20000 ≤ leAt f 0x24 4) && decide (365 ≤ leAt f 0x28 2)

/-- Why the media cannot be used, by the code it is logged with; none where it can (R258, R260). -/
def Storage.mediaFault (s : Storage) : Option Nat :=
  if !mediaMeets s.media then some 0x8020
  else if s.usable < 2200000000000 then some 0x8021
  else if s.profile = [] || decide (s.media.id ≠ sliceAt s.profile 8 8) then some 0x8022
  else if !profileMeets s.profile then some 0x8020
  else none

/-- 0x2802:0A with the media present: no profile, the media's, or one of another ID. -/
def Storage.profileState (s : Storage) : Nat := if s.profile = [] then 0 else if s.media.id = sliceAt s.profile 8 8 then 1 else 2

/-- A storage parameter: 0x2803:01 takes the profile's endurance while nothing has been written to it. -/
def Bar.endurance (b : Bar) : Nat :=
  match b.par.rw.find (objKey 0x2803 1) with
  | some (.num n) => n.toNat
  | _ => if b.sto.profile = [] then b.rwN 0x2803 1 else b.sto.profileEndurance

/-! ### Blocks and wear (R279, R281) -/

/-- The good blocks: those of the groups, the reserve and the rest. -/
def Storage.goodBlocks (s : Storage) : List Block := s.groups.flatMap (·.blocks) ++ s.reserve ++ s.leftover
/-- ē in 1/16 cycle. -/
def Storage.mean16 (s : Storage) : Nat :=
  if s.goodBlocks.isEmpty then 0 else 16 * (s.goodBlocks.map (·.erases)).sum / s.goodBlocks.length
def Storage.highest (s : Storage) : Nat := (s.goodBlocks.map (·.erases)).foldl max 0
def Storage.lowest (s : Storage) : Nat := (s.goodBlocks.map (·.erases)).foldl min s.highest
/-- A group's erase count: that of its blocks together, which orders groups as their mean does. -/
def Group.erases (g : Group) : Nat := (g.blocks.map (·.erases)).sum

/-- Powered time in ns, and in whole hours (0x2803:05). -/
def Bar.poweredNs (b : Bar) : Nat := b.sto.powered + b.now
def Bar.poweredHours (b : Bar) : Nat := b.poweredNs / 3600000000000

/-- The spool write allowance in bytes/s. -/
def Bar.spoolAllowance (b : Bar) : Nat := b.rwN 0x2803 9

/-- R_allow (R279): U × (μ × E − ē) / (A × d × T_rem × 3,600), with μ and d in 0.1 %, ē in 1/16 cycle, A = 1.10. -/
def Bar.rAllow (b : Bar) : Nat :=
  let life := 16 * b.rwN 0x2803 2 * b.endurance - 1000 * b.sto.mean16       -- (μE − ē) × 16,000
  let rem := max 1000 (b.rwN 0x2803 3 - b.poweredHours)
  b.sto.usable * life * 1000 * 100 / (16000 * 110 * b.rwN 0x2803 4 * rem * 3600)

/-! ### Ledger (R289 to R294) -/

/-- HMAC-SHA-512 of a message under a key of at most 128 bytes. PRESUMED (log 139): R471 names it and does not give it. -/
def hmacSha512 (key msg : List Byte) : List Byte :=
  let pad (x : Byte) : List Byte := (padTo 128 key).map (· ^^^ x)
  (Config.sha512 (pad 0x5C ++ (Config.sha512 (pad 0x36 ++ msg)).toList)).toList

/-- The order n of P-521. PRESUMED (log 139): the spec names the curve. -/
def orderP521 : Nat :=
  0x1FFFFFFFFFFFFFFFFFFFFFFFFFFFFFFFFFFFFFFFFFFFFFFFFFFFFFFFFFFFFFFFFFA51868783BF2F966B7FCC0148F709A5D03BB5C9B8899C47AEBB6FB71E91386409

/-- The label "RDX48-ID". -/
def idLabel : List Byte := [0x52, 0x44, 0x58, 0x34, 0x38, 0x2D, 0x49, 0x44]

/-- The private key d = (K mod (n − 1)) + 1 of the identity key pair (R471), of the seed in rows 13 to 16 and the unique ID. -/
def Bar.idKey (b : Bar) : Nat :=
  let seed := (List.range 4).flatMap fun i => leBytes 8 (b.hubRow (13 + i))
  let half (x : Byte) : List Byte := hmacSha512 seed (idLabel ++ leBytes 8 (b.hubRow 0) ++ [x])
  beNat (half 1 ++ half 2) % (orderP521 - 1) + 1

/-- The identity key is not available if group 0 or 3 took its default (R474). -/
def Bar.idAvailable (b : Bar) : Bool := !bit b.sec.groupsDefault 0 && !bit b.sec.groupsDefault 3
/-- The unique ID 0x2000:04. -/
def Bar.uid (b : Bar) : Nat := if bit b.sec.groupsDefault 0 then 0 else b.hubRow 0

/-- The identity certificate that MRAM holds (R475). -/
def Bar.identityCert (b : Bar) : List Byte := Config.identityCert b.sec.identity.serialNumber b.sec.identity.subjectKey

/-- KEY_ID, certificate digest of a SEAL (R292). -/
def Bar.keyId (b : Bar) : List Byte := (Config.sha512 (Config.publicKey b.idKey).toList).toList.take 16

/-- Length of a ledger entry. -/
def entrySize : Nat := 384

/-- An entry is formed and appended (R289): `body` fills 0x060 on; 90 % of the quota unexported is logged (R294). -/
def Bar.appendBody (b : Bar) (type : Nat) (body : List Byte → List Byte) : Bar :=
  let s := b.sto
  let head := leBytes 2 type ++ leBytes 2 1 ++ leBytes 4 0 ++ leBytes 8 s.nextIndex ++ leBytes 4 s.session
    ++ leBytes 4 b.saf.ret.boots ++ leBytes 8 b.now ++ s.lastHash
  let entry := head ++ padTo 288 (body head)
  let index := s.nextIndex
  let room := s.quotaLedger * 1000000000 / entrySize
  let mark := b.rwN 0x2806 2
  let b := b.modSto fun s =>
    { s with
      ledger := (index, entry) :: s.ledger
      nextIndex := index + 1, lastHash := (Config.sha512 entry).toList, sinceSeal := s.sinceSeal + 1
      outbox := s.outbox ++ [⟨.entry index, entry, b.liveLine, b.liveLine⟩] }
  let due := decide (0 < room) && decide (9 * room ≤ 10 * (index + 1 - mark))
  if due && !b.sto.exportLogged then (b.logEvent 0x8031 0).modSto fun s => { s with exportLogged := true }
  else if due then b
  else b.modSto fun s => { s with exportLogged := false }

def Bar.appendEntry (b : Bar) (type : Nat) (body : List Byte) : Bar := b.appendBody type fun _ => body

/-- A SEAL entry (R292, R293); without the identity key its fields are 0 (R474). -/
def Bar.appendSeal (b : Bar) : Bar :=
  let first := match b.sto.lastSeal with | some i => i + 1 | none => 0
  let avail := b.idAvailable
  let key := b.idKey
  let pre := leBytes 8 first ++ leBytes 8 (b.sto.nextIndex - 1)
    ++ (if avail then b.keyId ++ (Config.sha512 (b.identityCert)).toList else zeros 80) ++ zeros 60
  let index := b.sto.nextIndex
  let b := b.appendBody 3 fun head =>
    pre ++ (if avail then (Config.ecdsaSign key (Config.sha512 (head ++ pre)).toList).toList else zeros 132)
  let b := b.modSto fun s => { s with lastSeal := some index, sealTime := b.now, sinceSeal := 0 }
  if avail then b else b.logEvent 0xE009 0

/-- The first SEQ of the session without an ITEM entry: of an item that waits for its entry or is not published yet, or the
next one to be given. -/
def Bar.firstUnentered (b : Bar) : Nat :=
  let open_ := b.sto.items.map (·.seq) ++ b.cap.items.filterMap fun i => if i.published then none else i.seq
  open_.foldl min b.cap.nextSeq

/-- A GAP entry (Table 9-10), sealed at once unless it is a PFAIL gap (R293). -/
def Bar.appendGap (b : Bar) (kind : Nat) (g : StGap) (tLoss : Nat) : Bar :=
  let b := b.appendEntry 2 (leBytes 4 kind ++ leBytes 4 g.session ++ leBytes 8 g.line0 ++ leBytes 8 g.line1
    ++ leBytes 8 g.chunk0 ++ leBytes 8 g.chunk1 ++ leBytes 8 g.bytes ++ leBytes 4 (g.seq.getD b.firstUnentered) ++ leBytes 4 g.seqEnd
    ++ leBytes 8 tLoss)
  let b := b.modSto fun s => { s with gaps := sat32 s.gaps }
  if kind = 1 then b else b.appendSeal

/-- LINE_END of an open gap. -/
def openEnd : Nat := 0xFFFFFFFFFFFFFFFF

/-- SESSION_START (R291); `digest` is the SHA-512 of the running image. -/
def Bar.appendSessionStart (b : Bar) (digest : List Byte) : Bar :=
  b.appendEntry 4 (leBytes 8 b.now ++ leBytes 8 (unsigned 64 b.cap.tb.offset) ++ leBytes 2 b.par.liveGen ++ zeros 14
    ++ padTo 64 digest)

/-! ### ITEM entries (R273, R290) -/

/-- An item's chunks, FIRST_CHUNK to LAST_CHUNK: every number from the first to the last one that meets its frame [s, f)
(R273). -/
def Storage.frameChunks (s : Storage) (f : Nat × Nat) : List ChunkInfo :=
  let meeting := (s.chunks.filter fun c => c.firstN < f.2 && f.1 < c.endN).map (·.number)
  match meeting with
  | [] => []
  | n :: ns =>
    let first := ns.foldl min n
    let last := ns.foldl max n
    (s.chunks.filter fun c => decide (first ≤ c.number) && decide (c.number ≤ last)).reverse

/-! ### Pins (R273) -/

/-- The chunk numbers FIRST_CHUNK to LAST_CHUNK of an item, from its ledger entry (R273, Table 9-9), or from the
chunks of its frame while the entry is not formed, or as its pin keeps them; none for another item the ledger does not hold. -/
def Storage.itemChunks (s : Storage) (session seq : Nat) : Option (List Nat) :=
  match s.ledger.find? fun e => leAt e.2 0 2 = 1 && leAt e.2 0x10 4 = session && leAt e.2 0x60 4 = seq
    && bit (leAt e.2 0x69 1) 2 with
  | some e =>
    let first := leAt e.2 0x120 8
    if first = openEnd then some [] else some ((List.range (leAt e.2 0x128 8 + 1 - first)).map fun i => first + i)
  | none =>
    match (if session = s.session then s.items.find? (·.seq = seq) else none) with
    | some e => some (match e.frame with | some f => (s.frameChunks f).map (·.number) | none => [])
    | none => (s.pinChunks.find? (·.1 = (session, seq))).map (·.2)

/-- The chunks of every pinned item. -/
def Storage.pinFrames (s : Storage) : List ((Nat × Nat) × List Nat) :=
  s.pins.filterMap fun p => (s.itemChunks p.1 p.2).map fun c => (p, c)

/-- Pins hold their chunks whatever becomes of the ledger entries that name them (R273). -/
def Storage.keepPins (s : Storage) : Storage := { s with pinChunks := s.pinFrames }

/-- Is a unit held by a pin (R273)? -/
def Storage.isPinned (s : Storage) (u : StUnit) (frames : List ((Nat × Nat) × List Nat)) : Bool :=
  match u.key with
  | .object ses seq _ => decide ((ses, seq) ∈ s.pins)
  | .chunk n => s.pins.any fun p => frames.any fun f => f.1 = p && decide (n ∈ f.2)
  | .entry _ => false

/-- The unit is still there, staged or stored. -/
def Storage.held (s : Storage) (k : StKey) : Bool :=
  s.staging.any (·.key = k) || s.outbox.any (·.key = k) || s.stored.any (·.data.key = k)

/-- Bytes of the units with a property. -/
def Storage.bytesOf (s : Storage) (p : StUnit → Bool) : Nat :=
  (((s.staging ++ s.outbox ++ s.stored.map (·.data)).filter p).map fun u => u.bytes.length).sum

def StKey.isObject : StKey → Bool
  | .object _ _ _ => true
  | _ => false

/-- Pinned bytes: chunks, or evidence objects. -/
def Storage.pinnedOf (s : Storage) (frames : List ((Nat × Nat) × List Nat)) (objects : Bool) : Nat :=
  s.bytesOf fun u => u.key.isObject = objects && s.isPinned u frames

/-- 0x2805:04. -/
def Storage.pinnedBytes (s : Storage) : Nat := s.pinnedOf s.pinFrames false + s.pinnedOf s.pinFrames true

/-- What the pins hold fits in the pin share of ARCHIVE and of EVIDENCE. -/
def Storage.shareFits (s : Storage) (frames : List ((Nat × Nat) × List Nat)) (share : Nat) : Bool :=
  decide (s.pinnedOf frames false * 100 ≤ share * s.archiveBytes)
    && decide (s.pinnedOf frames true * 100 ≤ share * s.quotaEvidence * 1000000000)

/-- An item of the session still without its ITEM entry is marked pinned or not. -/
def Storage.markPinned (s : Storage) (session seq : Nat) (on : Bool) : Storage :=
  if session = s.session then { s with items := s.items.map fun e => if e.seq = seq then { e with pinned := on } else e } else s

/-- The pin of an item with these chunks is taken, unless it would exceed the pin share: the bar and whether it was. -/
def Bar.pinItem (b : Bar) (session seq : Nat) (chunks : List Nat) : Bar × Bool :=
  if (session, seq) ∈ b.sto.pins then (b, true)
  else
    let frames := ((session, seq), chunks) :: b.sto.pinFrames
    let b' := b.modSto fun s => ({ s with pins := (session, seq) :: s.pins } : Storage).markPinned session seq true
    if b'.sto.shareFits frames b.sto.pinShare then (b', true) else (b.logEvent 0x8030 0, false)

/-- PIN and UNPIN of 0x2805 find the item's chunks, or the item is unknown: a chunk was reclaimed. One that full staging
discarded never came to the ARCHIVE to be reclaimed (R273, R277). -/
def Storage.pinKnown (s : Storage) (session seq : Nat) : Option (List Nat) :=
  match s.itemChunks session seq with
  | some cs => if cs.all fun n => s.held (.chunk n) || decide (n ∈ s.discarded) then some cs else none
  | none => none

/-- Units of a pin pool that no pin holds any more cease to exist: their groups had been reclaimed (R272). -/
def Storage.dropPool (s : Storage) : Storage :=
  let frames := s.pinFrames
  { s with stored := s.stored.filter fun x => !x.pool || s.isPinned x.data frames }

/-- A pinned item is released; of another nothing changes (R273). -/
def Bar.unpinItem (b : Bar) (session seq : Nat) : Bar :=
  if (session, seq) ∉ b.sto.pins then b
  else b.modSto fun s => (({ s with pins := s.pins.filter (· ≠ (session, seq)), pinChunks := s.pinChunks.filter (·.1 ≠ (session, seq)) } : Storage).markPinned session seq false).dropPool

/-- The pin of an item whose entry is formed is settled: with all its chunks and objects known it may exceed the pin share
after all, and is refused then. DESIGN CHOICE (log 121): R273 does not say when a pin is charged for what the item has still
to form. -/
def Bar.settlePin (b : Bar) (e : ItemEntry) : Bar × Bool :=
  if !e.pinned then (b, false)
  else if b.sto.shareFits b.sto.pinFrames b.sto.pinShare then (b, true)
  else ((b.unpinItem b.sto.session e.seq).logEvent 0x8030 0, false)

/-! ### ITEM entries formed (R290) -/

/-- Are chunks of the frame still to be formed: lines of it in a running CODING box or block row, or not yet complete? -/
def Bar.chunksToCome (b : Bar) (f : Nat × Nat) : Bool :=
  let meets (n : Nat) : Bool := decide (f.1 ≤ n) && decide (n < f.2)
  b.cap.boxes.any (fun x => x.1.1 = 2 && x.2.any meets)
    || b.cap.codRows.any (fun r => r.2.any fun l => decide (l.first < f.2) && decide (f.1 ≤ l.last))
    || (!b.cap.ended && decide (b.cap.outLine < f.2))

/-- Are the item's last chunk and its guaranteed crops staged? -/
def Bar.itemReady (b : Bar) (e : ItemEntry) : Bool :=
  e.cropsDue.isEmpty && match e.frame with
    | none => true
    | some f => !b.chunksToCome f && (b.sto.frameChunks f).all fun c => c.staged || c.discarded

/-- The ITEM entry of a published item is formed, its crops in INDEX order. -/
def Bar.formItem (b : Bar) (e : ItemEntry) : Bar :=
  let (b, pinned) := b.settlePin e
  let cs := match e.frame with | some f => b.sto.frameChunks f | none => []
  let noArchive := cs.isEmpty
  let first := match cs.head? with | some c => c.number | none => openEnd
  let last := match cs.getLast? with | some c => c.number | none => openEnd
  let digest := if noArchive then zeros 64 else (Config.sha512 (cs.flatMap (·.digest))).toList
  let flags := b2n pinned + b2n noArchive * 2 + b2n (cs.any (·.discarded)) * 4 + b2n e.lost * 8
  let evid := (Config.sha512 (e.set ++ (e.crops.mergeSort fun x y => x.1 ≤ y.1).flatMap (·.2))).toList
  b.appendEntry 1 (padTo 64 e.verdict ++ evid ++ digest ++ leBytes 8 first ++ leBytes 8 last
    ++ leBytes 2 e.defects ++ leBytes 2 e.crops.length ++ leBytes 4 flags ++ leBytes 8 (unsigned 64 e.refOffset))

/-- ITEM entries formed when due: ready, or 1 s after publication (R290). -/
def Bar.itemEntry (b : Bar) (seq : Nat) : Bar :=
  match b.sto.items.find? (·.seq = seq) with
  | some e => if b.itemReady e || decide (e.published + 1000000000 ≤ b.now) then
    (b.formItem e).modSto fun s => { s with items := s.items.filter (·.seq ≠ seq) }
    else b
  | none => b

/-- Every published item's entry formed at once (R284). -/
def Bar.formAllItems (b : Bar) : Bar := (b.sto.items.foldl (fun b e => b.formItem e) b).modSto fun s => { s with items := [] }

/-! ### Staging (R276, R277) -/

def StKey.stream : StKey → StStream
  | .chunk _ => .archive
  | .object _ _ _ => .evidence
  | .entry _ => .ledger

/-- Staged bytes of EVIDENCE, or of ARCHIVE and LEDGER. -/
def Storage.stagedOf (s : Storage) (evidence : Bool) : Nat :=
  ((s.staging.filter fun u => u.key.isObject = evidence).map fun u => u.bytes.length).sum

/-- Does a unit find room in the staging region (R16), of which 64 MiB are kept for EVIDENCE (R277)? -/
def Storage.hasRoom (s : Storage) (u : StUnit) : Bool :=
  decide (s.stagedOf true + s.stagedOf false + u.bytes.length ≤ regionBytes 2)
    && (u.key.isObject || decide (s.stagedOf false + u.bytes.length ≤ regionBytes 2 - 67108864))

/-- The SEQ of an ITEM entry. -/
def StUnit.itemSeq (u : StUnit) : Option Nat :=
  match u.key with
  | .entry _ => if leAt u.bytes 0 2 = 1 && bit (leAt u.bytes 0x69 1) 2 then some (leAt u.bytes 0x60 4) else none
  | _ => none

/-- The gap grown by a discarded unit. Its chunks run from the first one lost to the end of the last; while none is lost the range
is empty, at the next chunk (DEDUCED, log 181). -/
def growGap (g : Option StGap) (u : StUnit) (session next : Nat) : StGap :=
  let g := g.getD ⟨session, u.line0, u.line1, next, next, 0, none, 0⟩
  let (c0, c1) := match u.key with
    | .chunk n => if g.chunk0 = g.chunk1 then (n, n + 1) else (min g.chunk0 n, max g.chunk1 (n + 1))
    | _ => (g.chunk0, g.chunk1)
  { g with line0 := min g.line0 u.line0, line1 := max g.line1 u.line1, chunk0 := c0, chunk1 := c1, bytes := g.bytes + u.bytes.length
           seq := g.seq.orElse fun _ => u.itemSeq, seqEnd := max g.seqEnd (u.itemSeq.elim 0 (· + 1)) }

/-- Is staging closed by a power loss? -/
def Storage.closed (s : Storage) : Bool := s.state = .sealing || s.state = .sealed

/-- A unit is discarded and counted, which its item's entry will say; while a power loss keeps staging closed, what is lost
belongs to its gap (R284). -/
def Storage.discard (s : Storage) (u : StUnit) : Storage :=
  let s := { s with full := if s.closed then s.full else some (growGap s.full u s.session s.nextChunk), discards := s.discards + 1 }
  match u.key with
  | .chunk n => { s with chunks := s.chunks.map fun c => if c.number = n then { c with discarded := true } else c
                         discarded := n :: s.discarded }
  | .object ses seq index =>
    if index = 0xFFFF || ses ≠ s.session then s
    else { s with items := s.items.map fun e => if e.seq = seq then { e with lost := true, cropsDue := e.cropsDue.filter (· ≠ index) } else e }
  | .entry _ => s

/-- A unit enters staging. -/
def Storage.accept (s : Storage) (u : StUnit) : Storage :=
  let n := s.staged + u.bytes.length
  let s := { s with staging := s.staging ++ [u], staged := n, high := max s.high n }
  match u.key with
  | .chunk k => { s with chunks := s.chunks.map fun c => if c.number = k then { c with staged := true } else c }
  | .object ses seq index =>
    if ses ≠ s.session then s
    else if index = 0xFFFF then { s with items := s.items.map fun e => if e.seq = seq then { e with set := u.bytes } else e }
    else { s with items := s.items.map fun e =>
      if e.seq = seq then { e with crops := e.crops ++ [(index, u.bytes)], cropsDue := e.cropsDue.filter (· ≠ index) } else e }
  | .entry _ => s

/-- The oldest formed unit enters staging, or is discarded if its share is full (R277). -/
def Bar.stagingWrite (b : Bar) : Bar :=
  match b.sto.outbox with
  | [] => b
  | u :: rest =>
    let b := b.modSto fun s => { s with outbox := rest }
    if !b.sto.closed && b.sto.hasRoom u then b.modSto fun s => s.accept u else b.modSto fun s => s.discard u

/-- Staging that comes to exceed F_cover in operation is reported (R285). -/
def Bar.judgeCover (b : Bar) : Bar :=
  let past := b.sto.state = .mounted && decide (b.sto.fCover < b.sto.staged)
  if past = b.sto.uncovered then b
  else (if past then b.logEvent 0x8028 0 else b).modSto fun s => { s with uncovered := past }

/-- Staging has room again: a STAGING_FULL gap (R277). -/
def Bar.stagingRoom (b : Bar) : Bar :=
  match b.sto.full with
  | some g =>
    if !b.sto.closed && decide (b.sto.stagedOf false < 469762048) && decide (b.sto.staged < 536870912) then
      let b := b.modSto fun s => { s with full := none }
      (b.appendGap 3 g b.now).logEvent 0x8025 0
    else b
  | none => b

/-! ### The journal (R276) -/

/-- A journal page is full; the spec gives records no size (free value). -/
def Storage.journalFull (s : Storage) : Bool := !s.journal.isEmpty && decide (Config.journalPageRecords ≤ s.journal.length)

/-! ### Groups (R263, R264, R280) -/

/-- The newest group of a list, by the order of opening. -/
def newestGroup (gs : List Group) : Option Group :=
  gs.foldl (fun best g => match best with | none => some g | some h => if h.order < g.order then some g else some h) none

/-- The open group of a stream, or of its pin pool, with room for n bytes. -/
def Storage.openGroup (s : Storage) (st : StStream) (pool : Bool) (n : Nat) : Option Group :=
  newestGroup (s.groups.filter fun g => g.stream = some st && g.pool = pool && !g.erasing && !g.closed
    && decide (g.used + n ≤ s.groupBytes (st = .spool)))

/-- The free group with the lowest erase count (R280). -/
def Storage.freeGroup (s : Storage) : Option Group :=
  (s.groups.filter fun g => g.stream.isNone && !g.erasing).foldl
    (fun best g => match best with | none => some g | some h => if g.erases < h.erases then some g else some h) none

/-- User bytes a stream has; the journal and the checkpoints live in what the quotas leave (R262, R264). -/
def Storage.quotaBytes (s : Storage) (st : StStream) : Option Nat :=
  match st with
  | .evidence => some (s.quotaEvidence * 1000000000) | .archive => some s.archiveBytes | .ledger => some (s.quotaLedger * 1000000000)
  | .spool => some (s.quotaSpool * 1000000000) | .metadata => none

/-- Groups a stream may hold. DESIGN CHOICE (log 122): a quota that is no whole number of groups takes the last one whole. -/
def Storage.quotaGroups (s : Storage) (st : StStream) : Option Nat :=
  let per := s.groupBytes (st = .spool)
  (s.quotaBytes st).map fun q => if per = 0 then 0 else ceilDiv q per

/-- May a stream open another group? A relocation, whose old group is erased after it, may take a free group beyond the quota. -/
def Storage.mayOpen (s : Storage) (st : StStream) (moving : Bool) : Bool :=
  moving || match s.quotaGroups st with | some n => decide (s.groups.countP (fun g => g.stream = some st) < n) | none => true

/-- Room for n bytes of a stream: the group, newly opened if need be, and where in it they lie. -/
def Storage.allocate (s : Storage) (st : StStream) (pool moving : Bool) (n : Nat) : Option (Nat × Nat × Storage) :=
  let note (s : Storage) (id : Nat) : Storage := { s with openSince := if id ∈ s.openSince then s.openSince else id :: s.openSince }
  match s.openGroup st pool n with
  | some g =>
    some (g.id, g.used, note { s with groups := s.groups.map fun h => if h.id = g.id then { h with used := h.used + n, valid := h.valid + n } else h } g.id)
  | none =>
    match (if s.mayOpen st moving then s.freeGroup else none) with
    | none => none
    | some g =>
      some (g.id, 0, note { s with
        orders := s.orders + 1
        groups := s.groups.map fun h =>
          if h.id = g.id then { h with stream := some st, pool := pool, order := s.orders, used := n, valid := n, closed := false } else h } g.id)

/-- The journal's records are programmed as a page of 4 KiB in a metadata group. -/
def Storage.flush (s : Storage) : Storage :=
  if s.journal.isEmpty then s
  else
    let s := { s with journal := [], journalFrom := none, journalPages := s.journalPages + 1 }
    match s.allocate .metadata false false 4096 with | some (_, _, s) => s | none => s

/-- A journal record is added; a page found full is written before. -/
def Storage.record (s : Storage) (now : Nat) (r : JournalRec) : Storage :=
  let s := if s.journalFull then s.flush else s
  { s with journal := s.journal ++ [r], journalFrom := if s.journalFrom.isSome then s.journalFrom else some now }

/-- The oldest staged unit is programmed, and a journal record names its location (R276). -/
def Storage.commitOne (s : Storage) (now : Nat) : Storage :=
  match s.staging with
  | [] => s
  | u :: rest =>
    match s.allocate u.key.stream false false u.bytes.length with
    | none => s
    | some (g, place, s) =>
      ({ s with
        staging := rest, staged := s.staged - u.bytes.length, stored := ⟨u, g, false, false, place, s.writeSeq⟩ :: s.stored
        writeSeq := s.writeSeq + 1, commitAt := now
        lastChunk := match u.key with | .chunk n => some n | _ => s.lastChunk } : Storage).record now (.located u.key g)

def Storage.commitUnits (s : Storage) (now : Nat) : Nat → Storage
  | 0 => s
  | n + 1 => (s.commitOne now).commitUnits now n

/-- The n oldest staged units are committed: their pages and the journal records that name them are programmed (R276). -/
def Storage.commit (s : Storage) (now n : Nat) : Storage := (s.commitUnits now n).flush

/-- A journal page is written 2 ms after its first record, or when it is full (R276). -/
def Bar.journalFlush (b : Bar) : Bar :=
  match b.sto.journalFrom with
  | some t => if t + 2000000 ≤ b.now || b.sto.journalFull then b.modSto (·.flush) else b
  | none => b

/-- ERASE_START of a group: the journal holds it before the erase begins (R276). -/
def Storage.eraseStart (s : Storage) (id now : Nat) : Storage :=
  (({ s with groups := s.groups.map fun (g : Group) => if g.id = id then { g with erasing := true, closed := true } else g } : Storage).record
    now (.eraseStart id)).flush

/-- Metadata groups that hold neither the open journal nor a checkpoint slot are erased: the last checkpoint covers their
records. -/
def Storage.eraseMetadata (s : Storage) (now : Nat) : Storage :=
  let mine := s.groups.filter fun g => g.stream = some .metadata && !g.erasing
  let keep := (newestGroup mine).elim [] (fun g => [g.id]) ++ s.slots.toList.filterMap fun x => x.map (·.2)
  (mine.filter fun g => decide (g.id ∉ keep)).foldl (fun s g => s.eraseStart g.id now) s

/-- The newest word of the storage anchor's ring, by sequence numbers modulo 2¹⁶ (R460). -/
def Storage.anchor (s : Storage) : Option AnchorWord :=
  (s.ring.toList.filterMap id).foldl (fun best w => match best with
    | none => some w
    | some v => if (w.seq + 65536 - v.seq) % 65536 < 32768 then some w else some v) none

/-- How storage was last left: the anchor's mark; 3 where it was never mounted (0x2800:04). -/
def Storage.marked (s : Storage) : Nat := match s.anchor with | some w => w.left | none => 3

/-- The anchor is written, in the next word of its ring (R460). -/
def Storage.writeAnchor (s : Storage) (slot left : Nat) : Storage :=
  let n := match s.anchor with | some w => (w.seq + 1) % 65536 | none => 0
  { s with ring := vmod s.ring ⟨n % 64, Nat.mod_lt _ (by omega)⟩ fun _ => some ⟨n, slot, left⟩ }

/-- The anchor marked anew: it goes on naming its checkpoint. -/
def Storage.mark (s : Storage) (left : Nat) : Storage := s.writeAnchor (match s.anchor with | some w => w.slot | none => 0) left

/-- A checkpoint of all metadata, in the slot that does not hold the last one, and the anchor that names it (R276, R460).
The metadata are the fields of `Storage` that stand for what NAND holds. DESIGN CHOICE (log 123): a checkpoint takes a page
stripe; one that finds no room is not written. -/
def Storage.checkpoint (s : Storage) (now : Nat) : Storage :=
  let s := s.flush
  let n := s.checkpoints + 1
  match s.allocate .metadata false false (s.stripeBytes false) with
  | none => { s with checkpointAt := now }
  | some (g, _, s) =>
    let s := { s with
      checkpointAt := now, checkpoints := n, slots := vmod s.slots ⟨n % 2, Nat.mod_lt _ (by omega)⟩ fun _ => some (n, g)
      openSince := (s.groups.filter fun (g : Group) => g.stream.isSome && !g.closed && !g.erasing
        && decide (g.used < s.groupBytes (g.stream = some StStream.spool))).map fun (g : Group) => g.id }
    (s.writeAnchor (n % 2) s.marked).eraseMetadata now

/-- A checkpoint every 250 ms. -/
def Bar.checkpoint (b : Bar) : Bar :=
  if b.sto.state = .mounted && decide (b.sto.checkpointAt + 250000000 ≤ b.now) then b.modSto fun s => s.checkpoint b.now else b

/-! ### Stripes (R267, R268) -/

/-- Bytes XORed together. -/
def xorPages (n : Nat) (ps : List (List Byte)) : List Byte := ps.foldl (List.zipWith (· ^^^ ·)) (zeros n)

/-- The 8 channel-pages of page stripe p: 7 hold the data in channel order, the one on channel p mod 8 their XOR (R267). -/
def stripePages (page p : Nat) (data : List Byte) : List (List Byte) :=
  let parts := (List.range 7).map fun i => padTo page ((data.drop (i * page)).take page)
  parts.take (p % 8) ++ [xorPages page parts] ++ parts.drop (p % 8)

/-- A missing channel-page is the XOR of the other 7 (R268). -/
def rebuildPage (page : Nat) (pages : List (List Byte)) (missing : Nat) : List Byte :=
  xorPages page (pages.take missing ++ pages.drop (missing + 1))

/-- What a read of a stripe delivers: its 7 data pages, the one that was not decoded rebuilt. -/
def stripeData (page p : Nat) (pages : List (List Byte)) (missing : Option Nat) : List Byte :=
  let whole := match missing with | some c => pages.take c ++ [rebuildPage page pages c] ++ pages.drop (c + 1) | none => pages
  (whole.take (p % 8) ++ whole.drop (p % 8 + 1)).flatten

/-! ### Relocation (R270, R280, R282, R283) -/

/-- A unit's data copied to another group. -/
def Storage.moveUnit (s : Storage) (x : Stored) (pool : Bool) (now : Nat) : Option Storage :=
  (s.allocate x.data.key.stream pool true x.data.bytes.length).map fun (g, place, s) =>
    ({ s with stored := s.stored.map fun (y : Stored) => if y.data.key = x.data.key then { y with group := g, place := place, pool := pool, wseq := s.writeSeq } else y
              writeSeq := s.writeSeq + 1 } : Storage).record now (.located x.data.key g)

/-- A stripe copied to another place, its parity formed for the page stripe there: its directory entry switches in one step
(R267, R270). -/
def Storage.moveStripe (s : Storage) (x : Stripe) (now : Nat) : Option Storage :=
  let n := s.stripeBytes true
  let page := mediaPage s.media
  (s.allocate .spool false true n).map fun (g, place, s) =>
    let p := if n = 0 then 0 else place / n
    ({ s with
      writeSeq := s.writeSeq + 1
      spool := s.spool.map fun (y : Stripe) => if y.handle = x.handle && y.index = x.index then
        { y with group := g, page := p, wseq := s.writeSeq, pages := stripePages page p (stripeData page y.page y.pages none) } else y
      groups := s.groups.map fun (h : Group) => if h.id = x.group then { h with valid := h.valid - n } else h } : Storage).record now (.stripes x.handle)

/-- A reference's stripes are invalid at once (R270). -/
def Storage.dropStripes (s : Storage) (handle : Nat) : Storage :=
  let n := s.stripeBytes true
  { s with
    spool := s.spool.filter fun x => x.handle ≠ handle
    groups := s.groups.map fun (g : Group) => { g with valid := g.valid - n * s.spool.countP fun x => x.handle = handle && x.group = g.id } }

/-- The longest that a stripe read issued before its stripe moved may take (Table 9-4), ns. -/
def stripeReadNs : Nat := 210000

/-- Erases of SPOOL groups begin when every read issued before their stripes moved has completed: an ordinary one ends within
210 µs, a full retry when it ends (R270). -/
def Storage.eraseAwaited (s : Storage) (now : Nat) : Storage :=
  (s.awaiting.filter fun x => decide (x.2 + stripeReadNs ≤ now) && !s.retries.any fun r => r.group = x.1 && !r.recovered).foldl
    (fun s x => ({ s with awaiting := s.awaiting.filter (·.1 ≠ x.1) } : Storage).eraseStart x.1 now) s

/-- Groups that take no more data. -/
def Storage.close (s : Storage) (ids : List Nat) : Storage :=
  { s with groups := s.groups.map fun (g : Group) => if g.id ∈ ids then { g with closed := true } else g }

/-- Metadata moves as checkpoints written anew in both slots, after which nothing of its group is needed. -/
def Storage.relocateMetadata (s : Storage) (id now : Nat) : Option Storage :=
  let s := (s.checkpoint now).checkpoint now
  if s.slots.toList.any fun x => x.any fun c => c.2 = id then none
  else if s.groups.any fun g => g.id = id && !g.erasing then some (s.eraseStart id now) else some s

/-- A group's valid data is copied elsewhere, and the group is erased; none, where there is no room for all of it. -/
def Storage.relocate? (s : Storage) (id now : Nat) : Option Storage :=
  match s.groups.find? (·.id = id) with
  | none => none
  | some g =>
    let s0 := s.close [id]
    match g.stream with
    | some .metadata => s0.relocateMetadata id now
    | some .spool =>
      let moved := (s.spool.filter fun x => x.group = id).foldl (fun (a : Option Storage) x => a.bind fun s => s.moveStripe x now) (some s0)
      moved.map fun s => { s.flush with awaiting := if s.awaiting.any (·.1 = id) then s.awaiting else (id, now) :: s.awaiting }
    | _ =>
      let moved := (s.stored.filter fun x => x.group = id).foldl (fun (a : Option Storage) x => a.bind fun s => s.moveUnit x x.pool now) (some s0)
      moved.map fun s => s.flush.eraseStart id now

/-- The same, where nothing changes without room. -/
def Storage.relocate (s : Storage) (id now : Nat) : Storage := (s.relocate? id now).getD s

/-- Erase counts that differ by more than E/16: the valid data of the group with the lowest count is relocated, metadata too (R280). -/
def Storage.level (s : Storage) (endurance now : Nat) : Storage :=
  if decide (endurance < 16 * (s.highest - s.lowest)) then
    match (s.groups.filter fun g => g.stream.isSome && !g.erasing).foldl
        (fun (best : Option Group) g => match best with | none => some g | some h => if g.erases < h.erases then some g else some h) none with
    | some g => s.relocate g.id now
    | none => s
  else s

/-- Erases of blocks counted at a powered time; those older than 24 powered hours drop out (R281). -/
def Storage.countErases (s : Storage) (at_ n : Nat) : Storage :=
  { s with erased := (at_, n) :: s.erased.filter fun e => decide (at_ < e.1 + 86400000000000) }

/-- A block erase completes: the group is free (R276). -/
def Bar.eraseDone (b : Bar) (id : Nat) : Bar :=
  b.modSto fun s =>
    match s.groups.find? fun g => g.id = id && g.erasing with
    | some g =>
      let s := (({ s with
        groups := s.groups.map fun (g : Group) => if g.id = id then
          { g with stream := none, pool := false, used := 0, valid := 0, closed := false, erasing := false
                   blocks := g.blocks.map fun (k : Block) => { k with erases := k.erases + 1 } } else g } : Storage).record
        b.now (.eraseDone id)).countErases b.poweredNs g.blocks.length
      if s.state = .mounted then s.level b.endurance b.now else s
    | none => s

/-! ### The rings (R272) -/

/-- Free groups of a ring: its quota in groups less those it holds. -/
def Storage.ringFree (s : Storage) (st : StStream) : Int :=
  (((s.quotaGroups st).getD 0 : Nat) : Int) - (s.groups.countP fun g => g.stream = some st : Nat)

/-- The oldest group of a ring, its pin pool apart. -/
def Storage.oldestGroup (s : Storage) (st : StStream) : Option Group :=
  (s.groups.filter fun g => g.stream = some st && !g.pool && !g.erasing).foldl
    (fun best g => match best with | none => some g | some h => if g.order < h.order then some g else some h) none

/-- A pinned unit is copied into the ring's pin pool, a log in groups of the ring that is limited to the pin share; where it
finds no room there it ceases to exist with its group. -/
def Storage.toPool (s : Storage) (st : StStream) (share now : Nat) (x : Stored) : Storage :=
  let pooled := ((s.stored.filter fun y => y.pool && y.data.key.stream = st).map fun y => y.data.bytes.length).sum
  let fits := decide ((pooled + x.data.bytes.length) * 100 ≤ share * (s.quotaBytes st).getD 0)
  match (if fits then s.moveUnit x true now else none) with
  | some s => s
  | none => { s with stored := s.stored.filter fun y => y.data.key ≠ x.data.key }

/-- Groups of a pin pool without a unit are erased. -/
def Storage.erasePool (s : Storage) (now : Nat) : Storage :=
  (s.groups.filter fun g => g.pool && !g.erasing && !s.stored.any fun x => x.group = g.id).foldl (fun s g => s.eraseStart g.id now) s

/-- A ring with fewer than 2 free groups reclaims its oldest one: pinned units move to the pin pool, the others cease
to exist, and its erase begins (R272). -/
def Bar.reclaim (b : Bar) (st : StStream) : Bar :=
  if b.sto.state = .mounted && decide (b.sto.ringFree st < 2) then
    match b.sto.oldestGroup st with
    | none => b
    | some g =>
      let frames := b.sto.pinFrames
      b.modSto fun s =>
        let mine := s.stored.filter fun x => x.group = g.id
        let newest := (mine.filterMap fun x => match x.data.key with | .chunk n => some (n + 1) | _ => none).foldl max 0
        let s := { s with
          stored := s.stored.filter fun x => x.group ≠ g.id || s.isPinned x.data frames
          discarded := s.discarded.filter fun n => decide (newest ≤ n)
          groups := s.groups.map fun (h : Group) => if h.id = g.id then { h with closed := true } else h }
        let s := (mine.filter fun x => s.isPinned x.data frames).foldl (fun s x => s.toPool st b.sto.pinShare b.now x) s
        ((s.flush.eraseStart g.id b.now).erasePool b.now).level b.endurance b.now
  else b

/-- The LEDGER ring overwrites its oldest group when its quota holds no group for the next entries: the entries in it cease to
exist, each unexported one is logged, and its erase begins (R294). DESIGN CHOICE (log 144): by whole groups, when no free one
is left. -/
def Bar.reclaimLedger (b : Bar) : Bar :=
  if b.sto.state = .mounted && decide (b.sto.ringFree .ledger < 1) && !(b.sto.groups.any fun g => g.stream = some .ledger && g.erasing) then
    match b.sto.oldestGroup .ledger with
    | none => b
    | some g =>
      let lost := (b.sto.stored.filterMap fun x => match x.data.key with | .entry i => if x.group = g.id then some i else none | _ => none).mergeSort (· ≤ ·)
      let b := (lost.filter fun i => decide (b.rwN 0x2806 2 ≤ i)).foldl (fun b i => b.logEvent 0x8032 i) b
      b.modSto fun s =>
        let s := { s.keepPins with
          stored := s.stored.filter fun x => x.group ≠ g.id
          ledger := s.ledger.filter fun e => decide (e.1 ∉ lost)
          oldest := lost.foldl (fun m i => max m (i + 1)) s.oldest }
        (s.eraseStart g.id b.now).level b.endurance b.now
  else b

/-- Places for the next `left` stripes of a reference, a page stripe each, and its channel-pages (R267). -/
def Storage.allocStripes (s : Storage) (handle : Nat) (data : List Byte) : (left index : Nat) → Option Storage
  | 0, _ => some s
  | left + 1, index =>
    let n := s.stripeBytes true
    match s.allocate .spool false false n with
    | none => none
    | some (g, place, s) =>
      let p := if n = 0 then 0 else place / n
      let pages := stripePages (mediaPage s.media) p ((data.drop (index * n)).take n)
      Storage.allocStripes { s with writeSeq := s.writeSeq + 1, spool := s.spool ++ [⟨handle, index, g, p, s.writeSeq, pages⟩] } handle data left (index + 1)

/-- A reference of `size` bytes committed: its stripes and its directory entry are programmed (R171, R267, R276). -/
def Storage.commitRef (s : Storage) (handle size : Nat) (data : List Byte) (now : Nat) : Option Storage :=
  let n := s.stripeBytes true
  (s.allocStripes handle data (if n = 0 then 0 else ceilDiv size n) 0).map fun s => (s.record now (.stripes handle)).flush

/-! ### FORMAT (R264, R265) -/

/-- The ARCHIVE's rest would be below 500 GB. -/
def Bar.quotaInvalid (b : Bar) : Bool :=
  decide (7 * (2000 - (b.rwI 0x2801 2 + b.rwI 0x2801 3)) - 8 * b.rwI 0x2801 1 < 3500)

/-- The blocks of a plane of a LUN that groups are formed of, and those of its reserve. -/
def mediaSplit (m : Media) (bad : List BlockId) (lun plane : Nat) : List Nat × List Nat :=
  let good := mediaGood m bad lun plane
  (good.take (good.length - mediaTaken m bad lun plane), good.drop (good.length - mediaTaken m bad lun plane))

/-- How many groups a LUN index gives: each takes a block of every plane on every channel. -/
def mediaRows (m : Media) (bad : List BlockId) (index : Nat) : Nat :=
  ((List.range 8).flatMap fun c => (List.range m.planes).map fun p => (mediaSplit m bad (c * m.luns + index) p).1.length).foldl min m.blocks

/-- The groups of the first format; a bad block's place is taken by the next good one (DESIGN CHOICE, log 120). -/
def mediaGroups (m : Media) (bad : List BlockId) : List Group :=
  let rows := (List.range m.luns).flatMap fun i => (List.range (mediaRows m bad i)).map fun r => (i, r)
  (List.range rows.length).map fun id =>
    let (i, r) := rows.getD id (0, 0)
    { id := id, stream := none, pool := false, order := 0, used := 0, valid := 0, closed := false, erasing := false
      blocks := (List.range 8).flatMap fun c => (List.range m.planes).map fun p =>
        let lun := c * m.luns + i
        ⟨⟨lun, p, (mediaSplit m bad lun p).1.getD r 0⟩, 1, none⟩ }

/-- Blocks of every plane of every LUN at the first format. -/
def mediaBlocks (m : Media) (of : Nat → Nat → List Nat) : List Block :=
  (List.range (8 * m.luns)).flatMap fun lun => (List.range m.planes).flatMap fun p => (of lun p).map fun a => ⟨⟨lun, p, a⟩, 1, none⟩

/-- The reserve of the first format (R262). -/
def mediaSpare (m : Media) (bad : List BlockId) : List Block := mediaBlocks m fun lun p => (mediaSplit m bad lun p).2

/-- The other good blocks that make up no whole group. -/
def mediaLeftover (m : Media) (bad : List BlockId) : List Block :=
  mediaBlocks m fun lun p => (mediaSplit m bad lun p).1.drop (mediaRows m bad (lun % m.luns))

/-- Every good block erased: the first format takes the marked blocks as bad, later ones keep the table (R265). -/
def Storage.eraseAll (s : Storage) : Storage :=
  let once (k : Block) : Block := { k with erases := k.erases + 1 }
  if s.formatted then
    { s with
      groups := s.groups.map fun (g : Group) => { g with stream := none, pool := false, order := 0, used := 0, valid := 0, closed := false, erasing := false, blocks := g.blocks.map once }
      reserve := s.reserve.map once, leftover := s.leftover.map once }
  else { s with bad := s.media.marked, groups := mediaGroups s.media s.media.marked, reserve := mediaSpare s.media s.media.marked
                leftover := mediaLeftover s.media s.media.marked }

/-- FORMAT's work (R265). The ARCHIVE has what the 2.0 TB leave, to the byte; 0x2801:05 shows whole GB (R264). -/
def Bar.formatWith (b : Bar) (q : FormatValues) : Bar :=
  let rest := 7 * (2000 - q.evidence - q.ledger) - 8 * q.spool
  let b := b.modSto fun s =>
    let s := s.eraseAll
    let s := s.countErases b.poweredNs s.goodBlocks.length
    { s with
      state := .formatting, formatted := true, quotaSpool := q.spool, quotaEvidence := q.evidence, quotaLedger := q.ledger
      quotaArchive := rest / 7, archiveBytes := rest * 1000000000 / 7, pinShare := q.share, formatPending := none
      outbox := [], staging := [], staged := 0, full := none, stored := [], discarded := []
      chunks := [], nextChunk := 0, lastChunk := none, ledger := [], nextIndex := 0, lastHash := zeros 64, lastSeal := none
      sealTime := b.now, sinceSeal := 0, oldest := 0, exportLogged := false, items := [], pins := [], pinChunks := [], pfail := false, pfailGap := none
      loss := none, retries := [], spool := [], checks := [], awaiting := [], retiring := [], refreshDue := [], journal := []
      journalFrom := none, openSince := [], slots := Vector.replicate 2 none, patrolPages := [], patrolDone := [] }
  let b := { b with cap := { b.cap with refs := [] } }
  (b.appendEntry 5 (leBytes 4 q.spool ++ leBytes 4 q.evidence ++ leBytes 4 q.ledger ++ leBytes 4 (rest / 7))).modSto fun s =>
    (s.checkpoint b.now).mark 2

/-- An accepted FORMAT clears its key and takes the values of 0x2801. A mount or a sealing in progress comes first (R284);
without media there is nothing to erase (DESIGN CHOICE, log 145). -/
def Bar.format (b : Bar) : Bar :=
  let b := b.putRw 0x2800 3 (.num 0)
  let q : FormatValues := ⟨b.rwN 0x2801 1, b.rwN 0x2801 2, b.rwN 0x2801 3, b.rwN 0x2801 4⟩
  match b.sto.state with
  | .absent => b
  | .mounting => b.modSto fun s => { s with formatPending := some q }
  | .sealing => b.modSto fun s => { s with formatPending := some q }
  | _ => b.formatWith q

/-- Everything formed so far enters staging. -/
def Bar.stageAll (b : Bar) : Nat → Bar
  | 0 => b
  | n + 1 => (b.stagingWrite).stageAll n

/-- Page stripes of a group that are programmed. -/
def Storage.stripesOf (s : Storage) (g : Group) : Nat :=
  let n := s.stripeBytes (g.stream = some .spool)
  if n = 0 then 0 else ceilDiv g.used n

/-- A patrol period begins with the channel-pages committed then (R282). -/
def Storage.patrolBegin (s : Storage) (now : Nat) : Storage :=
  { s with patrolFrom := now, patrolDone := []
           patrolPages := (s.groups.filter fun g => g.stream.isSome && !g.erasing).map fun g => (g.id, g.order, s.stripesOf g) }

/-- pSLC mode is entered on every LUN as the profile says (R259). -/
def Storage.enterPslc (s : Storage) : Storage := { s with pslc := some (leAt s.profile 0x10 1, leAt s.profile 0x12 4) }

/-- Formatting completes, with entry 0 written; media that does not meet Table 9-1 or has no profile leaves storage FAILED
(R258, R260). -/
def Bar.formatDone (b : Bar) : Bar :=
  if b.sto.state = .formatting then
    let b := (b.stageAll b.sto.outbox.length).modSto fun s => s.commit b.now s.staging.length
    match b.sto.mediaFault with
    | some code => (b.modSto fun s => { s with state := .failed }).logEvent code 0
    | none => b.modSto fun s => ({ s.enterPslc with state := .mounted } : Storage).patrolBegin b.now
  else b

/-! ### Mount (R258 to R260, R287, R288) -/

/-- INGESTING references are lost with the power, and release their charge (R172, R288 step 4). -/
def Bar.failIngesting (b : Bar) : Bar :=
  let lost := b.cap.refs.filter fun r => r.state = .ingesting
  let b := { b with cap := { b.cap with refs := b.cap.refs.map fun (r : Reference) =>
    if r.state = .ingesting then { r with state := .failed, detail := 0x8029, planes := [], inks := [], charge := 0, maxW := 0 } else r } }
  lost.foldl (fun b _ => b.logEvent 0x8029 0) b

/-- Interrupted erases are done again; those whose block fails are retired by ERASE_FAILURE. -/
def Bar.redoErases (b : Bar) (ids : List Nat) : Bar := ids.foldl (fun b i => (b.eraseDone i).logEvent 0x802A 0) b

/-- The first item without a stored ITEM entry: of an entry that was lost, or one that waits for its entry. -/
def Storage.lostItem (s : Storage) : Nat :=
  let lost := s.ledger.reverse.find? fun e => leAt e.2 0 2 = 1 && bit (leAt e.2 0x69 1) 2 && !(s.stored.any fun x => x.data.key = .entry e.1)
  match lost, s.items.head? with
  | some e, _ => leAt e.2 0x60 4
  | none, some e => e.seq
  | none, none => 0

/-- What was not committed is gone with the power: the chain ends at the last entry that is stored. Pins keep the chunks that are. -/
def Storage.rollBack (s : Storage) : Storage :=
  let kept := s.ledger.filter fun e => s.stored.any fun x => x.data.key = .entry e.1
  let committed (n : Nat) : Bool := s.stored.any fun x => x.data.key = .chunk n
  { s with
    staging := [], outbox := [], staged := 0, items := [], full := none, ledger := kept
    pinChunks := s.pinFrames.map fun p => (p.1, p.2.filter committed)
    retries := s.retries.filter (·.recovered)
    nextIndex := match kept with | e :: _ => e.1 + 1 | [] => 0
    lastHash := match kept with | e :: _ => (Config.sha512 e.2).toList | [] => zeros 64
    lastSeal := (kept.find? fun e => leAt e.2 0 2 = 3).map (·.1) }

/-- The first line of the session that no committed chunk holds: the end of the last one. -/
def Storage.lineCommitted (s : Storage) : Nat :=
  match s.lastChunk.bind fun n => s.stored.find? fun x => x.data.key = .chunk n with
  | some x => if leAt x.data.bytes 8 4 = s.session then x.data.line1 else 0
  | none => 0

/-- At the start after a loss of power, what was staged before is gone; an unclean loss is noted for the mount to tell. What
is staged from now on stays, and drains at the mount (R277, R287). -/
def Storage.restart (s : Storage) : Storage :=
  let next := match s.lastChunk with | some n => n + 1 | none => 0
  let lost := s.formatted && s.pfailGap.isNone && s.marked = 2
  let s' := s.rollBack
  { s' with state := .mounting
            loss := if lost then some ⟨⟨s.session, s.lineCommitted, openEnd, next, s.nextChunk, s.staged, some s.lostItem, 0⟩, s.commitAt⟩ else s.loss }

/-- After an unclean loss the groups open since the last checkpoint are scanned, closed, relocated and erased, those filled or
opened since it and those of metadata too (R288 step 2). -/
def Storage.scanOpen (s : Storage) (now : Nat) : Storage :=
  let ids := s.openSince.filter fun i => s.groups.any fun g => g.id = i && g.stream.isSome && !g.erasing
  ids.foldl (fun s i => s.relocate i now) (s.close ids)

/-- Mount with what discovery finds, taking `ms`. -/
def Bar.mount (b : Bar) (f : Found) (ms : Nat) : Bar :=
  if b.sto.state = .mounting then
    let b := b.modSto fun s => { s with media := discover f, mountMs := ms }
    if !b.sto.media.present then b.modSto fun s => { s with state := .absent, formatPending := none }
    else
      let b := b.modSto fun s => { s with profState := s.profileState }
      match b.sto.formatPending, b.sto.mediaFault with
      | some q, _ => (b.modSto fun s => { s with lastShutdown := s.marked }).formatWith q
      | none, some code => (b.modSto fun s => { s with state := .failed }).logEvent code 0
      | none, none =>
        let b := b.modSto fun s => { s.enterPslc with lastShutdown := s.marked }
        if !b.sto.formatted then b.modSto fun s => ({ s with state := .unformatted } : Storage).mark 2
        else
          let cut := (b.sto.groups.filter (·.erasing)).map (·.id)
          let b := if b.sto.loss.isSome then b.modSto fun s => s.scanOpen b.now else b
          let b := (b.redoErases cut).failIngesting
          let b := match b.sto.loss with
            | some l => (b.modSto fun s => { s with loss := none }).appendGap 2 l.gap l.time
            | none => b.modSto fun s => { s with pfailGap := none }
          let b := b.appendSeal
          b.modSto fun s => (({ s with state := .mounted, checkpointAt := b.now } : Storage).mark 2).patrolBegin b.now
  else b

/-- Storage whose media has another ID than the stored profile is FAILED (R260). -/
def Bar.judgeProfile (b : Bar) : Bar :=
  if b.sto.profState = 1 then b else (b.modSto fun s => { s with state := .failed }).logEvent 0x8022 0

/-- A media profile is stored (R260): media that is there and has another ID leaves storage FAILED, once it is sealed where it
seals (R284). -/
def Bar.takeProfile (b : Bar) (bytes : List Byte) : Bar :=
  let b := b.modSto fun s => { s with profSlots := s.profSlots.put bytes }
  if !b.sto.media.present then b
  else
    let b := b.modSto fun s => { s with profState := s.profileState }
    if b.sto.state = .mounted || b.sto.state = .unformatted || b.sto.state = .sealed then b.judgeProfile else b

/-! ### Power loss (R284 to R286) -/

/-- How many of the oldest staged units fit into F_cover together. -/
def coveredUnits : List StUnit → Nat → Nat
  | [], _ => 0
  | u :: rest, room => if u.bytes.length ≤ room then coveredUnits rest (room - u.bytes.length) + 1 else 0

/-- Staged units that sealing programs: the oldest, up to F_cover (R284, R285). -/
def Storage.covered (s : Storage) : Nat := coveredUnits s.staging s.fCover

/-- The gap a power loss opens: `line` is the first line not recorded; the first chunk past F_cover may be lost. -/
def Storage.lossGap (s : Storage) (line seq : Nat) : StGap :=
  let chunk := match (s.staging.drop s.covered).find? fun u => match u.key with | .chunk _ => true | _ => false with
    | some ⟨.chunk n, _, _, _⟩ => n
    | _ => s.nextChunk
  ⟨s.session, line, openEnd, chunk, openEnd, s.staged - s.fCover, some seq, 0⟩

/-- Sealing begins (R284); the coders have ended their block rows before, and `line` is the first line lost. -/
def Bar.sealStart (b : Bar) (line : Nat) : Bar :=
  if b.sto.state = .mounted then
    let b := b.formAllItems
    let b := b.stageAll b.sto.outbox.length
    let b := if b.sto.fCover < b.sto.staged then b.logEvent 0x8028 0 else b
    b.modSto fun s => { s with state := .sealing, pfailAt := some b.now, pfailGap := some (s.lossGap line b.firstUnentered) }
  else b

/-- Sealing is complete: staged data up to F_cover is programmed, the GAP entry closes the journal, and the anchor is
marked sealed. -/
def Bar.sealDone (b : Bar) : Bar :=
  if b.sto.state = .sealing then
    let g := b.sto.pfailGap.getD (b.sto.lossGap b.lines b.firstUnentered)
    let b := b.appendGap 1 g (b.sto.pfailAt.getD b.now)
    let b := b.modSto fun s =>
      let n := s.covered
      let entry := s.outbox.getLast?.toList
      let s := { s with staging := s.staging.take n ++ entry ++ s.staging.drop n, outbox := s.outbox.dropLast
                        staged := s.staged + (entry.map fun (u : StUnit) => u.bytes.length).sum }
      s.commit b.now (n + entry.length)
    let b := (b.modSto fun s => ({ s with state := .sealed } : Storage).mark 1).logEvent 0x8026 0
    match b.sto.formatPending with
    | some q => b.formatWith q
    | none => b.judgeProfile
  else b

/-- Storage goes on in new groups: those that were open take no more data. -/
def Storage.closeGroups (s : Storage) : Storage :=
  { s with groups := s.groups.map fun (g : Group) => if g.stream.isSome then { g with closed := true } else g }

/-- Storage resumes: it opens new groups, and a RESUME gap closes the PFAIL gap and is sealed (R286). Its SEQ_END is the first SEQ
whose ITEM entry is formed from then on (DEDUCED, log 78). -/
def Bar.reopen (b : Bar) : Bar :=
  let b := if b.sto.state = .sealing then b.sealDone else b
  if b.sto.state = .sealed then
    let g := b.sto.pfailGap.getD (b.sto.lossGap b.lines b.firstUnentered)
    let b := b.modSto fun s => (({ s with state := .mounted, pfailGap := none, pfailAt := none } : Storage).mark 2).closeGroups
    let g' := { g with line1 := b.lines, chunk1 := b.sto.nextChunk, seqEnd := b.firstUnentered }
    (b.appendGap 4 g' b.now).logEvent 0x8027 0
  else b

/-- PFAIL_N has returned (R286): what it sealed resumes, unless an on-die CRIT or a reset that was decided keeps it sealed
(R400, R437). -/
def Bar.sealResume (b : Bar) : Bar :=
  if b.sto.pfail then
    let b := b.modSto fun s => { s with pfail := false }
    if b.thm.critSealed || b.saf.resetAt.isSome then b else b.reopen
  else b

/-! ### Reads for the host (R261, R274) -/

/-- Codewords in which a unit has a byte: their places in its group's user bytes. -/
def Stored.words (x : Stored) : List Nat :=
  if x.data.bytes.isEmpty then []
  else (List.range ((x.place + x.data.bytes.length - 1) / 4096 - x.place / 4096 + 1)).map fun i => 4096 * (x.place / 4096 + i)

/-- The block that holds a place of a group. -/
def Storage.blockAt (s : Storage) (group place : Nat) : List BlockId :=
  let page := max 1 (mediaPage s.media)
  let channel := place / page % 8
  let plane := place % page / max 1 s.media.pageData
  (s.groups.filter (·.id = group)).flatMap fun g => (g.blocks.filter fun k =>
    k.id.plane = plane && decide (channel * s.media.luns ≤ k.id.lun) && decide (k.id.lun < (channel + 1) * s.media.luns)).map (·.id)

/-- A stored unit is read: each of its codewords is decoded by hard decisions, or after 1 to 3 soft re-reads, or not at all,
which the NAND decides (a FREE VALUE, log 147). A soft re-read asks for a refresh of the group (R282); an uncorrectable codeword
makes the unit UNREADABLE. -/
def Bar.readUnit (b : Bar) (x : Stored) : Bar :=
  let (b, lost) := x.words.foldl (fun (a : Bar × Nat) place =>
    let (k, b) := a.1.draw 5
    if k = 0 then (b, a.2)
    else
      let b := b.modSto fun s =>
        { s with rereads := satAdd32 s.rereads (min 3 k)
                 refreshDue := (x.group, s.blockAt x.group place ++ ((s.refreshDue.filter (·.1 = x.group)).flatMap (·.2))) :: s.refreshDue.filter (·.1 ≠ x.group) }
      (b, a.2 + b2n (k = 4))) (b, 0)
  if lost = 0 then b
  else (b.modSto fun s =>
    { s with uncorrectable := satAdd32 s.uncorrectable lost
             stored := s.stored.map fun (y : Stored) => if y.data.key = x.data.key then { y with unreadable := true } else y }).logEvent 0x802D 0

end Sys2Proof.Machine
end

