-- ==== Sys2Proof/Machine/Security.lean ====
section
/-! DEFINITION. Fuses, thermometer counters, firmware images and slots, security commands and the attestation quote
(R446 to R475). -/

namespace Sys2Proof.Machine

def Bar.modSec (b : Bar) (f : Security → Security) : Bar := { b with sec := f b.sec }

/-! ### Fuse rows (R449 to R453) -/

/-- The two margin reads of a row. -/
def fuseAt (a : FuseArray) (r : Nat) : Nat × Nat :=
  match a.find? (·.row = r) with | some f => (f.low, f.high) | none => (0, 0)

/-- A row as its margin reads now give it. -/
def fusePut (a : FuseArray) (r lo hi : Nat) : FuseArray := ⟨r, lo, hi⟩ :: a.filter (·.row ≠ r)

/-- Where a fuse array keeps its redirection entries: entries per array, copy rows, spare rows, row field width. -/
structure RedirMap where
  entries : Nat
  copyA : Nat
  copyB : Nat
  spare : Nat
  rows : Nat                       -- the rows an entry's row field can name
  barred : Nat → Bool              -- redirection, spare and thermometer rows

def hubRedir : RedirMap := ⟨16, 504, 508, 512, 512, fun r => decide (504 ≤ r) || (decide (28 ≤ r) && decide (r < 44))⟩
def segRedir : RedirMap := ⟨4, 62, 63, 64, 64, fun r => decide (62 ≤ r)⟩

/-- An entry of one copy, if it reads the same at both margins. -/
def redirCopy (a : FuseArray) (base i : Nat) : Option Nat :=
  let (lo, hi) := fuseAt a (base + i / 4)
  let x := bits lo (16 * (i % 4) + 15) (16 * (i % 4))
  if x = bits hi (16 * (i % 4) + 15) (16 * (i % 4)) then some x else none

/-- An entry by R450: copy A if stable, else copy B if stable. -/
def redirEntry (m : RedirMap) (a : FuseArray) (i : Nat) : Option Nat :=
  match redirCopy a m.copyA i with
  | some x => some x
  | none => redirCopy a m.copyB i

/-- The spare row a valid, permitted entry sends a row to; the entry number. -/
def redirOf (m : RedirMap) (a : FuseArray) (r : Nat) : Option Nat :=
  (List.range m.entries).find? fun i => match redirEntry m a i with
    | some x => bit x 15 && x % m.rows = r && !m.barred (x % m.rows)
    | none => false

/-- Entries that are unstable in both copies, or name a row they must not (OTP_REDIRECT_BAD). -/
def redirBad (m : RedirMap) (a : FuseArray) : List Nat :=
  (List.range m.entries).filter fun i => match redirEntry m a i with
    | some x => bit x 15 && m.barred (x % m.rows)
    | none => true

/-- A row's value by R451: its two reads agree, or those of its spare do; and whether it was redirected. -/
def fuseRead (m : RedirMap) (a : FuseArray) (r : Nat) : Option (Nat × Bool) :=
  let (lo, hi) := fuseAt a r
  if lo = hi then some (lo, false)
  else match redirOf m a r with
    | some i => let (lo', hi') := fuseAt a (m.spare + i); if lo' = hi' then some (lo', true) else none
    | none => none

/-- The data rows of a group, if it does not fail (R452): every row stable, not all 0, the check row right. -/
def groupRead (m : RedirMap) (a : FuseArray) (group first last : Nat) : Option (List Nat) :=
  let rows := (List.range (last + 1 - first)).map fun i => fuseRead m a (first + i)
  if rows.any (·.isNone) then none
  else
    let vals := rows.map fun r => (r.getD (0, false)).1
    let data := vals.dropLast
    if vals.all (· = 0) then none
    else if vals.getLastD 0 = otpCheckRow group data then some data else none

/-- The groups with a check row: number, first row, check row (Table 16-2). -/
def hubGroups : List (Nat × Nat × Nat) := [(0, 0, 1), (1, 2, 3), (2, 4, 12), (3, 13, 17), (4, 18, 26), (10, 44, 47)]

/-- Table 16-4's own check. -/
def featureOk (w : Nat) : Bool :=
  let s := bits w 7 0
  (s = 2 || s = 4 || s = 6 || s = 8) && bits w 15 9 = 0 && bits w 31 16 = 0x4800 + s && bits w 63 32 = 0

/-- Does a hub group fail? -/
def hubGroupFails (a : FuseArray) (g : Nat × Nat × Nat) : Bool :=
  match groupRead hubRedir a g.1 g.2.1 g.2.2 with
  | none => true
  | some d => g.1 = 1 && !featureOk (d.headD 0)

/-- Name of a row in 0x2E00:09. -/
def driftName (seg : Option (Fin 8)) (row : Nat) : Nat :=
  match seg with
  | some s => s.val * 256 + row % 256
  | none => (if row < 256 then 0xFF00 else 0xFE00) + row % 256

/-- Rows of a thermometer or of the field-close word: never redirected, never failing (R453). -/
def restrictiveRow (r : Nat) : Bool := decide (27 ≤ r) && decide (r < 44)

/-- The value a hub row has from the start on: a thermometer or field-close bit counts as set if it reads set at either
margin; a marginal row shows its low read. -/
def hubRowValue (a : FuseArray) (r : Nat) : Nat :=
  let (lo, hi) := fuseAt a r
  if restrictiveRow r then lo ||| hi else match fuseRead hubRedir a r with | some (v, _) => v | none => lo

/-- Rows of an array below `n` that are read from a spare. -/
def redirectedRows (m : RedirMap) (a : FuseArray) (n : Nat) : List Nat :=
  (List.range n).filter fun r => match fuseRead m a r with | some (_, d) => d | none => false

/-- The margin reads that this start finds changed. -/
def Security.takeFuses (x : Security) (rows : List (Option (Fin 8) × Nat × Nat × Nat)) : Security :=
  rows.foldl (fun x f => match f.1 with
    | some s => { x with segOtp := vmod x.segOtp s fun a => fusePut a f.2.1 f.2.2.1 f.2.2.2 }
    | none => { x with hub := fusePut x.hub f.2.1 f.2.2.1 f.2.2.2 }) x

/-- The fuse step of start-up (R449 to R453): groups at default, redirections, S, and the rows as read. DESIGN CHOICE (log
116): where the FEATURE group fails, the spec leaves open which S the bar goes on with and reports in 0x2000:02; it keeps
the S it had. -/
def Bar.fuseStart (b : Bar) (rows : List (Option (Fin 8) × Nat × Nat × Nat)) : Bar :=
  let b := b.modSec fun x => x.takeFuses rows
  let a := b.sec.hub
  let fails := (hubGroups.filter (hubGroupFails a)).map (·.1)
  let vals := (List.range 48).map (hubRowValue a)
  let feature := if 1 ∈ fails then 0 else vals.getD 2 0
  let segs := (List.finRange 8).filter fun s => decide (s.val < bits feature 7 0)
  let segFails := segs.filter fun s => (groupRead segRedir b.sec.segOtp[s] (16 + s.val) 0 2).isNone
  let redirected := ((redirectedRows hubRedir a 48).filter fun r => !restrictiveRow r).map (driftName none)
    ++ segs.flatMap fun s => (redirectedRows segRedir b.sec.segOtp[s] 3).map (driftName (some s))
  let bad := redirBad hubRedir a ++ segs.flatMap fun s => redirBad segRedir b.sec.segOtp[s]
  let mask := (fails.map fun g => 2 ^ g).sum + (segFails.map fun s => 2 ^ (16 + s.val)).sum
  let b := b.modSec fun x =>
    { x with groupsDefault := mask, redirected := redirected.length, driftRow := 0xFFFF, driftLogged := [], redirBad := !bad.isEmpty, hubStart := vals }
  let b := { b with segs := if 1 ∈ fails then b.segs else bits feature 7 0 }
  let b := redirected.foldl (fun b r => b.logEvent 0xE021 r) b
  let b := bad.foldl (fun b _ => b.logEvent 0xE023 0) b
  (fails ++ segFails.map fun (s : Fin 8) => 16 + s.val).foldl (fun b g => b.logEvent 0xE020 g) b

/-- The value a segment's row has from the start on. -/
def segRowValue (a : FuseArray) (r : Nat) : Nat := match fuseRead segRedir a r with | some (v, _) => v | none => (fuseAt a r).1

/-- The hourly re-read of a row at both margins: a row that differs from its start value, or whose reads disagree, is
reported, and nothing else changes (R454). What the next start reads comes with that start. DESIGN CHOICE (log 156): bits that
a security command has programmed since count as part of the start value. -/
def Bar.fuseReread (b : Bar) (seg : Option (Fin 8)) (row lo hi : Nat) : Bar :=
  let first := match seg with | some s => segRowValue b.sec.segOtp[s] row | none => hubRowValue b.sec.hub row
  let name := driftName seg row
  if lo ≠ hi || lo ≠ first then
    let b := b.modSec fun x => { x with driftRow := name }
    if name ∈ b.sec.driftLogged then b
    else (b.logEvent 0xE022 name).modSec fun x => { x with driftLogged := name :: x.driftLogged }
  else b

/-! ### Thermometers and field close (R455 to R458) -/

/-- The 256 bits of a counter: set if set at either margin (R453). -/
def thermoBits (a : FuseArray) (r0 : Nat) : Nat :=
  ((List.range 4).map fun i => let (lo, hi) := fuseAt a (r0 + i); (lo ||| hi) * 2 ^ (64 * i)).sum

/-- A counter's value: the index of its highest set bit plus 1. -/
def thermoValue (a : FuseArray) (r0 : Nat) : Nat :=
  let x := thermoBits a r0
  if x = 0 then 0 else x.log2 + 1

def Bar.svnCounter (b : Bar) : Nat := thermoValue b.sec.hub 28
def Bar.calGenCounter (b : Bar) : Nat := thermoValue b.sec.hub 32
def Bar.keyRevCounter (b : Bar) : Nat := thermoValue b.sec.hub 36
def Bar.spareCounter (b : Bar) : Nat := thermoValue b.sec.hub 40

/-- Bit i of a counter programmed. -/
def thermoSet (a : FuseArray) (r0 i : Nat) : FuseArray :=
  let (lo, hi) := fuseAt a (r0 + i / 64)
  fusePut a (r0 + i / 64) (lo ||| 2 ^ (i % 64)) (hi ||| 2 ^ (i % 64))

/-- The bits given are programmed in ascending order, and then read back; `stuck` reads unset at both margins whatever is done
(R456). The array, and whether a bit reads unset. -/
def thermoAdvance (a : FuseArray) (r0 : Nat) (stuck : List Nat) (is : List Nat) : FuseArray × Bool :=
  (is.foldl (fun a i => if i ∈ stuck then a else thermoSet a r0 i) a, is.any fun i => decide (i ∈ stuck))

/-- A counter command: the bar and the abort's detail code. -/
def Bar.advance (b : Bar) (group r0 v : Nat) (stuck : List Nat) : Bar × Nat :=
  let cur := thermoValue b.sec.hub r0
  if 256 < v then (b, 0xE006)
  else if v ≤ cur then (b, 0)
  else
    let (a, bad) := thermoAdvance b.sec.hub r0 stuck ((List.range (v - cur)).map (cur + ·))
    let b := b.modSec fun x => { x with hub := a }
    if bad then (b.logEvent 0xE005 0, 0xE005)
    else (b.logEvent 0xE02A (group * 65536 + v), 0)

/-- Field-close bits set (R457). -/
def Bar.fieldBits (b : Bar) : Nat :=
  let (lo, hi) := fuseAt b.sec.hub 27
  (List.range 8).countP fun i => bit (lo ||| hi) i
def Bar.fieldClosed (b : Bar) : Bool := decide (3 ≤ b.fieldBits)

/-- FIELD_CLOSE; `stuck` are the bits that still read unset afterwards. -/
def Bar.fieldClose (b : Bar) (stuck : Nat) : Bar × Nat :=
  if b.fieldBits = 8 then (b, 0)
  else
    let (lo, hi) := fuseAt b.sec.hub 27
    let set := (0xFF).xor (stuck % 256)
    let b := b.modSec fun x => { x with hub := fusePut x.hub 27 (lo ||| set) (hi ||| set) }
    if b.fieldBits < 3 then (b.logEvent 0xE005 0, 0xE005) else (b.logEvent 0xE029 0, 0)

/-! ### Firmware images (R461 to R465) -/

def imgVersion (i : List Byte) : Nat := leAt i 8 4
def imgSvn (i : List Byte) : Nat := leAt i 0x0C 2
def imgKeyRev (i : List Byte) : Nat := leAt i 0x0E 2
def imgBodyLen (i : List Byte) : Nat := leAt i 0x10 4

/-- Step 1 of Table 16-7. -/
def imgFormatOk (i : List Byte) (rom : Nat) : Bool :=
  leAt i 0 4 = 0x57465844 && leAt i 4 2 = 1 && leAt i 6 2 = 0 && sliceAt i 0x18 8 = zeros 8 && sliceAt i 0x1F4 392 = zeros 392
    && decide (1 ≤ imgBodyLen i) && decide (imgBodyLen i ≤ 3144704) && decide (i.length = 1024 + imgBodyLen i)
    && decide (leAt i 0x14 4 ≤ rom)

/-- Verification of an image (Table 16-7): the code of the first check that fails, or none. -/
def Bar.imgCheck (b : Bar) (i : List Byte) : Option Nat :=
  let root := sliceAt i 0x16C 133
  let signer := sliceAt i 0x60 133
  let rootHash := (List.range 8).flatMap fun k => leBytes 8 (b.hubRow (4 + k))
  if !imgFormatOk i b.sec.romVersion then some 0xE010
  else if bit b.sec.groupsDefault 2 || (Config.sha512 root).toList ≠ rootHash then some 0xE011
  else if !(Config.onCurve root && Config.onCurve signer
      && Config.ecdsaVerify root (Config.sha512 (signer ++ sliceAt i 0x0E 2)).toList (sliceAt i 0xE8 132)) then some 0xE012
  else if imgKeyRev i < b.keyRevCounter then some 0xE013
  else if !Config.ecdsaVerify signer (Config.sha512 (i.take 0x37C)).toList (sliceAt i 0x37C 132) then some 0xE014
  else if (Config.sha512 (i.drop 1024)).toList ≠ sliceAt i 0x20 64 then some 0xE015
  else if imgSvn i < b.svnCounter then some 0xE016
  else none

/-- The image in a slot: false A, true B. -/
def Bar.slot (b : Bar) (s : Bool) : List Byte := if s then b.sec.slotB else b.sec.slotA
def Bar.setSlot (b : Bar) (s : Bool) (i : List Byte) : Bar :=
  b.modSec fun x => if s then { x with slotB := i } else { x with slotA := i }

/-- Slot selection at start (R463); none runs in recovery mode. -/
def Bar.bootSelect (b : Bar) : Bar :=
  let a0 := b.sec.anchor
  let failed := a0.trial && a0.tries = 0
  let a1 : BootAnchor := if failed then { a0 with preferred := !a0.preferred, trial := false } else a0
  let b := if failed then b.logEvent 0xE025 0 else b
  let a2 : BootAnchor := if a1.trial then { a1 with tries := a1.tries - 1 } else a1
  let ok (s : Bool) : Bool := (b.imgCheck (b.slot s)).isNone
  let b := b.modSec fun x => { x with anchor := a2, fellBack := failed, running := none }
  if ok a2.preferred then b.modSec fun x => { x with running := some a2.preferred }
  else if ok (!a2.preferred) then
    (b.modSec fun x => { x with running := some (!a2.preferred), anchor := { a2 with trial := false }, fellBack := true }).logEvent
      0xE024 0
  else b

/-- The running image; empty in recovery mode. -/
def Bar.runningImage (b : Bar) : List Byte := match b.sec.running with | some s => b.slot s | none => []

/-- An image with its MAGIC word cleared. -/
def clearMagic (i : List Byte) : List Byte := zeros (min 4 i.length) ++ i.drop 4

/-- The slot an FoE write fills: the one that is not running; A in recovery mode. -/
def Bar.targetSlot (b : Bar) : Bool := match b.sec.running with | some s => !s | none => false

/-- What has arrived of an image stands in the target slot, over what was there, without MAGIC (R464). -/
def Bar.fillSlot (b : Bar) (part : List Byte) : Bar :=
  b.setSlot b.targetSlot (clearMagic (part ++ (b.slot b.targetSlot).drop part.length))

/-- An image has been received whole: staged as a trial, or refused with the code, its slot without MAGIC (R464). -/
def Bar.stageImage (b : Bar) (i : List Byte) : Bar × Nat :=
  match b.imgCheck i with
  | none =>
    let s := b.targetSlot
    let b := (b.setSlot s i).modSec fun x => { x with anchor := ⟨s, true, 3⟩ }
    (b.logEvent 0xE02B 0, 0)
  | some c => (b.fillSlot i, c)

/-- CONFIRM is possible while the running slot is the preferred slot with TRIAL set (R465). -/
def Bar.confirm (b : Bar) : Bar × Nat :=
  if b.sec.anchor.trial && b.sec.running = some b.sec.anchor.preferred then
    (b.modSec fun x => { x with anchor := { x.anchor with trial := false } }, 0)
  else (b, 0xE004)

/-- The running image is confirmed (R466). -/
def Bar.confirmed (b : Bar) : Bool := b.sec.running.isSome && !b.sec.anchor.trial

/-! ### Security commands (R467) -/

/-- What a security command's silicon does, where it programs fuses: bits that stay unset. -/
structure FuseOutcome where
  stuck : List Nat
  stuckMask : Nat

/-- Commands 2 to 6 of Table 16-8: the bar and the abort's detail code, 0 if accepted. `calGen` is the GENERATION of the
active store. -/
def Bar.securityCommand (b : Bar) (code : Nat) (o : FuseOutcome) (calGen : Nat) : Bar × Nat :=
  match code with
  | 2 => b.confirm
  | 3 => if b.confirmed then b.advance 6 28 (imgSvn b.runningImage) o.stuck else (b, 0xE004)
  | 4 => if b.confirmed then b.advance 8 36 (imgKeyRev b.runningImage) o.stuck else (b, 0xE004)
  | 5 => if b.sec.uncalibrated then (b, 0xE007) else b.advance 7 32 calGen o.stuck
  | 6 => b.fieldClose o.stuckMask
  | _ => (b, 0xE001)

/-- The key that commands 3 to 6 need. -/
def securityKey : Nat := 0x46555345

/-! ### Quote (R473) -/

/-- The running image is the one on trial (R464, R465). -/
def Bar.runsTrial (b : Bar) : Bool := b.sec.anchor.trial && b.sec.running = some b.sec.anchor.preferred

/-- FLAGS of a quote. -/
def Bar.quoteFlags (b : Bar) : Nat :=
  b2n b.fieldClosed + b2n b.sec.uncalibrated * 2 + b2n b.sec.recovery * 4 + b2n (b.sec.groupsDefault ≠ 0) * 8
    + b2n b.runsTrial * 16

/-- The bytes of the parameter image in force: the newest valid one, or an empty one where a start took the defaults. DESIGN CHOICE
(log 157): R473 does not say what is digested without an image. -/
def Bar.paramImage (b : Bar) : List Byte :=
  let entries := match b.persist.newest with
    | some i => if b.persist.refused then [] else i.values
    | none => []
  Config.paramImageBytes (entries.map fun e => (e.1, match e.2 with | .num n => leBytes 8 (unsigned 64 n) | .raw bs => bs))

def Bar.quoteBody (b : Bar) : List Byte :=
  let img := b.runningImage
  let cal := b.sec.calSlots[b.sec.calActive % 2]'(Nat.mod_lt _ (by omega))
  leBytes 4 0x54515852 ++ leBytes 2 1 ++ leBytes 2 b.quoteFlags ++ leBytes 8 b.uid ++ leBytes 4 b.saf.ret.boots
    ++ leBytes 1 (match b.sec.running with | some s => b2n s | none => 0xFF) ++ zeros 3 ++ leBytes 8 b.now
    ++ padTo 32 (b.par.rw.rawAt 0x2E40 1) ++ leBytes 4 (imgVersion img) ++ leBytes 4 b.sec.romVersion
    ++ leBytes 2 b.svnCounter ++ leBytes 2 (imgSvn img) ++ leBytes 2 b.keyRevCounter ++ leBytes 2 b.calGenCounter
    ++ (Config.sha512 img).toList ++ (if cal = [] then zeros 64 else (Config.sha512 cal).toList)
    ++ (Config.sha512 (b.sec.hubStart.flatMap (leBytes 8))).toList
    ++ (Config.sha512 b.paramImage).toList ++ zeros 48

/-- A new quote, signed with the identity key; none if the key is not available. -/
def Bar.quote (b : Bar) : Option (List Byte) :=
  if b.idAvailable then
    let body := b.quoteBody
    some (body ++ (Config.ecdsaSign b.idKey (Config.sha512 body).toList).toList)
  else none

end Sys2Proof.Machine
end

