-- ==== Sys2Proof/Machine/Exposure.lean ====
section
/-! DEFINITION. Contexts, exposures and the thermal cap (R110 to R121), and the parameter set of a line (R44). -/

namespace Sys2Proof.Machine

def Bar.modCap (b : Bar) (f : Capture → Capture) : Bar := { b with cap := f b.cap }

/-- A parameter of a set, as an integer and as a natural number. -/
def Bar.pI (b : Bar) (st : Store) (index sub : Nat) : Int := st.numAt b.segs index sub
def Bar.pN (b : Bar) (st : Store) (index sub : Nat) : Nat := (st.numAt b.segs index sub).toNat

/-- The set live at line n (R44). -/
def Bar.setAt (b : Bar) (n : Nat) : Store :=
  match b.cap.sets.find? fun s => s.line ≤ n with | some s => s.values | none => b.par.live

/-- The generation live at line n. -/
def Bar.genAt (b : Bar) (n : Nat) : Nat :=
  match b.cap.sets.find? fun s => s.line ≤ n with | some s => s.gen | none => b.par.liveGen

/-- The record of line n of the session. -/
def Bar.line? (b : Bar) (n : Nat) : Option LineRec := b.cap.lineLog.find? (·.n = n)

/-- T_Lmin of R62. -/
def Bar.tLmin (b : Bar) (st : Store) : Nat := ceilDiv 1000000000 (b.pN st 0x2301 3)

/-- Pattern length and the context at a position (R110). -/
def Bar.patLen (b : Bar) (st : Store) : Nat := max 1 (min 4 (b.pN st 0x2214 1))
def Bar.patCtx (b : Bar) (st : Store) (j : Nat) : Nat := b.pN st 0x2214 (2 + j) % 4
/-- Contexts the pattern uses. -/
def Bar.patContexts (b : Bar) (st : Store) : List Nat :=
  (List.range 4).filter fun k => (List.range (b.patLen st)).any fun j => b.patCtx st j = k

/-- C_cap and n_P of a class P step (Table 14-3). -/
def capTable : List (Nat × Nat) :=
  [(4095, 32), (3850, 28), (3500, 24), (3150, 20), (2800, 16), (2450, 14), (2100, 12), (1750, 10), (1400, 8)]
def cCap (step : Nat) : Nat := (capTable.getD step (1400, 8)).1
def nProgram (step : Nat) : Nat := (capTable.getD step (1400, 8)).2

def Bar.expo (b : Bar) (st : Store) (k band : Nat) : Nat := b.pN st (0x2210 + k) (1 + band)
/-- Mode, width and setpoint of strobe o of context k. -/
def Bar.strobeMode (b : Bar) (st : Store) (k o : Nat) : Nat := b.pN st (0x2210 + k) (5 + 2 * o)
def Bar.strobeW (b : Bar) (st : Store) (k o : Nat) : Nat := b.pN st (0x2210 + k) (6 + 2 * o)
def Bar.setpoint (b : Bar) (st : Store) (k o : Nat) : Nat := b.pN st (0x2210 + k) (9 + o)
/-- The setpoint after the cap. -/
def Bar.effSetpoint (b : Bar) (st : Store) (k o step : Nat) : Nat := min (b.setpoint st k o) (cCap step)

/-- The outputs context k strobes with a setpoint above 0. -/
def Bar.strobed (b : Bar) (st : Store) (k : Nat) : List Nat :=
  [0, 1].filter fun o => b.strobeMode st k o ≠ 0 && decide (0 < b.setpoint st k o)

/-- ρ_k (R118) as a fraction: the output with the largest setpoint has the smallest ratio. -/
def Bar.rho (b : Bar) (st : Store) (k step : Nat) : Nat × Nat :=
  let d := ((b.strobed st k).map fun o => b.setpoint st k o).foldl max 0
  if d = 0 then (1, 1) else (min d (cCap step), d)

/-- The exposures and widths in effect and the residual light of a context (R118, R119). -/
structure Light where
  e : List Nat                      -- E′ by band
  ek : Nat                          -- E′_k
  w : List Nat                      -- W′ by output
  g15 : Nat
  limited : Bool

/-- The smaller of two fractions. -/
def minFrac (a c : Nat × Nat) : Nat × Nat := if c.1 * a.2 < a.1 * c.2 then c else a

/-- The light of a context at a step. g in units of 2⁻¹⁵ is rounded down (DESIGN CHOICE, log entry 109: R132 states no
rounding). -/
def Bar.light (b : Bar) (st : Store) (k step : Nat) : Light :=
  let (rn, rd) := b.rho st k step
  let comp := b.pN st (0x2210 + k) 0x0B = 1
  let most := b.tLmin st - 200
  let e := (List.range 4).map fun band => if comp then min (b.expo st k band * rd / rn) most else b.expo st k band
  let ek := e.foldl max 0
  let w := [0, 1].map fun o => if comp then min (b.strobeW st k o * rd / rn) ek else b.strobeW st k o
  let ratios := (b.strobed st k).flatMap fun o => (List.range 4).map fun band =>
    let e0 := b.expo st k band
    let e1 := e.getD band 0
    let (before, after) := if b.strobeMode st k o = 2 then (min (b.strobeW st k o) e0, min (w.getD o 0) e1) else (e0, e1)
    (after * b.effSetpoint st k o step, before * b.setpoint st k o)
  let g := ratios.foldl minFrac (1, 1)
  { e := e, ek := ek, w := w, g15 := g.1 * 2 ^ 15 / g.2, limited := decide (g.1 * 256 < 255 * g.2) }

/-- 0x2210 + k:0C. -/
def Bar.compState (b : Bar) (k : Nat) : Nat :=
  let l := b.light b.par.live k b.cap.pstep
  min 65535 l.g15 + b.cap.pstep * 65536 + b2n l.limited * 2 ^ 20

/-- Γ_k in units of 2⁻¹⁵ (R153). -/
def Light.gamma (l : Light) : Nat := if l.limited then (if l.g15 = 0 then 2 ^ 15 else 2 ^ 30 / l.g15) else 2 ^ 15

/-- The light of a line. -/
def Bar.lightAt (b : Bar) (l : LineRec) : Light := b.light (b.setAt l.n) l.ctx l.pstep

/-- The code written to a DAC output (R117). -/
def Bar.dacCode (b : Bar) (st : Store) (seg o k step : Nat) : Nat :=
  min 4095 (b.effSetpoint st k o step * b.pN st 0x2216 (2 * seg + o + 1) / 1024)

/-- SPEED_ADVICE (R406). -/
def Bar.speedAdvice (b : Bar) : Nat :=
  let st := b.par.live
  ((List.range 4).filter fun k => (b.light st k b.cap.pstep).limited).foldl (fun best k =>
    let (rn, rd) := b.rho st k b.cap.pstep
    let es := (List.range 4).map fun band => ceilDiv (b.expo st k band * rd) rn
    let ws := ([0, 1].filter fun o => b.strobeMode st k o = 2).map fun o => ceilDiv (b.strobeW st k o * rd) rn
    let need := (es ++ ws).foldl max 0
    min best (1000000000 / (need + 200) / 10)) 0xFFFF

/-! ### Modes of capture -/

def Bar.dpi600 (b : Bar) : Bool := b.rwN 0x2200 1 = 1
def Bar.reverse (b : Bar) : Bool := b.rwN 0x2200 2 = 1
/-- Binning m. -/
def Bar.binM (b : Bar) (st : Store) : Nat := max 1 (b.pN st 0x2200 6)
/-- The column-mirror setting (R12). -/
def Bar.mirror (b : Bar) : Bool := b.rwN 0x2100 1 = 1
def Bar.columns (b : Bar) : Nat := segCols * b.segs
/-- A host column's physical column and back. -/
def Bar.physCol (b : Bar) (c : Nat) : Nat := if b.mirror then b.columns - 1 - c else c

/-- Conversions per line of a row mode (Table 2-3). -/
def modeConversions (mode : Nat) : Nat := match mode with | 1 | 3 => 2 | 2 => 4 | _ => 1
/-- Completion delay of a row mode. -/
def modeDelay (mode p : Nat) (reverse : Bool) : Nat :=
  if reverse then 0 else match mode with | 1 | 3 => 1 | 2 => 3 | 4 => p - 1 | _ => 0
/-- Rows a sample takes in a mode other than CONTEXT. -/
def modeRows (mode : Nat) : Nat := match mode with | 1 | 3 => 2 | 2 => 4 | _ => 1
/-- Does a line at pattern position `ppos` convert row r (in steps of the resolution) of a band under a set (R58, R59)? -/
def Bar.rowConverted (b : Bar) (st : Store) (band r ppos : Nat) : Bool :=
  let mode := b.pN st 0x2201 (1 + band)
  if mode = 4 then r = (if b.reverse then b.patLen st - 1 - ppos else ppos) else decide (r < modeRows mode)

/-- Sample-line offset of a band in half lines (Table 2-2). -/
def Bar.bandOffset (b : Bar) (band : Nat) : Int :=
  let base : Int := match band with | 0 => -18 | 1 => -6 | 2 => 6 | _ => 18
  let o := if b.dpi600 then base / 2 else base
  if b.reverse then -o else o

/-- A of R60: lines after its trigger at which an output line is complete. -/
def Bar.completeAfter (b : Bar) (st : Store) : Nat :=
  ((List.range 4).map fun band =>
    let up := -((-(b.bandOffset band)) / 2)
    (up + (modeDelay (b.pN st 0x2201 (1 + band)) (b.patLen st) b.reverse : Int)).toNat).foldl max 0

end Sys2Proof.Machine
end

