-- ==== Sys2Proof/Machine/Pipeline.lean ====
section
/-! DEFINITION. The image pipeline (chapter 5): stages 1 to 10 as functions of the lines the hub holds. A value is an
`Option Nat`, none where it is void. Columns are physical unless a name says host. -/

namespace Sys2Proof.Machine

/-! ### Calibration store (R136, R142 to R145, Table 5-3) -/

/-- The store in use; empty while the bar runs on defaults. -/
def Bar.calStore (b : Bar) : List Byte :=
  if b.sec.uncalibrated then [] else b.sec.calSlots[b.sec.calActive % 2]'(Nat.mod_lt _ (by omega))

def calFlags (f : List Byte) : Nat := leAt f 0x14 4
def calSegments (f : List Byte) : Nat := leAt f 6 2
def calGeneration (f : List Byte) : Nat := leAt f 8 4
/-- Where section C begins. -/
def calSectionC (f : List Byte) : Nat := 0x40 + calSegments f * 81920 * (if bit (calFlags f) 1 then 2 else 1)

/-- Q_k of R54. -/
def rangeStart (k : Nat) : Nat := 512 * (2 ^ k - 1)
/-- The code of a charge in e⁻, pedestal included (R54). -/
def adcCode (q : Nat) : Nat :=
  let k := (q / 512 + 1).log2
  if 130560 ≤ q then 4095 else 512 * k + (q - rangeStart k) / 2 ^ k

/-- The ideal factory table (R136). -/
def idealTable (code : Nat) : Nat :=
  let k := code / 512
  8 * (rangeStart k + (code - 512 * k) * 2 ^ k) + 4 * (2 ^ k - 1)

/-- The pedestal p. -/
def Bar.pedestal (b : Bar) : Nat := if b.calStore = [] then 256 else leAt b.calStore 0x0C 4
/-- Table entry of a segment, set and band (4: DARK). A context that is live on set 1 when a store without user tables is
taken into use reads the factory set: the spec states nothing for it (DESIGN CHOICE, log entry 107). -/
def Bar.table (b : Bar) (set seg band code : Nat) : Nat :=
  let set := if bit (calFlags b.calStore) 1 then set else 0
  if b.calStore = [] then idealTable code
  else leAt b.calStore (0x40 + (set * calSegments b.calStore + seg) * 81920 + band * 16384 + code * 4) 4
/-- Dark offset and gain of a segment's column, and the band's exponent. -/
def Bar.colOffset (b : Bar) (seg band col : Nat) : Int :=
  if b.calStore = [] then 0 else signed 16 (leAt b.calStore (calSectionC b.calStore + seg * 122880 + band * 30720 + col * 4) 2)
def Bar.colGain (b : Bar) (seg band col : Nat) : Nat :=
  if b.calStore = [] then 32768 else leAt b.calStore (calSectionC b.calStore + seg * 122880 + band * 30720 + col * 4 + 2) 2
def Bar.bandExp (b : Bar) (band : Nat) : Nat := if b.calStore = [] then 15 else leAt b.calStore (0x10 + band) 1

/-! ### Windows (R66) and the tiles a line converts (R68) -/

/-- Column range and frame of every item that has one (R66): host columns, first line, end if it has closed. -/
def Bar.itemFrames (b : Bar) : List (Nat × Nat × Nat × Nat) :=
  (b.cap.items.filter (·.started)).map fun i =>
    (b.pN i.laneSet 0x2500 (i.lane + 1), b.pN i.laneSet 0x2501 (i.lane + 1), i.s, i.f.getD 0xFFFFFFFFFFFFFFFF)

/-- Is host column c of line n windowed? `frames` are the open or closed item frames: (c0, c1, s, f). -/
def Bar.windowed (b : Bar) (st : Store) (frames : List (Nat × Nat × Nat × Nat)) (c n : Nat) : Bool :=
  let mask := b.pN st 0x2209 0
  mask = 0 || (List.range 16).any fun w =>
    bit mask w && decide (b.pN st 0x2205 (w + 1) ≤ c) && decide (c < b.pN st 0x2206 (w + 1)) &&
      match frames.find? fun f => decide (f.1 ≤ c) && decide (c < f.2.1) && decide (f.2.2.1 ≤ n) && decide (n < f.2.2.2) with
      | none => true
      | some f =>
        let y := n - f.2.2.1
        decide (b.pN st 0x2207 (w + 1) ≤ y) && (b.pN st 0x2208 (w + 1) = 0xFFFFFFFF || decide (y < b.pN st 0x2208 (w + 1)))

/-- Is host column c of output line n windowed, with the windows live at that line? -/
def Bar.windowedAt (b : Bar) (c n : Nat) : Bool := b.windowed (b.setAt n) b.itemFrames c n

/-- Some column of a segment's tile is windowed in a line. -/
def Bar.tileWindowed (b : Bar) (n seg tile : Nat) : Bool :=
  b.pN (b.setAt n) 0x2209 0 = 0 || (List.range 256).any fun i => b.windowedAt (b.physCol (segCols * seg + 256 * tile + i)) n

/-- Does a segment convert a tile in a line (R68)? For its own windows, for the seam exchange of the tile across a seam, or
for a line claimed for in-service test. -/
def Bar.tileConverted (b : Bar) (l : LineRec) (seg tile : Nat) : Bool :=
  l.ist || b.tileWindowed l.n seg tile || (tile = 29 && decide (seg + 1 < b.segs) && b.tileWindowed l.n (seg + 1) 0)
    || (tile = 0 && decide (0 < seg) && b.tileWindowed l.n (seg - 1) 29)

/-! ### The hub's segment lines -/

def Bar.segRec? (b : Bar) (seg n : Nat) : Option SegRec := b.cap.segLog.find? fun r => r.seg = seg && r.n = n

/-- The ADC code of a band's row and column in line n, if it was converted and kept. -/
def SegRec.code (r : SegRec) (band row col : Nat) : Option Nat :=
  match r.convs.find? fun c => c.band = band && c.row = row && decide (c.first ≤ col) && decide (col < c.first + c.codes.length) with
    | some c => c.codes[col - c.first]?
    | none => none

/-- The dark level of a tile after line n. -/
def SegRec.dark (r : SegRec) (tile : Nat) (dflt : Int) : Int :=
  match r.darks.find? (·.1 = tile) with | some (_, d) => d | none => dflt

/-- The slot in which a line converts a row of a band under a set, if it does (R55, R58, R59). -/
def Bar.rowSlot (b : Bar) (st : Store) (band row ppos : Nat) : Option Nat :=
  let r := if b.dpi600 then row / 2 else row
  if (b.dpi600 && row % 2 = 1) || !b.rowConverted st band r ppos then none
  else some (if b.pN st 0x2201 (1 + band) = 4 then 0 else r)

/-- The code a segment converts for a column of a row: none outside the tiles it converts (R68). A pixel whose signal no command
carries, as in a line that is lost on its way, has a FREE one (log 49): the segment converts it all the same. -/
def Bar.convertedCode (b : Bar) (l : LineRec) (r : SegRec) (band row col : Nat) : Option Nat :=
  match r.code band row col with
  | some c => some c
  | none =>
    if b.tileConverted l r.seg (col / 256) then some (adcCode (Config.unseenSignal l.n r.seg band row col + 32).toNat) else none

/-- A line's code, none where its set does not convert the row (R61), where the line is void, being dropped or US (R105),
or lost to ADC_OVERRUN (R57). -/
def Bar.codeAt (b : Bar) (seg : Nat) (n : Int) (band row col : Nat) : Option Nat :=
  if n < 0 then none
  else match b.segRec? seg n.toNat, b.line? n.toNat with
    | some r, some l =>
      let at_ := if b.dpi600 then row / 2 else row
      if l.dropped || l.us || bit l.adcOverrun seg || !b.rowConverted (b.setAt l.n) band at_ l.ppos then none else b.convertedCode l r band row col
    | _, _ => none

/-! ### Stages 1 to 4 -/

/-- A sample as stages 1 and 2 leave it: value in 1/8 e⁻, pedestals held, saturated, the line its parameters come
from. -/
structure Sample where
  v : Int
  pedestals : Nat
  sat : Bool
  line : Nat

/-- The dual-exposure merge (R139), clamped to 25 bits (R135). -/
def dualMerge (p ratio b0 b1 : Int) (longCode : Nat) (l s : Int) : Int :=
  let scaled := (s - p) * ratio + p
  let w : Int := if longCode = 4095 || b1 ≤ l then 256 else if l < b0 then 0 else (l - b0) * 256 / (b1 - b0)
  clampI 0 0x1FFFFFF (l + (scaled - l) * w / 256)

/-- Every line of a repetition with its first line F runs its P lines (R112). -/
def Bar.repetitionWhole (b : Bar) (first p : Nat) : Bool :=
  (List.range p).all fun j => match b.line? (first + j) with | some l => l.ppos = j && !l.trunc | none => false

/-- The sample of a band at sample line m, for output context k in CONTEXT mode, if every row it needs was converted (R50,
R58, R59, R61). -/
def Bar.sample (b : Bar) (seg band col : Nat) (m : Int) (k : Nat) : Option Sample :=
  if m < 0 then none
  else match b.line? m.toNat with
    | none => none
    | some l0 =>
      let st := b.setAt l0.n
      let mode := b.pN st 0x2201 (1 + band)
      let step := if b.dpi600 then 2 else 1
      let at_ (r : Nat) : Int := if b.reverse then m - r else m + r
      let row (r : Nat) : Option (Nat × Nat) :=
        if at_ r < 0 then none
        else match b.codeAt seg (at_ r) band (step * r) col, b.line? (at_ r).toNat with
          | some c, some l => some (c, b.table (b.pN (b.setAt l.n) (0x2410 + l.ctx) 1) seg band c)
          | _, _ => none
      let sum (n : Nat) : Option Sample := do
        let rs ← (List.range n).mapM row
        return ⟨((rs.map (·.2)).sum : Nat), n, rs.any (·.1 = 4095), l0.n⟩
      match mode with
      | 1 => sum 2
      | 2 => sum 4
      | 3 => do
        let (lc, lv) ← row 0
        let (sc, sv) ← row 1
        let ctx := 0x2410 + l0.ctx
        return ⟨dualMerge b.pedestal (b.pN st 0x2202 (1 + band)) (b.pN st ctx 2) (b.pN st ctx 3) lc lv sv, 1, sc = 4095, l0.n⟩
      | 4 =>
        let p := b.patLen st
        let first := l0.n - l0.ppos
        match (List.range p).find? fun j => b.patCtx st j = k with
        | none => none
        | some j =>
          if b.repetitionWhole first p then
            let r := (if b.reverse then p - 1 - j else j) * step
            match b.codeAt seg (first + j : Nat) band r col, b.line? (first + j) with
            | some c, some l => some ⟨(b.table (b.pN (b.setAt l.n) (0x2410 + l.ctx) 1) seg band c : Nat), 1, c = 4095, l.n⟩
            | _, _ => none
          else none
      | _ => sum 1

/-- The largest value of U4.20, and white. -/
def u420Max : Nat := 0xFFFFFF

/-- Stages 3 and 4 (R141, R142): dark level and column correction. The pair says whether the sample saturated. -/
def Bar.stage4 (b : Bar) (seg band col : Nat) (m : Int) (k : Nat) : Option (Nat × Bool) :=
  match b.sample seg band col m k with
  | none => none
  | some s =>
    if s.sat then some (u420Max, true)
    else match b.line? s.line, b.segRec? seg s.line with
      | some l, some r =>
        let li := b.lightAt l
        let p : Int := b.pedestal
        let d := r.dark (col / 256) p
        let corr : Int := s.pedestals * (p + (d - p) * (li.e.getD band 0 : Nat) / (max 1 li.ek : Nat))
        let x := clampI (-0x2000000) 0x1FFFFFF (s.v - corr)
        let n2 := if s.pedestals = 4 then 2 else if s.pedestals = 2 then 1 else 0
        let y := ((x - s.pedestals * b.colOffset seg band col) * b.colGain seg band col) / (2 ^ (b.bandExp band + n2) : Nat)
        some ((clampI 0 u420Max y).toNat, false)
      | _, _ => none

/-! ### Stages 5 and 6 -/

/-- Seam offsets of a segment, 0 where refused (R69, R70). -/
def Bar.seamDx (b : Bar) (s : Nat) : Int := if s = 0 then 0 else (b.cap.segs[s % 8]'(Nat.mod_lt s (by omega))).dx
def Bar.seamDy (b : Bar) (s : Nat) : Int := if s = 0 then 0 else (b.cap.segs[s % 8]'(Nat.mod_lt s (by omega))).dy

/-- A stage-4 value by physical bar column. -/
def Bar.stage4Col (b : Bar) (band : Nat) (c : Nat) (m : Int) (k : Nat) : Option (Nat × Bool) :=
  b.stage4 (c / segCols) band (c % segCols) m k

/-- Position of a physical column in 1/64 column. -/
def Bar.colPos (b : Bar) (c : Nat) : Int := 64 * (c : Int) + b.seamDx (c / segCols)

/-- Is output line n void in a segment's columns, lost with a malformed segment line (R162)? Of a dropped line no segment line
comes; its number as an output line loses nothing by that, only the samples that need its trigger (R105). -/
def Bar.lineVoid (b : Bar) (seg n : Nat) : Bool :=
  match b.line? n with
  | none => true
  | some l => !l.dropped && (match b.segRec? seg n with | some r => r.voided | none => true)

/-- A stage-4 value as stage 5 of segment `own` gets it: another segment's comes over the seam exchange, and with a line whose words
were lost it is void (DEDUCED, log 49: R162 fills pixels and coded blocks only). -/
def Bar.seamCol (b : Bar) (own band c : Nat) (m : Int) (k : Nat) : Option (Nat × Bool) :=
  if c / segCols ≠ own && (decide (m < 0) || b.lineVoid (c / segCols) m.toNat) then none else b.stage4Col band c m k

/-- Stage 5 (R146): within four columns of a seam, interpolation between the columns either side of the target. -/
def Bar.stage5 (b : Bar) (band c : Nat) (m : Int) (k : Nat) : Option (Nat × Bool) :=
  let j := (c + 4) / segCols
  let lo := segCols * j - 4
  if 1 ≤ j && decide (j < b.segs) && decide (lo ≤ c) && decide (c < lo + 8) then
    let i : Int := (c : Int) - segCols * j
    let dx0 := b.seamDx (j - 1)
    let delta := b.seamDx j - dx0
    let u := 64 * (c : Int) + dx0 + (delta * (i + 5) + 4) / 9
    let own := if i < 0 then j - 1 else j
    let cols := (List.range 24).map fun x => segCols * j - 12 + x
    let better (p : Int → Int → Bool) (best : Option Nat) (x : Nat) : Option Nat :=
      match best with
      | none => some x
      | some y => if p (b.colPos x) (b.colPos y) || (b.colPos x = b.colPos y && x / segCols = own) then some x else best
    let below := (cols.filter fun x => b.colPos x ≤ u).foldl (better fun a c => decide (c < a)) none
    match below with
    | none => none
    | some a =>
      let above := (cols.filter fun x => b.colPos a < b.colPos x).foldl (better fun a c => decide (a < c)) none
      match above with
      | none => none
      | some d =>
        match b.seamCol own band a m k, b.seamCol own band d m k with
        | some (va, sa), some (vd, sd) =>
          let v : Int := va + ((vd : Int) - va) * (u - b.colPos a) / (b.colPos d - b.colPos a)
          some ((clampI 0 u420Max v).toNat, sa || sd)
        | _, _ => none
  else b.stage4Col band c m k

/-- Mean of two values, void if either is (R52, R149). DEDUCED (log 52): it is truncated, which neither rule says. -/
def meanOf (x y : Option (Nat × Bool)) : Option (Nat × Bool) :=
  match x, y with
  | some (a, s), some (c, t) => some ((a + c) / 2, s || t)
  | _, _ => none

/-- The trigger of a band's sample at sample line m: in CONTEXT mode the line of context k in m's repetition (R59). Of a sample of
several rows it is that of row 0; a stolen line that only a later row falls on gives ordinary data (DESIGN CHOICE, log 66: R149
speaks of a sample's trigger as one). -/
def Bar.sampleTrigger (b : Bar) (band : Nat) (m : Int) (k : Nat) : Option LineRec :=
  match (if m < 0 then none else b.line? m.toNat) with
  | none => none
  | some l =>
    let st := b.setAt l.n
    if b.pN st 0x2201 (1 + band) = 4 then
      match (List.range (b.patLen st)).find? fun j => b.patCtx st j = k with
      | some j => b.line? (l.n - l.ppos + j)
      | none => none
    else some l

/-- A band's sample at sample line m in stage 6: one whose trigger was stolen is replaced (R149). -/
def Bar.bandSample (b : Bar) (band c : Nat) (m : Int) (k : Nat) : Option (Nat × Bool) :=
  match b.sampleTrigger band m k with
  | some l =>
    if l.ist then
      let p : Int := b.patLen (b.setAt l.n)
      meanOf (b.stage5 band c (m - p) k) (b.stage5 band c (m + p) k)
    else b.stage5 band c m k
  | none => none

/-- Band registration (R51, R52). -/
def Bar.registered (b : Bar) (band c : Nat) (n : Int) (k : Nat) : Option (Nat × Bool) :=
  let o := b.bandOffset band
  let twice := 2 * n + o
  if twice % 2 = 0 then b.bandSample band c (twice / 2) k
  else meanOf (b.bandSample band c (twice / 2) k) (b.bandSample band c (twice / 2 + 1) k)

/-- Stage 6 (R147): the seam shift along-track. -/
def Bar.stage6 (b : Bar) (band c n k : Nat) : Option (Nat × Bool) :=
  if b.lineVoid (c / segCols) n then none else
  let dy := b.seamDy (c / segCols)
  let v := b.registered band c n k
  if dy = 0 then v
  else
    let den : Int := if b.dpi600 then 128 else 64
    let n' : Int := if (decide (0 < dy)) != b.reverse then n + 1 else n - 1
    match v, b.registered band c n' k with
    | some (a, s), some (d, t) =>
      let w128 : Int := (dy.natAbs : Int) * 128 / den
      some ((clampI 0 u420Max (a + ((d : Int) - a) * w128 / 128)).toNat, s || t)
    | _, _ => none

/-! ### Stages 7 to 10 -/

/-- Stage 6's value of a host column; outside the windows it is discarded (R68). -/
def Bar.pixel (b : Bar) (band c n k : Nat) : Option (Nat × Bool) :=
  if b.windowedAt c n then b.stage6 band (b.physCol c) n k else none

/-- Stage 7's bin (R150), host columns [m·j, m·j + m). -/
def Bar.bin (b : Bar) (st : Store) (band j n k : Nat) : Option (Nat × Bool) :=
  let m := b.binM st
  let vs := (List.range m).map fun i => b.pixel band (m * j + i) n k
  if vs.any (·.isNone) then none
  else
    let xs := vs.filterMap id
    some ((xs.map (·.1)).sum / m, xs.any (·.2))

/-- The truncated mean of the non-void values of a box (R152). -/
def boxMean (vs : List (Option (Nat × Bool))) : Option (Nat × Bool) :=
  let xs := vs.filterMap id
  if xs.isEmpty then none else some ((xs.map (·.1)).sum / xs.length, xs.any (·.2))

/-- The gains of a band of output line n: white balance and Γ as they were live at the trigger of the band's sample (R53,
R153); at a half-integer sample line, at that of the earlier sample (DESIGN CHOICE, log entry 106). -/
def Bar.gainsAt (b : Bar) (band n k : Nat) : Nat × Nat :=
  match (b.sampleTrigger band ((2 * (n : Int) + b.bandOffset band) / 2) k).orElse fun _ => b.line? n with
  | some l => (b.pN (b.setAt l.n) (0x2410 + l.ctx) (4 + band), (b.lightAt l).gamma)
  | none => (4096, 32768)

/-- Stage 8 (R153): white balance and illumination gain of one band. -/
def stage8 (gains : Nat × Nat) (v : Nat) : Nat := min u420Max ((v * gains.1 / 4096 * gains.2) / 32768)

/-- A box of fx bins from bin j on, over lines of context k: one band's stage-8 value (R151 to R153). Where the band's
samples of the box were taken under different gains, each is scaled by its own before the mean (DESIGN CHOICE, log entry
106). -/
def Bar.boxBand (b : Bar) (st : Store) (lines : List Nat) (k fx j band : Nat) : Option (Nat × Bool) :=
  let bins (n : Nat) : List (Option (Nat × Bool)) := (List.range fx).map fun i => b.bin st band (j * fx + i) n k
  let gains := lines.map fun n => b.gainsAt band n k
  let g := gains.headD (4096, 32768)
  if gains.all (· = g) then (boxMean (lines.flatMap bins)).map fun v => (stage8 g v.1, v.2)
  else boxMean (lines.flatMap fun n => (bins n).map fun v => v.map fun v => (stage8 (b.gainsAt band n k) v.1, v.2))

/-- The four stage-8 values of a box. -/
def Bar.boxBands (b : Bar) (lines : List Nat) (k fx j : Nat) : List (Option (Nat × Bool)) :=
  let st := b.setAt (lines.headD 0)
  (List.range 4).map fun band => b.boxBand st lines k fx j band

/-- Stage 9 (R154): channel i. -/
def Bar.channel (b : Bar) (st : Store) (k i : Nat) (bands : List (Option (Nat × Bool))) : Option Nat :=
  let a (j : Nat) : Int := b.pI st (0x2418 + k) (4 * i + j + 1)
  if (List.range 4).any fun j => a j ≠ 0 && (bands.getD j none).isNone then none
  else
    let s := (List.range 4).foldl (fun (s : Int) j => s + a j * (match bands.getD j none with | some (v, _) => (v : Int) | none => 0)) 0
    some (clampI 0 u420Max (s / 4096 + 256 * b.pI st (0x2418 + k) (17 + i))).toNat

/-- The input value of node i of a tone curve (R155). -/
def nodeInput (i : Nat) : Nat :=
  if i < 64 then 16 * i else if 960 ≤ i then 2 ^ 24 else 2 ^ (9 + i / 64) + (i % 64) * 2 ^ (3 + i / 64)

/-- Does the sRGB value of x / 2²⁰ reach t / 131,070, that is (t/2) / 65,535? On the power part F = 1.055·x^(1/2.4) −
0.055, compared exactly by (200·t + 11·131,070)^12 ≤ (211·131,070)^12 · x^5 / 2^100; the linear part is 12.92·x. -/
def srgbReaches (x t : Nat) : Bool :=
  if x * 10000000 ≤ 31308 * 2 ^ 20 then decide (t * 100 * 2 ^ 20 ≤ 1292 * x * 131070)
  else decide ((200 * t + 11 * 131070) ^ 12 * 2 ^ 100 ≤ (211 * 131070) ^ 12 * x ^ 5)

/-- The largest t with a monotone property, by bits from `fuel` down. -/
def largest (p : Nat → Bool) : Nat → Nat → Nat
  | 0, acc => acc
  | fuel + 1, acc => largest p fuel (if p (acc + 2 ^ fuel) then acc + 2 ^ fuel else acc)

/-- The default curve's node: ⌊65,535·F(x) + 0.5⌋. -/
def srgbNode (i : Nat) : Nat :=
  let x := min (nodeInput i) (2 ^ 20)
  largest (fun n => srgbReaches x (2 * n - 1)) 16 0

/-- A node of the live curve of channel i of context k. -/
def Bar.node (_ : Bar) (st : Store) (k i j : Nat) : Nat :=
  match st.rawAt (0x2420 + k) (i + 1) with
  | [] => srgbNode j
  | bs => leAt bs (2 * j) 2

/-- Stage 10 (R155). -/
def Bar.tone (b : Bar) (st : Store) (k i v : Nat) : Nat :=
  let (n, f, q) :=
    if v < 1024 then (v / 16, v % 16, 16)
    else
      let e := v.log2
      let q := 2 ^ (e - 6)
      (64 * (e - 9) + (v - 2 ^ e) / q, (v - 2 ^ e) % q, q)
  let a : Int := b.node st k i n
  let c : Int := b.node st k i (n + 1)
  (a + (c - a) * f / q).toNat

/-! ### Stream formats (R158 to R160) -/

/-- L16 of a channel. -/
def l16 (h v : Nat) : Nat := min 65535 ((v + 2 ^ (3 + h)) / 2 ^ (4 + h))

/-- L12C of an L16 value. -/
def l12c (x : Nat) : Nat :=
  if x < 1024 then x else let j := x.log2; 1024 + 512 * (j - 10) + (x - 2 ^ j) / 2 ^ (j - 9)

/-- Pairs of 12-bit codes in three bytes. -/
def packL12 : List Nat → List Byte
  | [] => []
  | [a] => [BitVec.ofNat 8 a, BitVec.ofNat 8 (a / 256), 0]
  | a :: c :: rest => BitVec.ofNat 8 a :: BitVec.ofNat 8 (c % 16 * 16 + a / 256) :: BitVec.ofNat 8 (c / 16) :: packL12 rest

/-- DISPLAY's byte. -/
def display8 (t : Nat) : Nat := min 255 ((t + 128) / 256)

/-- A CODING sample at depth d. -/
def codingSample (d t : Nat) : Nat := if d = 16 then t else min (2 ^ d - 1) ((t + 2 ^ (15 - d)) / 2 ^ (16 - d))

end Sys2Proof.Machine
end

