-- ==== Sys2Proof/Machine/Streams.lean ====
section
/-! DEFINITION. The VISION, DISPLAY and CODING streams (R151, R152, R156 to R161, R239, R271): boxes of lines, line
descriptors, stream lines and archive chunks. -/

namespace Sys2Proof.Machine

/-- Base object of a stream: 0 VISION, 1 DISPLAY, 2 CODING. -/
def streamObj (s : Nat) : Nat := 0x2430 + s

/-- Lines per inch along-track. -/
def Bar.lineRes (b : Bar) : Nat := if b.dpi600 then 600 else 1200
/-- f_x and f_y for a resolution (R151). -/
def Bar.fx (b : Bar) (st : Store) (res : Nat) : Nat := if res = 0 then 1 else max 1 (1200 / b.binM st / res)
def Bar.fy (b : Bar) (res : Nat) : Nat := if res = 0 then 1 else max 1 (b.lineRes / res)

def Bar.streamRes (b : Bar) (st : Store) (s : Nat) : Nat := b.pN st (streamObj s) 2
def Bar.streamOn (b : Bar) (st : Store) (s : Nat) : Bool := b.pN st (streamObj s) 1 = 1
/-- Is context k routed to a stream? -/
def Bar.routed (b : Bar) (st : Store) (k s : Nat) : Bool := bit (b.pN st (0x2410 + k) 9) s
def Bar.chanCount (b : Bar) (st : Store) (k : Nat) : Nat := b.pN st (0x2410 + k) 8

/-- Line timing flags of a line (Table 3-4). -/
def LineRec.ltf (l : LineRec) : Nat := b2n l.dr + b2n l.us * 2 + b2n l.dl * 4 + b2n l.td * 8

/-- The stream pixels of a crop: first bins. -/
def Bar.streamPixels (b : Bar) (st : Store) (s fx : Nat) : List Nat :=
  let w := b.binM st * fx
  let p0 := b.pN st (streamObj s) 4 / w
  (List.range (b.pN st (streamObj s) 5 / w - p0)).map (p0 + ·)

/-- Is some column of some line of a stream pixel windowed? -/
def Bar.pixelWindowed (b : Bar) (lines : List Nat) (w j : Nat) : Bool :=
  lines.any fun n => (List.range w).any fun i => b.windowedAt (j * w + i) n

/-- The void bands of a whole line: some column of the crop is windowed, and none of those has a value (R148, R156). -/
def Bar.bandMissing (b : Bar) (st : Store) (k fx : Nat) (pixels : List Nat) (band n : Nat) : Bool :=
  let inside := pixels.filter fun j => b.pixelWindowed [n] (b.binM st * fx) j
  !inside.isEmpty && inside.all fun j => (List.range fx).all fun i => (b.bin st band (j * fx + i) n k).isNone

/-- The lines whose registered values output line n takes: its own, and that of the seam shift (R147). -/
def Bar.shiftLines (b : Bar) (n : Nat) : List Int :=
  let dys := (List.range b.segs).map b.seamDy
  let up (dy : Int) : Bool := decide (0 < dy) != b.reverse
  (n : Int) :: (if dys.any fun dy => dy ≠ 0 && up dy then [(n : Int) + 1] else []) ++ (if dys.any fun dy => dy ≠ 0 && !up dy then [(n : Int) - 1] else [])

/-- A sample that band registration takes for line n, or for its seam shift, has a stolen trigger (R147, R149). -/
def Bar.istUsed (b : Bar) (n : Nat) : Bool :=
  let k := match b.line? n with | some l => l.ctx | none => 0
  (b.shiftLines n).any fun x => (List.range 4).any fun band =>
    let twice := 2 * x + b.bandOffset band
    [twice / 2, (twice + 1) / 2].any fun m => match b.sampleTrigger band m k with | some l => l.ist | none => false

/-- The line descriptor of a box (Table 5-4); `pix` holds its pixels' four stage-8 values, `bvoid` and `cvoid` its void
bands and channels. -/
def Bar.descriptor (b : Bar) (lines : List Nat) (short : Bool) (pix : List (List (Option (Nat × Bool)))) (bvoid cvoid : Nat) : List Byte :=
  let recs := lines.filterMap b.line?
  let first := recs.headD ⟨0, 0, 0, 0, none, false, false, false, false, false, false, false, false, 0, 0, false, 0, 0, false, false, 0, false⟩
  let last := recs.getLastD first
  let orAll (f : LineRec → Nat) : Nat := recs.foldl (fun a l => a ||| f l) 0
  let segMask (f : SegRec → Bool) : Nat := ((List.range b.segs).map fun s =>
    b2n (lines.any fun n => match b.segRec? s n with | some r => f r | none => !(b.cap.segs[s % 8]'(Nat.mod_lt s (by omega))).present) * 2 ^ s).sum
  let sat := pix.any fun p => p.any fun v => match v with | some (_, s) => s | none => false
  let word := orAll LineRec.ltf + first.ctx * 2 ^ 4 + bvoid * 2 ^ 6 + cvoid * 2 ^ 10 + b2n sat * 2 ^ 14
    + b2n (lines.any b.istUsed) * 2 ^ 15 + b2n (recs.any (·.crawl)) * 2 ^ 16 + b2n short * 2 ^ 17
    + (recs.map (·.pstep)).foldl max 0 * 2 ^ 18 + b2n (recs.any (·.limited)) * 2 ^ 22
    + segMask (·.voided) * 2 ^ 24 + segMask (·.malformed) * 2 ^ 32
  leBytes 8 last.n ++ leBytes 8 first.t ++ leBytes 2 first.gen ++ leBytes 6 word ++ leBytes 8 last.tx

/-- A stream line: its pixels' channels, by channel; unwindowed pixels are written as 0, whatever the tone curve, and are not
void (R156). Bands and channels that some line of the box lacks are marked. -/
structure BoxLine where
  bands : List (List (Option (Nat × Bool)))
  chans : List (Bool × List (Option Nat))    -- per pixel: is it windowed, and per channel stage 9
  bvoid : Nat
  cvoid : Nat

def Bar.boxLine (b : Bar) (lines : List Nat) (k s : Nat) : BoxLine :=
  let st := b.setAt (lines.headD 0)
  let fx := b.fx st (b.streamRes st s)
  let w := b.binM st * fx
  let c := b.chanCount st k
  let pixels := b.streamPixels st s fx
  let rows := pixels.map fun j =>
    let bands := b.boxBands lines k fx j
    if b.pixelWindowed lines w j then (bands, true, (List.range c).map fun i => b.channel st k i bands)
    else (bands, false, List.replicate c (some 0))
  let bvoid := (List.range 4).filter fun band => lines.any fun n => b.bandMissing st k fx pixels band n
  let cvoid := ((List.range c).map fun i =>
    b2n (bvoid.any fun j => b.pI st (0x2418 + k) (4 * i + j + 1) ≠ 0) * 2 ^ i).sum
  { bands := rows.map (·.1), chans := rows.map (·.2), bvoid := (bvoid.map fun band => 2 ^ band).sum, cvoid := cvoid }

/-- Pixels of a VISION line (R158). -/
def Bar.visionPixels (b : Bar) (st : Store) (x : BoxLine) : List Byte :=
  let h := b.pN st 0x2430 6
  let codes := x.chans.flatMap fun p => p.2.map fun v => match v with | some v => l16 h v | none => 0
  if b.pN st 0x2430 3 = 1 then packL12 (codes.map l12c) else codes.flatMap (leBytes 2)

/-- Pixels of a DISPLAY line (R159). -/
def Bar.displayPixels (b : Bar) (st : Store) (k : Nat) (x : BoxLine) : List Byte :=
  x.chans.flatMap fun p => (List.range 3).flatMap fun i =>
    match p.2.getD i none with | some v => if p.1 then leBytes 1 (display8 (b.tone st k i v)) else [0] | none => [0]

/-- The plane samples of a CODING line (R160), pixel by pixel for each plane. -/
def Bar.codingPlanes (b : Bar) (st : Store) (k : Nat) (x : BoxLine) : List (List (Option Nat)) :=
  let d := b.pN st 0x2432 6
  (List.range (b.pN st 0x2432 3)).map fun i => x.chans.map fun p =>
    (p.2.getD i none).map fun v => if p.1 then codingSample d (b.tone st k i v) else 0

/-! ### CODING block rows and chunks (R239, R271) -/

/-- The crop's bins that belong to a segment, as positions in the crop. -/
def Bar.segBins (b : Bar) (st : Store) (seg : Nat) : List Nat :=
  let fx := b.fx st (b.streamRes st 2)
  let w := b.binM st * fx
  let ps := b.streamPixels st 2 fx
  (List.range ps.length).filter fun i => b.physCol (ps.getD i 0 * w) / segCols = seg

/-- Check values of a PLITUR row: CRC-32C of a plane's source samples of the real lines (R243). -/
def plitCheck (d : Nat) (rows : List (List (Option Nat))) : Nat :=
  crc32c (rows.flatMap fun r => r.flatMap fun v => leBytes (ceilDiv d 8) (v.getD 0))

/-- The lines of a segment that a block row's boxes cover, as the hub took them. -/
def Bar.rowRecs (b : Bar) (seg : Nat) (lines : List CodLine) : List SegRec :=
  b.cap.segLog.filter fun r => r.seg = seg && lines.any fun l => decide (l.first ≤ r.n) && decide (r.n ≤ l.last)

/-- Error summaries of a plane with the FAULTs that the segment's replica reported (R242, Table 8-3). -/
def withFaults (faults : List (Nat × Nat)) (plane : Nat) (summaries : List Nat) : List Nat :=
  (List.range summaries.length).map fun g => if (plane, g) ∈ faults then 0xFFFF else summaries.getD g 0

/-- One segment's part of a chunk: blocks by plane, then summaries or check values; and what its replica found. Where coded
words of a line were missing, the hub writes VOID blocks; DEDUCED (log 133): for all the segment's blocks of the line's block
row (R162, R235). -/
def Bar.segCoding (b : Bar) (st : Store) (seg : Nat) (lines : List CodLine) : List Byte × List SbfRow :=
  let d := b.pN st 0x2432 6
  let r := b.pN st 0x2700 1
  let bins := b.segBins st seg
  let recs := b.rowRecs seg lines
  let filled := recs.any (·.filled)
  let rowsOf (p : Nat) : List (List (Option Nat)) :=
    lines.map fun l => bins.map fun i => if filled then none else (l.planes.getD p []).getD i none
  let pad (rs : List (List (Option Nat))) : List (List (Option Nat)) := rs ++ List.replicate (4 - rs.length) (rs.getLastD [])
  let planes := List.range (b.pN st 0x2432 3)
  let coded := planes.map fun p =>
    let c := sbfBlockRow d r (bins.length / 16) (pad (rowsOf p))
    { c with summaries := withFaults (recs.flatMap (·.faults)) p c.summaries }
  let side := if b.pN st 0x2700 2 = 1 then planes.flatMap fun p => leBytes 4 (plitCheck d (rowsOf p))
    else coded.flatMap fun c => c.summaries.flatMap (leBytes 2)
  (coded.flatMap (·.bytes) ++ side, coded)

/-- A block row of the CODING stream becomes a chunk for the archive and for the peers. -/
def Bar.emitChunk (b : Bar) (k : Nat) (lines : List CodLine) : Bar :=
  match lines.head?, lines.getLast? with
  | some l0, some l1 =>
    let st := b.setAt l0.first
    let segs := (List.range b.segs).filter fun s => !(b.segBins st s).isEmpty
    let parts := segs.map fun s => b.segCoding st s lines
    let body := lines.flatMap (·.desc) ++ parts.flatMap (·.1)
    let n := b.sto.nextChunk
    let head := leBytes 8 n ++ leBytes 4 b.sto.session ++ zeros 4 ++ leBytes 8 l0.first ++ leBytes 8 (l1.last + 1)
      ++ leBytes 2 (b.genAt l0.first) ++ leBytes 1 k ++ leBytes 1 lines.length ++ leBytes 1 (b.pN st 0x2432 3)
      ++ leBytes 1 (b.pN st 0x2432 6) ++ leBytes 1 (b.pN st 0x2700 1) ++ leBytes 1 (b.pN st 0x2700 2)
      ++ leBytes 2 (b.pN st 0x2432 4) ++ leBytes 2 (b.pN st 0x2432 5) ++ leBytes 2 (b.streamRes st 2)
      ++ leBytes 1 ((segs.map fun s => 2 ^ s).sum) ++ zeros 1 ++ leBytes 4 body.length ++ zeros 12
    let chunk := head ++ body
    let faults := (parts.flatMap (·.2)).map (·.faults) |>.sum
    let worst := ((parts.flatMap (·.2)).flatMap fun c => c.summaries.map fun w => w % 32768).foldl max 0
    let b := b.sbfFaults faults
    let b := b.modCod fun c => { c with maxErr := max c.maxErr worst }
    let b := b.modSto fun s =>
      { s with
        nextChunk := n + 1, outbox := s.outbox ++ [⟨.chunk n, chunk, l0.first, l1.last + 1⟩]
        chunks := ⟨n, l0.first, l1.last + 1, (Config.sha512 chunk).toList, false, false⟩ :: s.chunks }
    b.sendAll { stream := 5, type := 1, cls := 5, be := false, late := false, line0 := l0.first, line1 := l1.last + 1,
                gen := b.genAt l0.first, payload := chunk } chunk
  | _, _ => b

/-- The running block row of a context ends (R239). -/
def Bar.endRow (b : Bar) (k : Nat) : Bar :=
  match b.cap.codRows.find? (·.1 = k) with
  | some (_, ls) => (b.modCap fun c => { c with codRows := c.codRows.filter (·.1 ≠ k) }).emitChunk k ls
  | none => b

def Bar.endRows (b : Bar) : Bar := (List.range 4).foldl (fun b k => b.endRow k) b

/-! ### Boxes -/

/-- A stream line is complete: it goes to the peers, or into the running block row. -/
def Bar.emitBox (b : Bar) (s k : Nat) (lines : List Nat) (short : Bool) : Bar :=
  let st := b.setAt (lines.headD 0)
  let x := b.boxLine lines k s
  let desc := b.descriptor lines short x.bands x.bvoid x.cvoid
  let first := lines.headD 0
  let last := lines.getLastD 0
  let mk (stream : Nat) (be : Bool) (payload : List Byte) : KspUnit :=
    { stream := stream, type := 1, cls := if be then 0 else 5, be := be, late := false, line0 := first, line1 := last + 1,
      gen := b.genAt first, payload := payload }
  match s with
  | 0 =>
    let px := b.visionPixels st x
    b.sendAll (mk 4 false (desc ++ px)) px
  | 1 =>
    let (token, b) := if b.withheld = 0 then (8, b) else b.draw 8
    if token < b.withheld then (List.range 16).foldl (fun b k => match b.session? k with
        | some ss => if bit ss.streams 3 then b.dropUnit k 3 else b
        | none => b) b
    else b.sendAll (mk 3 true (desc ++ b.displayPixels st k x)) []
  | _ =>
    let row := (match b.cap.codRows.find? (·.1 = k) with | some (_, ls) => ls | none => [])
      ++ [⟨desc, b.codingPlanes st k x, first, last⟩]
    let b := b.modCap fun c => { c with codRows := (k, row) :: c.codRows.filter (·.1 ≠ k) }
    if row.length = 4 then b.endRow k else b

/-- A line of context k enters a stream: its box grows, and is complete at f_y lines (R152). -/
def Bar.enterStream (b : Bar) (n k s : Nat) : Bar :=
  let st := b.setAt n
  if b.streamOn st s && b.routed st k s then
    let lines := (match b.cap.boxes.find? (·.1 = (s, k)) with | some (_, ls) => ls | none => []) ++ [n]
    let rest := b.cap.boxes.filter (·.1 ≠ (s, k))
    if b.fy (b.streamRes st s) ≤ lines.length then (b.modCap fun c => { c with boxes := rest }).emitBox s k lines false
    else b.modCap fun c => { c with boxes := ((s, k), lines) :: rest }
  else b

/-- Every running box ends short, and every block row, at an apply point (R152, R239). -/
def Bar.endBoxes (b : Bar) : Bar :=
  let open_ := b.cap.boxes
  let b := b.modCap fun c => { c with boxes := [] }
  let b := open_.foldl (fun b x => b.emitBox x.1.1 x.1.2 x.2 true) b
  b.endRows

/-- The raw tap of a line (R161): codes of the selected row for every band, by host column (R12), where the tile is converted.
The slot's field has one bit: of SUM4's four slots it holds the low one (DESIGN CHOICE, log entry 108). Pixels of a segment line
that is short or has not come are 0 (R162). -/
def Bar.rawTap (b : Bar) (n : Nat) : Bar :=
  let st := b.setAt n
  if b.pN st 0x2400 5 = 1 then
    let row := b.pN st 0x2400 6
    let l? := b.line? n
    let px := (List.range 4).flatMap fun band => (List.range b.columns).flatMap fun h =>
      let c := b.physCol h
      let seg := c / segCols
      let col := c % segCols
      match l?.bind fun l => (b.rowSlot st band row l.ppos).bind fun slot => if b.tileConverted l seg (col / 256) then some (l, slot) else none with
      | some (l, slot) =>
        match (b.segRec? seg n).bind fun r => if r.voided then none else b.convertedCode l r band row col with
        | some code => leBytes 2 (code + row * 4096 + slot % 2 * 16384)
        | none => [0, 0]
      | none => []
    let desc := match l? with
      | some l => leBytes 8 n ++ leBytes 8 l.t ++ leBytes 2 l.gen ++ leBytes 1 (l.ltf + l.ctx * 16) ++ zeros 13
      | none => zeros 32
    b.sendAll { stream := 4, type := 1, cls := 0, be := true, late := false, line0 := n, line1 := n + 1, gen := b.genAt n,
                payload := desc ++ px } px
  else b

/-- An output line enters the streams; an apply line ends the boxes before it. -/
def Bar.streamLine (b : Bar) (n : Nat) : Bar :=
  let b := if b.cap.sets.any fun s => s.line = n then b.endBoxes else b
  match b.line? n with
  | some l => [0, 1, 2].foldl (fun b s => b.enterStream n l.ctx s) (b.rawTap n)
  | none => b

/-- Every present segment's record of a line has arrived; of a dropped line none comes (R104). -/
def Bar.heldTo (b : Bar) (n : Nat) : Bool :=
  (b.line? n).any (·.dropped) ||
    (List.range b.segs).all fun s => !(b.cap.segs[s % 8]'(Nat.mod_lt s (by omega))).present || (b.segRec? s n).isSome

/-- The last trigger that a band's sample at sample line m needs, under the row mode live there (R58, R59, R60). -/
def Bar.sampleEnd (b : Bar) (band : Nat) (m : Int) : Nat :=
  match (if m < 0 then none else b.line? m.toNat) with
  | none => m.toNat
  | some l =>
    let st := b.setAt l.n
    let mode := b.pN st 0x2201 (1 + band)
    if mode = 4 then l.n - l.ppos + b.patLen st - 1 else l.n + modeDelay mode 1 b.reverse

/-- The last trigger that output line n needs: of every sample that its bands take, for a seam shift of its neighbour too, and of
the samples that replace a stolen one (R60, R147, R149). -/
def Bar.lineEnd (b : Bar) (n : Nat) : Nat :=
  let k := match b.line? n with | some l => l.ctx | none => 0
  let ends := (b.shiftLines n).flatMap fun x => (List.range 4).flatMap fun band =>
    let twice := 2 * x + b.bandOffset band
    [twice / 2, (twice + 1) / 2].flatMap fun m =>
      b.sampleEnd band m :: (match b.sampleTrigger band m k with
        | some l => if l.ist then
            let p : Int := b.patLen (b.setAt l.n)
            [b.sampleEnd band (m - p), b.sampleEnd band (m + p)] else []
        | none => [])
  ends.foldl max n

/-- Output line n is complete: every line up to the last that it needs is held. -/
def Bar.lineComplete (b : Bar) (n : Nat) : Bool :=
  decide (b.lineEnd n < b.lines) && (List.range (b.lineEnd n + 1 - n)).all fun i => b.heldTo (n + i)

/-- Complete output lines enter the streams in order. -/
def Bar.advanceStreams (b : Bar) : Nat → Bar
  | 0 => b
  | fuel + 1 =>
    let n := b.cap.outLine
    if b.lineComplete n then ((b.streamLine n).modCap fun c => { c with outLine := n + 1 }).advanceStreams fuel else b

end Sys2Proof.Machine
end

