-- ==== Sys2Proof/Machine/Inspect.lean ====
section
/-! DEFINITION. Inspection against references (R177 to R194): comparator geometry, registration, differences, defects,
coverage and the verdict of an item. -/

namespace Sys2Proof.Machine

/-! ### Arithmetic -/

/-- ⌊√x⌋ and ⌈√x⌉. -/
def isqrt (x : Nat) : Nat := largest (fun n => decide (n * n ≤ x)) 64 0
def isqrtUp (x : Nat) : Nat := let r := isqrt x; if r * r < x then r + 1 else r
/-- ⌊∛x⌋. -/
def icbrt (x : Nat) : Nat := largest (fun n => decide (n * n * n ≤ x)) 40 0

/-- ⌊f(t) · 2²⁴⌋ of R183, for t in 2⁻³². -/
def labF (t : Nat) : Nat :=
  if 216 * 2 ^ 32 < t * 24389 then icbrt (t * 2 ^ 40)
  else (24389 * t + 16 * 27 * 2 ^ 32) / (27 * 116 * 2 ^ 8)

/-- A FREE VALUE within ±1/16 of a number in units of 1/256 that lies in [lo, hi] / 2¹⁶; past t = 16 the rule bounds no
error. -/
def labNear (plane x y z : Nat) (lo hi : Int) : Int :=
  let v := Config.labValue plane x y z
  if x < 16 * 2 ^ 32 && y < 16 * 2 ^ 32 && z < 16 * 2 ^ 32 then clampI (-((-hi) / 65536) - 16) (lo / 65536 + 16) v else v

/-- L*, a*, b* in units of 1/256 (R183) of tristimulus values in 2⁻³². -/
def labOf (x y z : Nat) : Int × Int × Int :=
  let fx : Int := labF x
  let fy : Int := labF y
  let fz : Int := labF z
  let l := 116 * fy - 4096 * 65536
  (labNear 0 x y z l (l + 116), labNear 1 x y z (500 * (fx - fy - 1)) (500 * (fx - fy + 1)),
    labNear 2 x y z (200 * (fy - fz - 1)) (200 * (fy - fz + 1)))

/-- The CIELAB value of reference codes in 1/256 (Table 6-1). -/
def refLab (l a b : Nat) : Int × Int × Int := ((l * 25600 / 255 : Nat), 256 * ((a : Int) - 128), 256 * ((b : Int) - 128))

def sq (x : Int) : Nat := x.natAbs * x.natAbs

/-- ΔE16 of two values in 1/256 (R184). -/
def deltaE16 (p q : Int × Int × Int) : Nat :=
  let s := sq (p.1 - q.1) + sq (p.2.1 - q.2.1) + sq (p.2.2 - q.2.2)
  isqrt (s / 256) + Config.deError s % 3 - 1

/-! ### Geometry of an item (R177 to R179) -/

/-- What the comparator needs of an item. -/
structure CmpGeom where
  item : Item
  ref : Reference
  c0 : Nat
  width : Nat                       -- comparator pixels of the lane
  ctx : Nat
  w : Nat                           -- columns per comparator pixel
  fx : Nat
  span : Nat                        -- lines per comparator line
  pitch : Nat                       -- pitches per comparator line
  hExp : Nat
  n0 : Nat
  x0 : Int
  y0 : Int
  hx : Nat
  hy : Nat
  capX : Nat
  capY : Nat
  rows : List (Nat × List Nat)      -- (comparator line, lines of one of its boxes)

/-- Boxes of context k: fy consecutive lines of it, ended at every apply line (R152). -/
def groupBoxes (fy : Nat) (applies : List Nat) : List Nat → List Nat → List (List Nat)
  | [], acc => if acc.isEmpty then [] else [acc]
  | n :: rest, acc =>
    let cut := !acc.isEmpty && applies.any fun a => decide (acc.getLastD 0 < a) && decide (a ≤ n)
    if cut then acc :: groupBoxes fy applies rest [n]
    else if fy ≤ acc.length + 1 then (acc ++ [n]) :: groupBoxes fy applies rest []
    else groupBoxes fy applies rest (acc ++ [n])

def Bar.ctxBoxes (b : Bar) (k fy : Nat) : List (List Nat) :=
  groupBoxes fy (b.cap.sets.map (·.line)) ((b.cap.lineLog.reverse.filter fun l => l.ctx = k).map (·.n)) []

/-- The lane-local parameter of an item. -/
def Item.laneN (b : Bar) (i : Item) (index : Nat) : Nat := b.pN i.laneSet index (i.lane + 1)
def Item.laneI (b : Bar) (i : Item) (index : Nat) : Int := b.pI i.laneSet index (i.lane + 1)

/-- g: the spacing of context k in the pattern (R177). -/
def Bar.patSpacing (b : Bar) (st : Store) (k : Nat) : Nat :=
  let p := b.patLen st
  max 1 (p / max 1 ((List.range p).countP fun j => b.patCtx st j = k))

/-- The geometry of an item whose inspection is on and whose reference is there. -/
def Bar.cmpGeom (b : Bar) (i : Item) (r : Reference) : CmpGeom :=
  let st := b.setAt i.s
  let k := i.laneN b 0x2510
  let res := max 1 (i.laneN b 0x2511)
  let m := b.binM st
  let g := b.patSpacing st k
  let fx := max 1 (1200 / m / res)
  let fy := max 1 (b.lineRes / (g * res))
  let span := fy * g
  let w := m * fx
  let pc := if b.dpi600 then 2 * span else span
  let f := i.f.getD 0xFFFFFFFFFFFFFFFF
  let boxes := (b.ctxBoxes k fy).filter fun x => decide (i.s ≤ x.headD 0) && decide (x.getLastD 0 < f)
  let n0 := match boxes.head? with | some x => x.headD 0 | none => i.s
  let hExp := i.length / span
  let c0 := b.pN st 0x2500 (i.lane + 1)
  { item := i, ref := r, c0 := c0, width := (b.pN st 0x2501 (i.lane + 1) - c0) / w, ctx := k, w := w, fx := fx, span := span
    pitch := pc, hExp := hExp, n0 := n0, x0 := i.laneI b 0x2512, y0 := i.laneI b 0x2513, hx := 16 / w, hy := 16 / pc
    capX := 64 / w, capY := 64 / pc
    rows := boxes.map fun x => ((x.headD 0 - n0) / span, x) }

/-- The lines of comparator line r. -/
def CmpGeom.linesOf (g : CmpGeom) (r : Nat) : List Nat := ((g.rows.filter fun x => x.1 = r).map (·.2)).flatten

/-- The four measured stage-8 values of comparator pixel (x, r): those of box column ⌊c0 / w⌋ + x, also where c0 is no multiple of
the comparator pixel's w columns (DESIGN CHOICE, log 154); the parts of a box split by an apply point are averaged
by their line counts (R178). Void if any band is. -/
def Bar.measured (b : Bar) (g : CmpGeom) (x r : Nat) : Option (List Nat) :=
  let j := g.c0 / g.w + x
  let boxes := (g.rows.filter fun y => y.1 = r).map (·.2)
  let parts := boxes.map fun ls => (ls.length, b.boxBands ls g.ctx g.fx j)
  let total := (parts.map (·.1)).sum
  if total = 0 then none
  else
    let vs := (List.range 4).map fun band =>
      let xs := parts.map fun p => (p.1, p.2.getD band none)
      if xs.any fun x => x.2.isNone then none
      else some ((xs.map fun x => x.1 * (match x.2 with | some (v, _) => v | none => 0)).sum / total)
    if vs.any (·.isNone) then none else some (vs.map (·.getD 0))

/-- The CIELAB value and NIR code of measured bands under context k's matrix (R183). -/
def Bar.measLab (b : Bar) (st : Store) (k : Nat) (v : List Nat) : (Int × Int × Int) × Nat :=
  let q (i : Nat) : Nat :=
    ((List.range 3).foldl (fun (s : Int) j => s + b.pI st (0x2518 + k) (3 * i + j + 1) * (v.getD j 0 : Nat)) 0).toNat
  (labOf (q 0) (q 1) (q 2), min 255 ((255 * v.getD 3 0 + 2 ^ 19) / 2 ^ 20))

/-- The first line of a comparator line. -/
def CmpGeom.firstLine (g : CmpGeom) (r : Nat) : Nat := match g.linesOf r with | n :: _ => n | [] => g.n0 + r * g.span

/-- The measured CIELAB value and NIR code of a comparator pixel, under the matrix live at the comparator line's first
line (R38; of a comparator line that an apply point splits, DESIGN CHOICE, log entry 110). -/
def Bar.measuredLab (b : Bar) (g : CmpGeom) (x r : Nat) : Option ((Int × Int × Int) × Nat) :=
  (b.measured g x r).map (b.measLab (b.setAt (g.firstLine r)) g.ctx)

/-- A position clamped into the reference (R180). -/
def Reference.clampX (r : Reference) (x : Int) : Nat := (clampI 0 (r.width - 1 : Nat) x).toNat
def Reference.clampY (r : Reference) (y : Int) : Nat := (clampI 0 (r.height - 1 : Nat) y).toNat

/-- A sample of a reference plane. -/
def Reference.at (r : Reference) (plane : Nat) (x y : Int) : Nat :=
  match r.planes[plane]? with
  | some p => (p.rows.getD (r.clampY y) []).getD (r.clampX x) 0
  | none => 0

/-- The recorded error bound of the group that holds a pixel. -/
def Reference.bound (r : Reference) (plane : Nat) (x y : Int) : Nat :=
  let perRow := ceilDiv (ceilDiv r.width 16) 16
  match r.planes[plane]? with
  | some p => p.bounds.getD (r.clampY y / 4 * perRow + r.clampX x / 256) 0
  | none => 0

/-- The segment of a comparator pixel. -/
def Bar.segOf (b : Bar) (g : CmpGeom) (x : Nat) : Nat := b.physCol (g.c0 + x * g.w) / segCols

/-- The sample a segment's comparator holds of a reference plane; none in a block its decoder found malformed (R238). -/
def CmpGeom.refAt (g : CmpGeom) (seg plane : Nat) (x y : Int) : Option Nat :=
  let cx := g.ref.clampX x
  let cy := g.ref.clampY y
  match g.item.garbled.find? fun k => k.seg = seg && k.plane = plane && k.block = cy / 4 * ceilDiv g.ref.width 16 + cx / 16 with
  | some k => match k.samples with | some u => (u.getD (cy % 4 * 16 + cx % 16) none) | none => none
  | none => some (g.ref.at plane x y)

/-- The four reference samples of a pixel; none where one of its blocks is malformed. -/
def CmpGeom.refPixel (g : CmpGeom) (seg : Nat) (x y : Int) : Option ((Int × Int × Int) × Nat) := do
  let l ← g.refAt seg 0 x y
  let a ← g.refAt seg 1 x y
  let b ← g.refAt seg 2 x y
  let n ← g.refAt seg 3 x y
  return (refLab l a b, n)

/-! ### Registration (R180 to R182) -/

/-- Tile of a comparator pixel: physical tile over the whole bar. -/
def Bar.tileOf (b : Bar) (g : CmpGeom) (x : Nat) : Nat := b.physCol (g.c0 + x * g.w) / 256

/-- Pixels of a lane in a tile. -/
def Bar.tilePixels (b : Bar) (g : CmpGeom) (t : Nat) : List Nat := (List.range g.width).filter fun x => b.tileOf g x = t

/-- A cell's measured pixels: position, and L* where it is not void. -/
structure CellPixel where
  x : Nat
  r : Nat
  l : Option Int

def Bar.cellMeas (b : Bar) (g : CmpGeom) (t j : Nat) : List CellPixel :=
  (List.range (min 32 (g.hExp - 32 * j))).flatMap fun y => (b.tilePixels g t).map fun x =>
    ⟨x, 32 * j + y, (b.measuredLab g x (32 * j + y)).map (·.1.1)⟩

/-- The reference L that an offset places on a pixel. -/
def CmpGeom.placedL (g : CmpGeom) (seg : Nat) (m : CellPixel) (dx dy : Int) : Option Nat :=
  g.refAt seg 0 ((m.x : Int) - g.x0 - dx) ((m.r : Int) - g.y0 - dy)

/-- Sum of absolute L* differences at an offset; a pixel that a malformed block covers counts as void (R238). -/
def cellSad (g : CmpGeom) (seg : Nat) (ms : List CellPixel) (dx dy : Int) : Nat :=
  (ms.map fun m => match m.l, g.placedL seg m dx dy with
    | some l, some r => (l - (refLab r 0 0).1).natAbs
    | _, _ => 0).sum

/-- What a cell's registration found. -/
structure CellReg where
  dx : Int
  dy : Int
  atLimit : Bool
  flat : Bool
  fineX : Int                       -- refined, 1/8 step
  fineY : Int
  deriving DecidableEq, Repr

/-- The order of R180 among candidates: (sum, offset). -/
def regBetter (cx cy : Int) (p q : Nat × Int × Int) : Bool :=
  let k (o : Nat × Int × Int) : List Int :=
    [o.1, (o.2.1 - cx).natAbs + (o.2.2 - cy).natAbs, (o.2.2 - cy).natAbs, o.2.2, o.2.1]
  decide (k p < k q)

/-- Parabola through three sums, in 1/8 step (R182), quantised to the nearest, ⌊8δ + 1/2⌋. -/
def refine (sm s0 sp : Nat) : Int :=
  let den : Int := (sm : Int) - 2 * s0 + sp
  if den = 0 then 0 else clampI (-4) 4 ((8 * ((sm : Int) - sp) + den).fdiv (2 * den))

/-- Cell of tile t in row j, from the offset the row above found. -/
def Bar.registerCell (b : Bar) (g : CmpGeom) (t j : Nat) (above : CellReg) : CellReg :=
  let ms := b.cellMeas g t j
  let cx := above.dx
  let cy := above.dy
  let seg := t / 30
  let codes := ms.filterMap fun m => g.placedL seg m cx cy
  let hi := codes.foldl max 0
  let lo := codes.foldl min 255
  let tex := b.pN g.item.laneSet (0x2520 + g.ctx) 0x0C
  let live := ms.countP fun m => m.l.isSome && (g.placedL seg m cx cy).isSome
  let flat := decide ((hi - lo) * 100 < tex * 255) || decide (2 * live < ms.length)
    || decide ((b.tilePixels g t).length * g.w < 16)
  if flat then ⟨cx, cy, false, true, 8 * cx, 8 * cy⟩
  else
    let offs := (List.range (2 * g.hx + 1)).flatMap fun (a : Nat) => (List.range (2 * g.hy + 1)).map fun (c : Nat) =>
      (cx + (a : Int) - g.hx, cy + (c : Int) - g.hy)
    let best := offs.foldl (fun (best : Option (Nat × Int × Int)) o =>
      let s := (cellSad g seg ms o.1 o.2, o.1, o.2)
      match best with | none => some s | some q => if regBetter cx cy s q then some s else some q) none
    match best with
    | none => ⟨cx, cy, false, true, 8 * cx, 8 * cy⟩
    | some (s0, wx, wy) =>
      let dx := clampI (-(g.capX : Int)) g.capX wx
      let dy := clampI (-(g.capY : Int)) g.capY wy
      let lim := (wx - cx).natAbs = g.hx || (wy - cy).natAbs = g.hy || dx ≠ wx || dy ≠ wy
      let rx := refine (cellSad g seg ms (wx - 1) wy) s0 (cellSad g seg ms (wx + 1) wy)
      let ry := refine (cellSad g seg ms wx (wy - 1)) s0 (cellSad g seg ms wx (wy + 1))
      ⟨dx, dy, lim, false, 8 * dx + rx, 8 * dy + ry⟩

/-- The cell of tile t in row j. -/
def Bar.cellReg (b : Bar) (g : CmpGeom) (t : Nat) : Nat → CellReg
  | 0 => b.registerCell g t 0 ⟨0, 0, false, true, 0, 0⟩
  | j + 1 => b.registerCell g t (j + 1) (b.cellReg g t j)

/-! ### Comparison (R184, R185, R192) -/

/-- A compared pixel. -/
structure CmpPixel where
  x : Nat
  r : Nat
  e : Bool
  n : Bool
  de : Nat
  dn : Nat
  darker : Bool
  widened : Bool
  dl : Int
  da : Int
  db : Int

/-- W of R185. -/
def widening (eL eA eB : Nat) : Nat :=
  isqrtUp (ceilDiv (256 * (eL * eL * 10000 + 65025 * (eA * eA + eB * eB))) 65025)

/-- A comparator line is compared only from lines that are neither crawl, US, void nor late, and before the frame's
end (R192). -/
def Bar.rowUsable (b : Bar) (g : CmpGeom) (r : Nat) : Bool :=
  let ls := g.linesOf r
  let f := g.item.f.getD 0xFFFFFFFFFFFFFFFF
  !ls.isEmpty && ls.all fun n => decide (n < f) && decide (g.item.lateTo ≤ n) &&
    match b.line? n with | some l => !l.crawl && !l.us && !l.dropped | none => false

/-- The reference line was not in DRAM when the comparator reached it (R175). -/
def Bar.refLate (b : Bar) (g : CmpGeom) (r : Nat) : Bool :=
  match g.item.readStart, (g.linesOf r).getLast? with
  | some t0, some n => match b.line? n with
    | some l => decide (l.tx < t0 + 2000000) && !Config.refLineEarly t0 r
    | none => false
  | _, _ => true

/-- A comparator pixel is windowed if its first column of its first line is (R192). -/
def Bar.cmpWindowed (b : Bar) (g : CmpGeom) (x r : Nat) : Bool := b.windowedAt (g.c0 + x * g.w) (g.firstLine r)

/-- Is the reference pixel that lands on comparator pixel (x, r) in the required set: placed in the lane, in [s, e) and
in a windowed area (R192)? -/
def Bar.required (b : Bar) (g : CmpGeom) (x r : Nat) : Bool :=
  let rx := (x : Int) - g.x0
  let ry := (r : Int) - g.y0
  decide (0 ≤ rx) && decide (rx < g.ref.width) && decide (0 ≤ ry) && decide (ry < g.hExp) &&
    decide (g.firstLine r < g.item.s + g.item.length) && b.cmpWindowed g x r

/-- Defect candidates of the pixel's segment were missing in one of its lines (R162). -/
def Bar.candidatesLost (b : Bar) (g : CmpGeom) (x r : Nat) : Bool :=
  (g.linesOf r).any fun n => match b.segRec? (b.segOf g x) n with | some s => s.streakVoid | none => false

/-- The comparison of a pixel at its cell's offset; none where it is not compared. A neighbour in a malformed block takes
no part (DESIGN CHOICE, log entry 110). -/
def Bar.compare (b : Bar) (g : CmpGeom) (cells : Nat → Nat → CellReg) (x r : Nat) : Option CmpPixel :=
  if !b.rowUsable g r || b.refLate g r || !b.cmpWindowed g x r || b.candidatesLost g x r then none
  else
    let seg := b.segOf g x
    let c := cells (b.tileOf g x) (r / 32)
    let rx := (x : Int) - g.x0 - c.dx
    let ry := (r : Int) - g.y0 - c.dy
    match b.measuredLab g x r, g.refPixel seg rx ry with
    | some (lab, nir), some (own, _) =>
      let p (sub : Nat) : Nat := b.pN g.item.laneSet (0x2520 + g.ctx) sub
      let nb : List (Int × Int) := if p 4 = 0 then [(0, 0)]
        else (List.range 3).flatMap fun (i : Nat) => (List.range 3).map fun (j : Nat) => ((i : Int) - 1, (j : Int) - 1)
      let near := nb.filterMap fun o => g.refPixel seg (rx + o.1) (ry + o.2)
      let des := near.map fun q => deltaE16 lab q.1
      let dns := near.map fun q => absDiff nir q.2
      let de := des.foldl min (des.headD 0)
      let dn := dns.foldl min (dns.headD 0)
      let w := widening (g.ref.bound 0 rx ry) (g.ref.bound 1 rx ry) (g.ref.bound 2 rx ry)
      some { x := x, r := r, e := decide (p 1 + w < de), n := p 3 = 1 && decide (p 2 + g.ref.bound 3 rx ry < dn), de := de
             dn := dn, darker := decide (lab.1 < own.1), widened := decide (p 0x0D < w)
             dl := lab.1 - own.1, da := lab.2.1 - own.2.1, db := lab.2.2 - own.2.2 }
    | _, _ => none

/-! ### Components (R186, R187, R189) -/

/-- A component: the item and segment it belongs to, its pixels, and whether it is the overflow component. -/
structure Component where
  item : Nat
  px : List CmpPixel
  overflow : Bool
  seam : Bool

def touches (a c : CmpPixel) : Bool := decide (absDiff a.x c.x ≤ 1) && decide (absDiff a.r c.r ≤ 1)

/-- An E or N pixel of a segment: the item's index and frame end, the line it is labelled at, and for a line of the item
the line that ends the comparator line after it. -/
structure Mark where
  item : Nat
  line : Nat                        -- last line of its comparator line
  closes : Nat                      -- from this line on its component is closed unless a pixel joins it
  px : CmpPixel

/-- A segment's labeller: its components in all, and of each pixel the line from which it keeps none open. -/
structure Labeller where
  comps : List Component
  open_ : List (Nat × CmpPixel × Nat)

/-- Is a component open at a line: a pixel of it stands in the comparator line being labelled or in the one before? -/
def Labeller.isOpen (l : Labeller) (c : Component) (line : Nat) : Bool :=
  !c.overflow && l.open_.any fun o => o.1 = c.item && decide (line < o.2.2) && c.px.any fun q => q.x = o.2.1.x && q.r = o.2.1.r

/-- A pixel joins every component of its item it touches, or opens one; beyond 128 open ones in the segment, over the items
of every lane, it joins its item's overflow component (R186). -/
def Labeller.add (l : Labeller) (m : Mark) : Labeller :=
  let hit (c : Component) : Bool := c.item = m.item && !c.overflow && c.px.any (touches m.px)
  let near := l.comps.filter hit
  let far := l.comps.filter fun c => !hit c
  let mine (c : Component) : Bool := c.item = m.item && c.overflow
  let comps :=
    if !near.isEmpty then ⟨m.item, m.px :: near.flatMap (·.px), false, false⟩ :: far
    else if l.comps.countP (fun c => l.isOpen c m.line) < 128 then ⟨m.item, [m.px], false, false⟩ :: l.comps
    else if l.comps.any mine then l.comps.map fun c => if mine c then { c with px := m.px :: c.px } else c
    else ⟨m.item, [m.px], true, false⟩ :: l.comps
  ⟨comps, (m.item, m.px, m.closes) :: l.open_⟩

/-- A segment's components, its pixels labelled line by line; within a line item by item (DESIGN CHOICE, log entry 110). -/
def components (ms : List Mark) : List Component :=
  ((ms.mergeSort fun a c => decide ([a.line, a.item, a.px.x] ≤ [c.line, c.item, c.px.x])).foldl Labeller.add ⟨[], []⟩).comps

/-- Components that touch across a seam become one (R189). -/
def joinSeams (segOf : CmpPixel → Nat) : Nat → List Component → List Component
  | 0, cs => cs
  | _, [] => []
  | fuel + 1, c :: rest =>
    let meets (d : Component) : Bool := c.px.any fun q => d.px.any fun z => touches q z && segOf q ≠ segOf z
    let near := rest.filter meets
    let far := rest.filter fun d => !meets d
    if near.isEmpty then c :: joinSeams segOf fuel rest
    else joinSeams segOf fuel (⟨c.item, c.px ++ near.flatMap (·.px), c.overflow || near.any (·.overflow), true⟩ :: far)

def maxOf (f : CmpPixel → Nat) (qs : List CmpPixel) : Nat := (qs.map f).foldl max 0
def minOf (f : CmpPixel → Nat) (qs : List CmpPixel) : Nat := (qs.map f).foldl min ((qs.map f).headD 0)

/-- The class of a component (Table 6-5). -/
def Bar.classOf (b : Bar) (g : CmpGeom) (c : Component) : Nat :=
  let p (sub : Nat) : Nat := b.pN g.item.laneSet (0x2520 + g.ctx) sub
  let es := c.px.filter (·.e)
  if c.overflow then 5
  else if es.isEmpty then 6
  else if p 6 ≤ c.px.length then 5
  else if p 7 ≤ maxOf (·.r) c.px - minOf (·.r) c.px + 1 && decide (maxOf (·.x) c.px - minOf (·.x) c.px + 1 ≤ p 8) then 2
  else if es.length ≤ 2 * es.countP (·.darker) then 0
  else 1

/-- A defect of an item before it has its INDEX. -/
def Bar.defectOf (b : Bar) (g : CmpGeom) (cls x0 x1 r0 r1 area : Nat) (va vb : Int) (dn : Nat) (lim cut seam : Bool) : Defect :=
  let y (r : Nat) : Nat := g.n0 - g.item.s + r * g.span
  let n0 := g.item.s + y r0
  let n1 := g.item.s + y (r1 + 1)
  { seq := g.item.seq.getD 0, cls := cls, ctx := g.ctx, atLimit := lim, overflow := cut, seam := seam
    mixed := b.cap.sets.any fun s => decide (n0 < s.line) && decide (s.line < n1)
    evidence := false, gen := b.genAt n0, c0 := g.c0 + x0 * g.w, c1 := g.c0 + (x1 + 1) * g.w, y0 := y r0, y1 := y (r1 + 1)
    area := area, valA := va, valB := vb, dnMax := dn, index := 0 }

def Bar.componentDefect (b : Bar) (g : CmpGeom) (c : Component) : Defect :=
  let es := c.px.filter (·.e)
  let mean := if es.isEmpty then 0 else (es.map (·.de)).sum / es.length
  b.defectOf g (b.classOf g c) (minOf (·.x) c.px) (maxOf (·.x) c.px) (minOf (·.r) c.px) (maxOf (·.r) c.px) c.px.length
    (maxOf (·.de) c.px) mean (maxOf (·.dn) c.px) false c.overflow c.seam

/-! ### Cell defects (R188) -/

/-- A cell of an item with what the tests need. -/
structure CellInfo where
  t : Nat
  j : Nat
  reg : CellReg
  shift : Nat                       -- 16 times the mean vector's length; 0 below 64 pixels
  isShift : Bool
  isMis : Bool
  area : Nat                        -- comparator pixels of the cell
  dnMax : Nat                       -- largest ΔN of its compared pixels

/-- 8-connected groups of cells. -/
def cellGroups : Nat → List CellInfo → List (List CellInfo)
  | 0, _ => []
  | _, [] => []
  | fuel + 1, c :: rest =>
    let rec grow : Nat → List CellInfo → List CellInfo → List CellInfo × List CellInfo
      | 0, got, left => (got, left)
      | k + 1, got, left =>
        let near := left.filter fun d => got.any fun q => decide (absDiff q.t d.t ≤ 1) && decide (absDiff q.j d.j ≤ 1)
        if near.isEmpty then (got, left)
        else grow k (got ++ near) (left.filter fun d => !(got.any fun q => decide (absDiff q.t d.t ≤ 1) && decide (absDiff q.j d.j ≤ 1)))
    let (mine, others) := grow fuel [c] rest
    mine :: cellGroups fuel others

def Bar.cellInfo (b : Bar) (g : CmpGeom) (cells : Nat → Nat → CellReg) (pix : List CmpPixel) (t j : Nat) : CellInfo :=
  let p (sub : Nat) : Nat := b.pN g.item.laneSet (0x2520 + g.ctx) sub
  let mine := pix.filter fun q => b.tileOf g q.x = t && q.r / 32 = j
  let quiet := mine.filter fun q => !q.e
  let n := quiet.length
  let total (f : CmpPixel → Int) : Int := (quiet.map f).foldl (· + ·) 0
  let v := if n < 64 then 0 else isqrt ((sq (total (·.dl)) + sq (total (·.da)) + sq (total (·.db))) / (256 * n * n))
  let c := cells t j
  let far := decide (p 0x0A < c.dx.natAbs * g.w) || decide (p 0x0B < c.dy.natAbs * g.pitch)
  { t := t, j := j, reg := c, shift := v, isShift := decide (64 ≤ n) && decide (p 9 < v), isMis := c.atLimit || far
    area := (b.tilePixels g t).length * min 32 (g.hExp - 32 * j), dnMax := maxOf (·.dn) mine }

/-- One SHIFT or MISREG defect of a group of cells; a MISREG defect reports its cell with the largest offset, in 1/8 column
and 1/8 pitch (R190). -/
def Bar.cellDefect (b : Bar) (g : CmpGeom) (mis : Bool) (cs : List CellInfo) : Defect :=
  let xs := cs.flatMap fun c => b.tilePixels g c.t
  let rs0 := cs.map fun c => 32 * c.j
  let rs1 := cs.map fun c => min g.hExp (32 * c.j + 32) - 1
  let area := (cs.map (·.area)).sum
  let size (c : CellInfo) : Nat := max ((c.reg.fineX * g.w).natAbs) ((c.reg.fineY * g.pitch).natAbs)
  let worst := cs.foldl (fun (w : Option CellInfo) c => match w with
    | none => some c
    | some d => if size d < size c then some c else some d) none
  let (va, vb) : Int × Int := match mis, worst with
    | true, some c => (c.reg.fineX * g.w, c.reg.fineY * g.pitch)
    | _, _ =>
      (((cs.map (·.shift)).foldl max 0 : Nat), (if area = 0 then 0 else (cs.map fun c => c.shift * c.area).sum / area : Nat))
  let segs := xs.map (b.segOf g)
  b.defectOf g (if mis then 4 else 3) (xs.foldl min (xs.headD 0)) (xs.foldl max 0) (rs0.foldl min (rs0.headD 0)) (rs1.foldl max 0)
    area va vb ((cs.map (·.dnMax)).foldl max 0) (mis && (worst.map (·.reg.atLimit)).getD false) false (segs.any (· ≠ segs.headD 0))

/-! ### The item's result -/

/-- The order of R189: Y1, Y0, C0, CLASS. -/
def defectLe (p q : Defect) : Bool :=
  decide ([p.y1, p.y0, p.c0, p.cls] ≤ [q.y1, q.y0, q.c0, q.cls])

/-- What inspection of an item found. -/
structure InspResult where
  defects : List Defect             -- all, in order, with INDEX
  counts : List Nat
  required : Nat
  compared : Nat
  widened : Bool
  fallback : Bool
  deMax : Nat
  lateLines : Nat
  small : Nat
  overflowSegs : List Nat

def InspResult.empty : InspResult := ⟨[], List.replicate 7 0, 0, 0, false, false, 0, 0, 0, []⟩

/-- The item's reference, as it was found fit at the item's start. A reason REF_UNAVAILABLE that a stripe gives later (R269) makes
the verdict and takes no comparison away: counts and defects are filled in whatever the verdict (R193). -/
def Bar.itemRef (_ : Bar) (i : Item) : Option Reference := if bit i.reasons rInspectionOff then none else i.ref

/-- The tiles of a lane, and the rows of cells. -/
def Bar.cellTiles (b : Bar) (g : CmpGeom) : List Nat := ((List.range g.width).map (b.tileOf g)).eraseDups
def CmpGeom.cellRows (g : CmpGeom) : Nat := ceilDiv g.hExp 32

/-- Every cell's registration. -/
def Bar.cellRegs (b : Bar) (g : CmpGeom) : List (Nat × Nat × CellReg) :=
  (b.cellTiles g).flatMap fun t => (List.range g.cellRows).map fun j => (t, j, b.cellReg g t j)

def cellAt (regs : List (Nat × Nat × CellReg)) (t j : Nat) : CellReg :=
  match regs.find? fun c => c.1 = t && c.2.1 = j with
  | some (_, _, c) => c
  | none => ⟨0, 0, false, true, 0, 0⟩

/-- The compared pixels of an item. -/
def Bar.comparedPixels (b : Bar) (g : CmpGeom) : List CmpPixel :=
  let cells := cellAt (b.cellRegs g)
  ((List.range g.hExp).flatMap fun r => (List.range g.width).map fun x => (x, r)).filterMap fun q => b.compare g cells q.1 q.2

/-- The E and N pixels of an item as its segments label them. -/
def Bar.itemMarks (b : Bar) (ix : Nat) (g : CmpGeom) : List Mark :=
  let last (r : Nat) : Nat := ((g.linesOf r).getLast?).getD (g.n0 + (r + 1) * g.span - 1)
  let f := g.item.f.getD 0xFFFFFFFFFFFFFFFF
  ((b.comparedPixels g).filter fun q => q.e || q.n).map fun q => ⟨ix, last q.r, min f (last (q.r + 1) + 1), q⟩

/-- The components of a segment, over the items of every lane in it. -/
def Bar.segComponents (b : Bar) (seg : Nat) : List Component :=
  components ((List.range b.cap.items.length).flatMap fun ix =>
    match b.cap.items[ix]? with
    | some i => match (if i.started then b.itemRef i else none) with
      | some r => let g := b.cmpGeom i r; (b.itemMarks ix g).filter fun m => b.segOf g m.px.x = seg
      | none => []
    | none => [])

/-- The comparison of the item at an index with its reference. -/
def Bar.inspect (b : Bar) (ix : Nat) (g : CmpGeom) : InspResult :=
  let regs := b.cellRegs g
  let pix := b.comparedPixels g
  let placed := (List.range (g.hExp + 1)).flatMap fun r => (List.range g.width).map fun x => (x, r)
  let req := placed.filter fun q => b.required g q.1 q.2
  let compared := req.countP fun q => pix.any fun z => z.x = q.1 && z.r = q.2
  let perSeg := (List.range b.segs).map fun s => (b.segComponents s).filter (·.item = ix)
  let aMin := b.pN g.item.laneSet (0x2520 + g.ctx) 5
  let kept := perSeg.flatten.filter fun c => c.overflow || decide (aMin ≤ c.px.length)
  let joined := joinSeams (fun q => b.segOf g q.x) (2 * kept.length) kept
  let infos := regs.map fun c => b.cellInfo g (cellAt regs) pix c.1 c.2.1
  let shifts := (cellGroups infos.length (infos.filter (·.isShift))).map (b.cellDefect g false)
  let miss := (cellGroups infos.length (infos.filter (·.isMis))).map (b.cellDefect g true)
  let sorted := (joined.map (b.componentDefect g) ++ shifts ++ miss).mergeSort defectLe
  let ds := (List.range sorted.length).zip sorted |>.map fun p => { p.2 with index := p.1 }
  { defects := ds
    counts := (List.range 7).map fun c => min 255 (ds.countP fun d => d.cls = c)
    required := req.length, compared := compared, widened := pix.any (·.widened), fallback := regs.any fun c => c.2.2.flat
    deMax := maxOf (·.de) pix
    lateLines := (List.range g.hExp).countP fun r => b.rowUsable g r && b.refLate g r
    small := perSeg.flatten.countP fun c => !c.overflow && decide (c.px.length < aMin)
    overflowSegs := (List.range b.segs).filter fun s => (perSeg.getD s []).any (·.overflow) }

/-! ### Records (R190, R194) -/

/-- A defect record's 32 bytes (Table 6-6). -/
def Defect.bytes (d : Defect) : List Byte :=
  let flags := d.cls + d.ctx * 16 + b2n d.atLimit * 64 + b2n d.overflow * 128 + b2n d.seam * 256 + b2n d.mixed * 512
    + b2n d.evidence * 1024
  leBytes 4 d.seq ++ leBytes 2 flags ++ leBytes 2 d.gen ++ leBytes 2 d.c0 ++ leBytes 2 d.c1 ++ leBytes 3 d.y0 ++ leBytes 3 d.y1
    ++ leBytes 4 d.area ++ leBytes 2 (unsigned 16 d.valA) ++ leBytes 2 (unsigned 16 d.valB) ++ leBytes 1 d.dnMax
    ++ leBytes 2 d.index ++ zeros 3

/-- A verdict record's 64 bytes (Table 6-7). -/
def Verdict.bytes (v : Verdict) : List Byte :=
  leBytes 4 v.seq ++ leBytes 4 v.number ++ leBytes 1 v.lane ++ leBytes 1 (v.verdict + b2n v.seqValid * 4)
    ++ leBytes 1 v.failClasses ++ leBytes 2 v.coverage ++ leBytes 3 v.reasons ++ leBytes 4 v.flags ++ leBytes 2 v.detail
    ++ leBytes 2 v.gen ++ leBytes 8 v.tPub ++ leBytes 8 v.start ++ leBytes 3 v.length ++ zeros 1
    ++ (v.counts.flatMap (leBytes 1)) ++ zeros 1 ++ leBytes 2 v.records ++ leBytes 2 v.deMax ++ leBytes 4 v.handle ++ zeros 4

end Sys2Proof.Machine
end

