-- ==== Sys2Proof/Machine/Publish.lean ====
section
/-! DEFINITION. The publication stage: verdicts formed and published (R193 to R196, R330, R343, R345), evidence objects
(R191, R255, R275), and the Safety Net's engagement among them (R46, R47, R422). -/

namespace Sys2Proof.Machine

def Item.withReason (i : Item) (r : Nat) : Item := { i with reasons := setBit i.reasons r }

/-! ### Items -/

def Bar.modItems (b : Bar) (f : Item → Item) : Bar := b.modCap fun c => { c with items := c.items.map f }
/-- Is this the item of a lane and number that is to be published next: the oldest of that name without a verdict? -/
def Bar.findItem (b : Bar) (lane number : Nat) : Option Nat :=
  b.cap.items.findIdx? fun i => i.lane = lane && i.number = number && !i.published
def Bar.modItemAt (b : Bar) (ix : Nat) (f : Item → Item) : Bar := b.modCap fun c => { c with items := updAt c.items ix f }

/-- In flight: accepted, and not yet both published and out of its queue (R128). -/
def Item.inFlight (i : Item) : Bool := !i.published || i.queued
def Bar.inFlight (b : Bar) : Nat := b.cap.items.countP (·.inFlight)

/-- The lines of an item's frame, of those triggered so far. -/
def Bar.frameLines (b : Bar) (i : Item) : List LineRec :=
  if i.started then b.cap.lineLog.filter fun l => decide (i.s ≤ l.n) && decide (l.n < i.f.getD b.lines) else []

/-- D_verdict of the frame [s, f) (R196). A frame of the session's first line has no line before its last: its T_L is
taken as T_Lmin (DEDUCED, log 54). -/
def Bar.dVerdict (b : Bar) (f : Nat) : Nat :=
  let tl := match b.line? (f - 1), (if f < 2 then none else b.line? (f - 2)) with
    | some x, some y => x.t - y.t
    | _, _ => b.tLmin (b.setAt (f - 1))
  256 * tl + 600000

/-- An item's deadline, once its frame has closed (R91, R195, R196). -/
def Bar.deadline (b : Bar) (i : Item) : Option Nat :=
  match i.stopDue, i.f with
  | some t, _ => some t
  | none, some f => match b.line? (f - 1) with | some l => some (l.tx + b.dVerdict f) | none => none
  | none, none => none

/-! ### What an item's lines say (Table 3-5 and the rules it names) -/

/-- Physical columns of a lane. -/
def Bar.laneCols (b : Bar) (st : Store) (lane : Nat) : Nat × Nat :=
  let c0 := b.pN st 0x2500 (lane + 1)
  let c1 := b.pN st 0x2501 (lane + 1)
  if b.mirror then (b.columns - c1, b.columns - c0) else (c0, c1)

/-- The segments a lane lies in. -/
def Bar.laneSegs (b : Bar) (st : Store) (lane : Nat) : List Nat :=
  let (p0, p1) := b.laneCols st lane
  (List.range b.segs).filter fun s => decide (p0 < segCols * (s + 1)) && decide (segCols * s < p1)

/-- The lane holds a column within four of a seam whose data was refused (R70). -/
def Bar.laneSeamBad (b : Bar) (st : Store) (lane : Nat) : Bool :=
  let (p0, p1) := b.laneCols st lane
  (List.range b.segs).any fun k => decide (0 < k) && !(b.cap.segs[k % 8]'(Nat.mod_lt k (by omega))).seamCal
    && decide (p0 < segCols * k + 4) && decide (segCols * k - 4 < p1)

/-- A sample of the item saturated (R138): in its lane and frame. -/
def Bar.itemSaturated (b : Bar) (i : Item) (ls : List LineRec) : Bool :=
  let c0 := i.laneN b 0x2500
  ls.any fun l => (List.range (i.laneN b 0x2501 - c0)).any fun c => (List.range 4).any fun band =>
    match b.pixel band (c0 + c) l.n l.ctx with | some (_, s) => s | none => false

/-- Reasons that the lines of the frame give. -/
def Bar.lineReasons (b : Bar) (i : Item) (ls : List LineRec) : Nat :=
  let k := i.laneN b 0x2510
  maskOf [(rOverspeed, ls.any fun l => l.us && !l.usUnsync), (rSyncLost, ls.any fun l => l.drLost || (l.us && l.usUnsync)),
    (rSeamUncalibrated, i.started && b.laneSeamBad (b.setAt i.s) i.lane),
    (rIlluminationLimited, ls.any fun l => l.limited && l.ctx = k),
    (rNotLive, b.ecat.session && (b.ecat.al ≠ .op || ls.any fun l => !l.opLive)),
    (rUncalibrated, b.sec.uncalibrated)]

/-- Flags that the lines of the frame give. -/
def Bar.lineFlags (b : Bar) (i : Item) (ls : List LineRec) : Nat :=
  let segs := b.laneSegs (b.setAt i.s) i.lane
  let f := i.f.getD b.lines
  maskOf [(2, i.started && b.cap.sets.any fun s => decide (i.s < s.line) && decide (s.line < f)), (3, ls.any (·.dr)),
    (4, ls.any (·.dl)), (5, b.tdNow || ls.any (·.td)), (6, ls.any fun l => decide (0 < l.pstep)),
    (8, i.started && b.cap.segLog.any fun r => r.malformed && decide (i.s ≤ r.n) && decide (r.n < f) && decide (r.seg ∈ segs)),
    (10, b.itemSaturated i ls), (11, ls.any fun l => b.istUsed l.n), (12, ls.any (·.crawl))]

/-- The bar as an item's comparison sees it: what of a line arrived later than t_x(f − 1) + 32 × T_L is void (R196). -/
def Bar.heldBy (b : Bar) (i : Item) : Bar :=
  match i.f.bind fun f => (b.line? (f - 1)).map fun l => l.tx + (b.dVerdict f - 600000) / 8 with
  | some limit => { b with cap := { b.cap with segLog := b.cap.segLog.filter fun r => decide (r.held ≤ limit) } }
  | none => b

/-- The comparison of an item, with its geometry. -/
def Bar.inspectItem (b : Bar) (ix : Nat) (i : Item) : Option CmpGeom × InspResult :=
  let b := b.heldBy i
  if i.started then
    match b.itemRef i with
    | some r => let g := b.cmpGeom i r; (some g, b.inspect ix g)
    | none => (none, .empty)
  else (none, .empty)

/-- Verdict 0 PASS, 1 FAIL, 2 DEGRADED, 3 NOT_INSPECTED (R193). -/
def verdictOf (reasons failClasses : Nat) : Nat :=
  if reasons % 2 ^ 15 ≠ 0 || bit reasons 18 || bit reasons 19 then 3
  else if failClasses ≠ 0 then 1
  else if bit reasons 15 || bit reasons 16 || bit reasons 17 then 2
  else 0

/-- Coverage in 0.1 % (R192); 0 without a required set. -/
def coverageOf (r : InspResult) : Nat := if r.required = 0 then 0 else 1000 * r.compared / r.required

/-- The verdict of an item as R193 and R194 form it, with what inspection found. -/
def Bar.formVerdict (b : Bar) (ix : Nat) (i : Item) : Verdict × InspResult × Option CmpGeom × Bar :=
  let ls := b.frameLines i
  let (g, r) := b.inspectItem ix i
  let compared := g.isSome
  let cov := coverageOf r
  let low := compared && decide (0 < r.required) && decide (cov < i.laneN b 0x2509)
  let short := bit i.flags fShortFrame
  let reasons := i.reasons ||| b.lineReasons i ls
    ||| maskOf [(rShortFrame, low && short), (rLowCoverage, low && !short), (rConfigExcluded, compared && r.required = 0),
                (rRefWidened, r.widened)]
  let k := i.laneN b 0x2510
  let fails := ((List.range 7).map fun c =>
    let lim := b.pN i.laneSet (0x2520 + k) (0x0E + c)
    b2n (compared && decide (0 < lim) && decide (lim ≤ r.counts.getD c 0)) * 2 ^ c).sum
  let flags := i.flags ||| b.lineFlags i ls
    ||| maskOf [(9, decide (1024 < r.defects.length)), (14, r.fallback), (15, decide (0 < r.lateLines))]
  -- the handle's failure code as it stands now (R194)
  let ofHandle := bit reasons rRefUnavailable || bit reasons rRefGeometry || bit reasons rNoReference
  let handleDetail := if ofHandle then ((b.cap.refs.find? fun r => r.handle = i.handle).elim 0 fun r => r.detail) else 0
  -- an item published while its frame is open has no LENGTH yet: a free value
  let (len, b) := match i.f with | some f => (f - i.s, b) | none => if i.started then b.draw (2 ^ 24) else (0, b)
  ({ seq := i.seq.getD 0, number := i.number, lane := i.lane, verdict := verdictOf reasons fails, seqValid := i.seq.isSome
     failClasses := fails, coverage := cov, reasons := reasons, flags := flags
     detail := if i.detail ≠ 0 then i.detail else if handleDetail ≠ 0 then handleDetail else if bit reasons rNotLive then 0x42 else 0
     gen := if i.started then i.gen else 0, tPub := b.now, start := if i.started then i.s else 0, length := len
     counts := r.counts, records := min 1024 r.defects.length, deMax := r.deMax, handle := i.handle }, r, g, b)

/-! ### Hand-over of a published record -/

/-- A bucket filled up to now. -/
def Bucket.at (k : Bucket) (now rate size : Nat) : Bucket :=
  ⟨min (size * 10 ^ 9) (k.tokens + (now - k.time) * rate), now⟩

/-- The evidence bucket now: it fills at Q_E and holds 16 MiB (R320). -/
def Bar.evidenceBucket (b : Bar) : Bucket := b.dlv.evidence.at b.now (b.liveN 0x2900 8) 16777216
/-- The upload bucket now: it fills at the spool write allowance and holds 4 MiB (R311). -/
def Bar.uploadBucket (b : Bar) : Bucket := b.dlv.upload.at b.now b.spoolAllowance 4194304
/-- The buckets as the rates up to now have filled them, before a rate changes. -/
def Bar.settleBuckets (b : Bar) : Bar := { b with dlv := { b.dlv with evidence := b.evidenceBucket, upload := b.uploadBucket } }

/-- Evidence of n bytes takes its tokens, if the bucket holds them (R320). -/
def Bar.evidenceTake (b : Bar) (n : Nat) : Bar × Bool :=
  let k := b.evidenceBucket
  if n * 10 ^ 9 ≤ k.tokens then ({ b with dlv := { b.dlv with evidence := { k with tokens := k.tokens - n * 10 ^ 9 } } }, true)
  else ({ b with dlv := { b.dlv with evidence := k } }, false)

/-- A published record enters the TxPDO verdict queue (R345). -/
def Bar.queueVerdict (b : Bar) (bytes : List Byte) : Bar :=
  let slot := leNat (bytes.take 16)
  let e := b.ecat
  let full := decide (256 ≤ e.vq.length)
  let b :=
    { b with ecat := { e with
        vq := (if full then e.vq.drop 1 else e.vq) ++ [(e.vqNext, slot, none)]
        vqNext := (e.vqNext + 1) % 65536
        vqP := if full && e.vqP = e.vqBase then (e.vqP + 1) % 65536 else e.vqP
        vqBase := if full then (e.vqBase + 1) % 65536 else e.vqBase
        vqLost := if full then (e.vqLost + 1) % 256 else e.vqLost
        slotsLost := if full then sat32 e.slotsLost else e.slotsLost } }
  if full then b.logLimited 0x0045 0 0 1000000000 else b

/-- An evidence object's 64-byte header (Table 9-6). -/
def evidenceHeader (type coding flags length session seq index c0 width height y0 : Nat) : List Byte :=
  leBytes 2 type ++ leBytes 1 coding ++ leBytes 1 flags ++ leBytes 4 length ++ leBytes 4 session ++ leBytes 4 seq
    ++ leBytes 2 index ++ leBytes 2 c0 ++ leBytes 2 width ++ leBytes 2 height ++ leBytes 4 y0 ++ zeros 36

/-- An evidence object goes to the EVIDENCE stream and to storage; a GUARANTEED one is late beyond 1 s from its item's
publication (R315). -/
def Bar.evidenceObject (b : Bar) (guaranteed : Bool) (published session seq index line0 line1 gen : Nat) (bytes : List Byte) : Bar :=
  let late := guaranteed && decide (published + 1000000000 < b.now)
  let b := b.modSto fun s => { s with outbox := s.outbox ++ [⟨.object session seq index, bytes, line0, line1⟩] }
  b.sendAll { stream := 6, type := 1, cls := if guaranteed then 5 else 0, be := !guaranteed, late := late, line0 := line0
              line1 := line1, gen := gen, payload := bytes } bytes

/-- The crop of a defect (R191) in comparator pixels and lines: [x0, x1) × [r0, r1). -/
def cropSpan (lo hi limit : Nat) : Nat × Nat :=
  let a := lo - 16
  let c := min limit (hi + 16)
  if 256 < c - a then
    let start := min ((lo + hi) / 2 - 128) (limit - 256)
    (start, start + 256)
  else (a, c)

/-- A measured L*, a* or b* in the encoding of Table 6-1, rounded to the nearest code (DEDUCED, log 61). -/
def labCode (plane : Nat) (v : Int) : Nat :=
  if plane = 0 then (clampI 0 255 ((v * 255 * 2 + 25600) / 51200)).toNat else (clampI 0 255 ((v + 128) / 256 + 128)).toNat

def Bar.cropOf (b : Bar) (g : CmpGeom) (d : Defect) (guaranteed pinned : Bool) : Crop :=
  let off := g.n0 - g.item.s
  let rows := ceilDiv (g.item.f.getD b.lines - g.n0) g.span
  let (x0, x1) := cropSpan ((d.c0 - g.c0) / g.w) ((d.c1 - g.c0) / g.w) g.width
  let (r0, r1) := cropSpan ((d.y0 - off) / g.span) ((d.y1 - off) / g.span) rows
  let pixel (plane r x : Nat) : Option Nat := ((b.heldBy g.item).measuredLab g x r).map fun (lab, nir) =>
    match plane with | 0 => labCode 0 lab.1 | 1 => labCode 1 lab.2.1 | 2 => labCode 2 lab.2.2 | _ => nir
  { session := b.sto.session, seq := d.seq, index := d.index, c0 := g.c0 + x0 * g.w, width := x1 - x0, height := r1 - r0
    y0 := off + r0 * g.span
    planes := (List.range 4).map fun p => (List.range (r1 - r0)).map fun r => (List.range (x1 - x0)).map fun x => pixel p (r0 + r) (x0 + x)
    guaranteed := guaranteed, pinned := pinned, published := b.now, line0 := g.item.s, line1 := g.item.f.getD b.lines, gen := d.gen }

/-- A crop's planes in line order, for the deflate engine; a void sample is delivered as 0 (R235). -/
def Crop.bytes (c : Crop) : List Byte :=
  (List.range 4).flatMap fun p => (List.range c.height).flatMap fun y => (List.range c.width).flatMap fun x =>
    leBytes 1 ((((c.planes.getD p []).getD y []).getD x none).getD 0)

/-- Blocks of a plane, padded as R174 says: by its last pixel and last line. -/
def cropBlocks (rows : List (List (Option Nat))) (w h : Nat) : List (List (Option Nat)) :=
  let at_ (x y : Nat) : Option Nat := (rows.getD (min y (h - 1)) []).getD (min x (w - 1)) none
  (List.range (ceilDiv h 4)).flatMap fun by_ => (List.range (ceilDiv w 16)).map fun bx =>
    (List.range 64).map fun i => at_ (16 * bx + i % 16) (4 * by_ + i / 16)

/-- A crop coded at d = 8, r = 2 (R239, R241, R255): block row by block row, in each the planes' blocks in ascending order and
then their summaries; and how many FAULTs the replica found. -/
def cropSbf (c : Crop) : List Byte × Nat :=
  let n := ceilDiv c.width 16
  let blocks := c.planes.map fun p => cropBlocks p c.width c.height
  let rows := (List.range (ceilDiv c.height 4)).map fun j => blocks.map fun bs => ((bs.drop (j * n)).take n).map (sbfCode 8 2)
  (rows.flatMap fun ps => ps.flatMap (fun cs => cs.flatMap fun x => x.bytes 8 2)
      ++ ps.flatMap fun cs => (groupsOf n cs).flatMap fun g => leBytes 2 (summaryOf 8 2 g),
   (rows.flatMap fun ps => ps.map fun cs => cs.countP (sbfFault 8 2)).sum)

/-- A crop's job of the deflate engine. Its chain is one buffer that holds any result (DESIGN CHOICE, log 61). -/
def Crop.job (c : Crop) : Job :=
  { owner := .crop c.session c.seq c.index, deflate := true, wrap := true, guaranteed := c.guaranteed, input := c.bytes, declared := 0, toSbf := false
    chain := [⟨0, 1048576, 0, 0⟩], status := .queued, consumed := 0, produced := 0, error := 0, buffers := 0, check := 0, output := [] }

/-- The size of a crop's object (R320): the engine's result is the same whenever it runs, so that it is known at once (R248, R255). -/
def Bar.cropSize (b : Bar) (c : Crop) : Nat :=
  let j := endDeflate (b.rwN 0x2710 1) c.job
  64 + if j.status = .done then j.output.length else (cropSbf c).1.length

/-- A crop goes to the deflate engine (R255). -/
def Bar.submitCrop (b : Bar) (c : Crop) : Bar := (b.modCap fun k => { k with crops := k.crops ++ [c] }).queueJob c.job

/-- Bytes of the evidence and DEFLATE buffers in use (R16): the inputs of the jobs that are queued, and their chains. -/
def Bar.chainBytes (b : Bar) : Nat :=
  ((b.cod.deflateRun.toList ++ b.cod.deflateG ++ b.cod.deflateB).map fun j => j.input.length + (j.chain.map (·.size)).sum).sum

/-- The crops of an item's records: the first N are GUARANTEED while the bucket holds their size; a later one is queued
or dropped, which the spec leaves open. Answers the records with EVIDENCE set, the INDEX of the guaranteed crops due, and
whether one was dropped. -/
def Bar.cutCrops (b : Bar) (g : CmpGeom) (pinned : Bool) (limit : Nat) : List Defect → Nat → Bar × List Defect × List Nat × Bool
  | [], _ => (b, [], [], false)
  | d :: rest, n =>
    let c := b.cropOf g d true pinned
    let (b, gold) := if n < limit then b.evidenceTake (b.cropSize c) else (b, false)
    let full := decide (regionBytes 6 < b.chainBytes + c.bytes.length + 1048576)
    let (keep, b) := if gold then (1, b) else if full then (0, b) else b.draw 2
    let b := if keep = 1 then b.submitCrop { c with guaranteed := gold } else b
    let (b, ds, due, dropped) := b.cutCrops g pinned limit rest (n + 1)
    (b, { d with evidence := decide (keep = 1) } :: ds, if gold then d.index :: due else due, dropped || keep ≠ 1)

/-- Publication of a record (R195): T_PUB is now; the VERDICT stream, the TxPDO queue, the verdict feed, the EVIDENCE
stream and the ledger take it. `pinned`: the item's pin has been taken; `due` names its guaranteed crops. -/
def Bar.publish (b : Bar) (v : Verdict) (ds : List Defect) (frame : Option (Nat × Nat)) (pinned : Bool) (due : List Nat) (late : Bool) : Bar :=
  let v := { v with tPub := b.now }
  let rec64 := v.bytes
  let v4 : Fin 4 := ⟨v.verdict % 4, by omega⟩
  let b := b.modCap fun c => { c with insp := { c.insp with published := sat32 c.insp.published, byVerdict := vmod c.insp.byVerdict v4 sat32 } }
  let (l0, l1) := frame.getD (0, 0)
  let b := b.sendAll { stream := 1, type := 1, cls := 7, be := false, late := late, line0 := l0, line1 := l1, gen := v.gen
                       payload := rec64 ++ (ds.take 16).flatMap (·.bytes) } (rec64.take 16)
  let b := if b.ecat.session then b.queueVerdict rec64 else b
  let posS := if v.seqValid then match b.line? v.start with | some l => unsigned 32 l.pos | none => 0 else 0
  let b := b.feedVerdict v.verdict v.lane v.seq posS v.seqValid
  let body := rec64 ++ (ds.take 1024).flatMap (·.bytes)
  let set := evidenceHeader 1 0 (b2n pinned * 2) body.length b.sto.session v.seq 0xFFFF 0 0 0 0 ++ body
  let entry : ItemEntry := { seq := v.seq, verdict := rec64, published := b.now, frame := frame, defects := min 1024 ds.length, cropsDue := due
                             crops := [], set := set, pinned := pinned, lost := false, refOffset := b.cap.tb.offset }
  if v.seqValid then
    let (b, gold) := b.evidenceTake set.length
    let b := b.modSto fun s => { s with items := s.items ++ [entry] }
    b.evidenceObject gold b.now b.sto.session v.seq 0xFFFF l0 l1 v.gen set
  else b.formItem { entry with set := [] }

/-- A refused announcement's record, or one of an item that left its queue without a frame (R194). `td`: the timebase is in
holdover or on the internal oscillator, and the record carries TIMING_DEGRADED (R84). -/
def bareVerdict (number lane reason detail handle : Nat) (td : Bool) : Verdict :=
  { seq := 0, number := number, lane := lane, verdict := 3, seqValid := false, failClasses := 0, coverage := 0
    reasons := 2 ^ reason, flags := b2n td * 32, detail := detail, gen := 0, tPub := 0, start := 0, length := 0
    counts := List.replicate 7 0, records := 0, deMax := 0, handle := handle }

/-- NOT_LIVE joins the reasons of a record published outside OP (R330). -/
def Bar.liveRule (b : Bar) (v : Verdict) : Verdict :=
  if b.ecat.session && b.ecat.al ≠ .op then
    { v with verdict := 3, reasons := setBit v.reasons rNotLive, detail := if v.detail = 0 then 0x42 else v.detail }
  else v

def Bar.publishBare (b : Bar) (number lane reason detail handle : Nat) : Bar :=
  b.publish (b.liveRule (bareVerdict number lane reason detail handle b.tdNow)) [] none false [] false

/-- Verdict of the item at an index is formed and published. -/
def Bar.publishItem (b : Bar) (ix : Nat) : Bar :=
  match b.cap.items[ix]? with
  | none => b
  | some i =>
    if i.published then b
    else
      let late := match b.deadline i with | some t => decide (t < b.now) | none => false
      let (v, r, g, b) := b.formVerdict ix i
      let frame := if i.started then some (i.s, i.f.getD b.lines) else none
      let (b, pinned) := if i.pin && v.seqValid then b.pinItem b.sto.session v.seq (frame.elim [] fun f => (b.sto.frameChunks f).map (·.number)) else (b, false)
      let (b, ds, due, dropped) := match g with
        | some g => b.cutCrops g pinned (b.pN (b.setAt i.s) 0x2514 0) (r.defects.take 1024) 0
        | none => (b, [], [], false)
      let v := { v with flags := v.flags ||| maskOf [(13, dropped)] }
      let b := b.modItemAt ix fun i => { i with published := true }
      let b := b.publish v ds frame pinned due late
      let b := b.modCap fun c => { c with insp := { c.insp with
        refLate := satAdd32 c.insp.refLate r.lateLines, small := satAdd32 c.insp.small r.small } }
      let b := r.overflowSegs.foldl (fun b s => b.logEvent 0x5054 (s * 2 ^ 56 + v.seq)) b
      let b := if 1024 < r.defects.length then b.logEvent 0x5055 v.seq else b
      if 0 < r.lateLines then b.logEvent 0x5052 0 else b

/-! ### The Safety Net (R46, R47, R420 to R423) -/

/-- SNFLAGS bits of the active causes (Table 15-2). -/
def Causes.bits (c : Causes) : Nat :=
  maskOf [(0, c.tb), (1, c.slack), (2, c.spool), (3, !c.lineSegs.isEmpty), (4, c.late), (5, c.fw), (6, c.host),
    (7, !c.istFails.isEmpty || c.istOverrun), (8, !c.stall.isEmpty || !c.dram.isEmpty || c.crit || c.lockstep || c.absent)]

def Bar.modSn (b : Bar) (f : SafetyNet → SafetyNet) : Bar := { b with saf := { b.saf with sn := f b.saf.sn } }
def Bar.modCauses (b : Bar) (f : Causes → Causes) : Bar := b.modSn fun s => { s with causes := f s.causes }

/-- FAULT_N is high only while all of R424 hold. -/
def Bar.faultHigh (b : Bar) : Bool :=
  b.ecat.al = .op && !b.saf.sn.engaged && b.saf.ist.done && b.saf.power = .running && b.saf.resetAt.isNone && !b.saf.faultMismatch

/-- The order of step 4 of R422: deadline, items without one last. -/
def Bar.duesBefore (b : Bar) (i j : Nat) : Bool :=
  let due (x : Nat) := (b.cap.items[x]?).bind b.deadline
  match due i, due j with
  | some a, some c => decide (a ≤ c)
  | some _, none => true
  | none, some _ => false
  | none, none => decide (i ≤ j)

/-- Every announced item without a verdict is published, in the order of R422. -/
def Bar.publishAll (b : Bar) : Bar :=
  let ixs := (List.range b.cap.items.length).filter fun x => match b.cap.items[x]? with | some i => !i.published | none => false
  (ixs.mergeSort b.duesBefore).foldl (fun b x => b.publishItem x) b

/-- A cause arises: the Safety Net engages, or, engaged already, only notes the cause (R422). `code` is the cause's detail
code. -/
def Bar.engage (b : Bar) (code : Nat) (f : Causes → Causes) : Bar :=
  let b := b.modCauses f
  let b := b.modSn fun s => { s with since := s.since ||| s.causes.bits }
  if b.saf.sn.engaged then b
  else
    let b := b.modSn fun s => { s with engaged := true, engagements := sat32 s.engagements, lastEngaged := b.now, lastCode := code }
    let since := b.saf.sn.since
    let b := { b with saf := { b.saf with ret := { b.saf.ret with snEntries := sat32 b.saf.ret.snEntries, lastSn := since } } }
    let b := b.modItems fun i => if i.published then i else { i.withReason rSafetyNet with detail := code }
    b.publishAll.logWith 0xD020 since 3 true false

/-- A cause clears; a release waits for a coverage pass that starts after the last one (R425). -/
def Bar.clearCause (b : Bar) (f : Causes → Causes) : Bar :=
  let before := b.saf.sn.causes.bits
  let b := b.modCauses f
  if before ≠ 0 && b.saf.sn.causes.bits ≠ before then b.modSn fun s => { s with lastClear := b.now } else b

/-- The guard: an item without a verdict 50 µs before its deadline (R195). -/
def Bar.verdictLate (b : Bar) (lane number : Nat) : Bar :=
  match b.findItem lane number with
  | none => b
  | some ix =>
    match (b.cap.items[ix]?).bind b.deadline with
    | none => b
    | some t =>
      if t ≤ b.now + 50000 then
        let seq := (((b.cap.items[ix]?).bind (·.seq)).getD 0)
        let net := b.saf.sn.engaged
        let b := b.modItemAt ix fun i => let i := i.withReason rVerdictLate; if net then i.withReason rSafetyNet else i
        let b := b.publishItem ix
        let b := b.modCap fun c => { c with insp := { c.insp with late := sat32 c.insp.late } }
        let b := b.modSn fun s => { s with lastLate := b.now }
        (b.engage 0x5053 fun c => { c with late := true }).logEvent 0x5053 (lane * 2 ^ 32 + seq)
      else b

/-- The dead-reckoning episode of a line of the item still runs (R103). -/
def Bar.drHeld (b : Bar) (i : Item) : Bool :=
  decide (0 < b.cap.syn.drRun) && (b.frameLines i).any fun l => l.dr && decide (b.lines - b.cap.syn.drRun ≤ l.n)

/-- Every output line of the frame is complete, or 32 T_L have passed since its last line (R196). -/
def Bar.frameHeld (b : Bar) (i : Item) (f : Nat) : Bool :=
  (List.range (f - i.s)).all (fun y => b.lineComplete (i.s + y)) ||
    match b.line? (f - 1) with | some l => decide (l.tx + (b.dVerdict f - 600000) / 8 ≤ b.now) | none => false

/-- A formed verdict is published: its frame has closed, its lines are there, no episode holds it (R103, R195). -/
def Bar.verdictReady (b : Bar) (i : Item) : Bool :=
  match i.f with
  | some f => !b.drHeld i && (f ≤ i.s || b.frameHeld i f)
  | none => false

def Bar.verdictPublish (b : Bar) (lane number : Nat) : Bar :=
  match b.findItem lane number with
  | none => b
  | some ix => match b.cap.items[ix]? with
    | some i => if b.verdictReady i then b.publishItem ix else b
    | none => b

/-! ### Evidence crops coded (R255, R275) -/

/-- The deflate engine has ended a crop's job: the crop's object holds its zlib stream, or its SBF blocks. -/
def Bar.cropDone (b : Bar) (j : Job) (session seq index : Nat) : Bar :=
  let its (c : Crop) : Bool := c.session = session && c.seq = seq && c.index = index
  match b.cap.crops.find? its with
  | none => b
  | some c =>
    let b := b.modCap fun k => { k with crops := k.crops.filter fun x => !its x }
    let object (coding faulty : Nat) (body : List Byte) : List Byte :=
      evidenceHeader 2 coding (faulty + b2n c.pinned * 2) body.length c.session c.seq c.index c.c0 c.width c.height c.y0 ++ body
    if j.status = .done then b.evidenceObject c.guaranteed c.published c.session seq index c.line0 c.line1 c.gen (object 1 0 j.output)
    else
      let (body, faults) := cropSbf c
      let b := (b.modCod fun k => { k with cropsSbf := sat32 k.cropsSbf }).sbfFaults faults
      b.evidenceObject c.guaranteed c.published c.session seq index c.line0 c.line1 c.gen (object 2 (b2n (decide (0 < faults))) body)

end Sys2Proof.Machine
end

