-- ==== Sys2Proof/Machine/Ingest.lean ====
section
/-! DEFINITION. Job containers taken in: parsing, checks, re-coding and commit (R168 to R174), and how an FoE transfer
is answered (R349, R350). -/

namespace Sys2Proof.Machine

/-! ### FoE answers (R350) -/

/-- Names of the detail codes that an FoE ERROR carries. -/
def foeNames : List (Nat × String) :=
  [(0x0030, "FOE_NAME"), (0x0031, "FOE_STATE"), (0x0032, "FOE_SIZE"), (0x0033, "FOE_PACKET"), (0x0034, "FOE_BUSY"),
   (0x4008, "CAL_NOT_PREOP"), (0x4009, "CAL_FILE_INVALID"), (0x5040, "CONTAINER_INVALID"), (0x5041, "JOBSEG_CRC"),
   (0x5042, "JOBSEG_INFLATE"), (0x5043, "JOBSEG_SIZE"), (0x5044, "REF_HEADER_INVALID"), (0x5045, "REF_EXISTS"),
   (0x5046, "SPOOL_FULL"), (0x504C, "SPOOL_UNAVAILABLE"), (0x6007, "MAP_INVALID"), (0x7020, "SBF_SELFCHECK"),
   (0x8002, "NOT_PREOP"), (0x8006, "PROFILE_INVALID"), (0xE009, "IDENTITY_UNAVAILABLE"),
   (0xE010, "IMG_FORMAT"),
   (0xE011, "IMG_ROOT"), (0xE012, "IMG_ENDORSEMENT"), (0xE013, "IMG_KEY_REVOKED"), (0xE014, "IMG_SIGNATURE"),
   (0xE015, "IMG_DIGEST"), (0xE016, "IMG_ROLLBACK")]

/-- A number as four capital hex digits. -/
def hex4 (n : Nat) : List Byte :=
  [12, 8, 4, 0].map fun s => let d := (n >>> s) % 16; BitVec.ofNat 8 (if d < 10 then 48 + d else 55 + d)

/-- The text of an FoE ERROR. -/
def foeText (code : Nat) : List Byte :=
  hex4 code ++ [0x20] ++ asciiBytes (((foeNames.find? (·.1 = code)).map (·.2)).getD "")

/-- An FoE transfer ends with ERROR; the detail goes to 0x2F01:04, and to the event log where it is not there yet. -/
def Bar.foeError (b : Bar) (error detail : Nat) (logIt : Bool) : Bar :=
  let b := { b with sm1 := b.sm1 ++ [.foeError error (foeText detail)], foeDetail := detail }
  if logIt then b.logEvent detail 0 else b

/-- The ACK of a packet. -/
def Bar.foeAck (b : Bar) (packet : Nat) : Bar := { b with sm1 := b.sm1 ++ [.foeAck packet] }

/-! ### Transfers and references -/

def Ingest.isFor (v : Bool) (k : Nat) (i : Ingest) : Bool := i.viaFoe = v && i.ksid = k

/-- The container transfer over FoE, or of a session. -/
def Bar.ingest? (b : Bar) (v : Bool) (k : Nat) : Option Ingest := b.cap.ingests.find? (·.isFor v k)
def Bar.modIngest (b : Bar) (v : Bool) (k : Nat) (f : Ingest → Ingest) : Bar :=
  b.modCap fun c => { c with ingests := c.ingests.map fun i => if i.isFor v k then f i else i }

/-- A reference of a handle recorded. -/
def Bar.putRef (b : Bar) (r : Reference) : Bar := b.modCap fun c => { c with refs := r :: c.refs.filter fun x => x.handle ≠ r.handle }
def Bar.ref? (b : Bar) (h : Nat) : Option Reference := b.cap.refs.find? (·.handle = h)

def Reference.ofHeader (handle width height res inkMask charge : Nat) : Reference :=
  { handle := handle, state := .ingesting, detail := 0, width := width, height := height, res := res, inkMask := inkMask,
    planes := [], inks := [], charge := charge, maxW := 0 }

/-- A reference that has failed: its partial data and its charge are released (R171, R172). -/
def Reference.fail (r : Reference) (detail : Nat) : Reference :=
  { r with state := .failed, detail := detail, planes := [], inks := [], charge := 0, maxW := 0 }

/-- q of R167. -/
def inkQ (res : Nat) : Nat := max 1 (res / 75)

/-- Bytes of a band that covers `lines` lines, 8 of them but in a last band (R266). -/
def bandBytes (width res inks lines : Nat) : Nat :=
  let blocks := ceilDiv width 16
  let perRow := 4 * blocks * 8 + 4 * ceilDiv blocks 16 * 2
  let q := inkQ res
  ceilDiv (ceilDiv lines 4 * perRow + inks * ceilDiv lines q * ceilDiv width q) 64 * 64

/-- The full stored size of a reference (R172, R266). -/
def refCharge (width height res inkMask : Nat) : Nat :=
  let inks := (List.range 8).countP fun k => bit inkMask k
  let last := if height % 8 = 0 then 0 else bandBytes width res inks (height % 8)
  512 + height / 8 * bandBytes width res inks 8 + last

/-- Charges held (0x2540:0B). -/
def Bar.refCharges (b : Bar) : Nat := (b.cap.refs.map (·.charge)).sum

/-- A first failure is kept. -/
def Ingest.fault (i : Ingest) (code : Nat) : Ingest := { i with firstFail := if i.firstFail.isSome then i.firstFail else some code }

/-- The run in progress, if there is one, fails with its reference; what follows is skipped to the next REFHDR (R171). -/
def Bar.failRun (b : Bar) (v : Bool) (k code : Nat) : Bar :=
  match b.ingest? v k with
  | none => b
  | some i =>
    let b := b.modIngest v k fun i =>
      { i.fault code with run := none, runSkip := true, parts := [], expect := [], commitDue := false
                          failCount := i.failCount + b2n i.run.isSome }
    match i.run with
    | none => b
    | some h =>
      let b := match b.ref? h with | some r => b.putRef (r.fail code) | none => b
      b.logEvent 0x5051 (code * 2 ^ 48 + h)

/-- CONTAINER_INVALID, with the container's JOB_ID. -/
def Bar.containerInvalid (b : Bar) (v : Bool) (k : Nat) : Bar :=
  match b.ingest? v k with
  | none => b
  | some i => (b.modIngest v k fun i => i.fault 0x5040).logEvent 0x5040 (match i.header with | some h => h.2.1 | none => 0)

/-! ### Parsing (R168, R169) -/

/-- The container header at the front of the buffer. -/
def Bar.takeHeader (b : Bar) (v : Bool) (k : Nat) (i : Ingest) : Bar :=
  let h := i.buffer.take 64
  let ok := leAt h 0 4 = 0x424F4A5A && (leAt h 4 2 = 1 || leAt h 4 2 = 2) && leAt h 6 2 = 0 && sliceAt h 0x18 36 = zeros 36
    && leAt h 0x3C 4 = crc32c (h.take 60)
  let b := b.modIngest v k fun i =>
    { i with buffer := i.buffer.drop 64, taken := 64, header := some (leAt h 4 2, leAt h 8 4, leAt h 0x0C 4, leAt h 0x10 8) }
  if ok then b else (b.modIngest v k fun i => { i with ended := true }).containerInvalid v k

/-- The END segment: a fault of its own is CONTAINER_INVALID. It ends a run that is incomplete, whose reference fails as the
container's incomplete one. DEDUCED (log 128): R171 lets an END make no reference FAILED and an incomplete reference fail; with
a faulty END the reference fails for being incomplete, under CONTAINER_INVALID. -/
def Bar.takeEnd (b : Bar) (v : Bool) (k : Nat) (i : Ingest) (faulty : Bool) : Bar :=
  let b := if i.run.isSome then b.failRun v k (if faulty then 0x5040 else 0x5044) else b
  let b := b.modIngest v k fun i => { i with ended := true }
  if faulty then b.containerInvalid v k else b

/-- A job segment that has passed its CRC goes to the inflate engine (R170). -/
def Bar.inflateSegment (b : Bar) (v : Bool) (k : Nat) (seg : JobSeg) : Bar :=
  b.queueJob
    { owner := .ingest v k, deflate := false, wrap := true, guaranteed := false, input := seg.data, declared := seg.raw, toSbf := true
      chain := [], status := .queued, consumed := 0, produced := 0, error := 0, buffers := 0, check := 0, output := [] }

/-- A whole job segment of `len` bytes at the front of the buffer is complete in DRAM: it enters the inflate engine's queue
then, in the order in which each becomes complete (R247), and waits for its checks. -/
def Bar.takeSegment (b : Bar) (v : Bool) (k : Nat) (i : Ingest) (len : Nat) : Bar :=
  let s := i.buffer.take len
  let crcOk := leAt s (len - 4) 4 = crc32c (s.take (len - 4))
  let seg : JobSeg := ⟨leAt s 0 2, leAt s 2 2, leAt s 4 4, leAt s 8 8, leAt s 0x18 8 = 0, (s.take (len - 4)).drop 32⟩
  let last := decide (seg.type = 0xFFFF)
  let wait : SegWait :=
    if last then .final (!crcOk || seg.sub ≠ 0 || seg.handle ≠ 0 || seg.raw ≠ 0 || leAt s 0x10 8 ≠ 0 || !seg.resv)
    else if crcOk then .engine else .badCrc
  let skipped := i.runSkip && i.waits.isEmpty && seg.type ≠ 1 && !last
  let b := b.modIngest v k fun i =>
    { i with buffer := i.buffer.drop len, taken := i.taken + len, segsSeen := i.segsSeen + 1, parsedEnd := last
             waits := if skipped then i.waits else i.waits ++ [(seg, wait)] }
  if !skipped && wait = .engine then b.inflateSegment v k seg else b

/-- One piece of the buffer is parsed; none while bytes are missing or storage holds the container. -/
def Bar.parseStep (b : Bar) (v : Bool) (k : Nat) : Option Bar :=
  match b.ingest? v k with
  | none => none
  | some i =>
    if i.ended || i.parsedEnd || b.sto.state ≠ .mounted then none
    else match i.header with
      | none => if i.buffer.length < 64 then none else some (b.takeHeader v k i)
      | some _ =>
        let len := 36 + (if leAt i.buffer 0 2 = 0xFFFF then 0 else leAt i.buffer 0x10 8)
        if i.buffer.length < 32 || i.buffer.length < len then none else some (b.takeSegment v k i len)

/-- The first session of an upload's KSID. -/
def Bar.ksidPeer (b : Bar) (k : Nat) : Option Nat := (b.dlv.sessions.find? (·.ksid = k)).map (·.peer)

/-- What is reported when a transfer has ended: ACK or ERROR over FoE, RESULT over KSP (R171, R311, R350). -/
def Bar.ingestAnswer (b : Bar) (i : Ingest) : Bar :=
  let status := i.firstFail.getD 0
  if i.viaFoe then
    let last := match b.foe with | some f => f.nextPacket - 1 | none => 0
    let b := { b with foe := none }
    if status = 0 then b.foeAck last
    else b.foeError (if status = 0x5046 || status = 0x32 then 0x8003 else if status = 0x504C then 0x8002 else if status = 0x33 then 0x8005 else 0x8004) status
      (status ≠ 0x5040 && status ≠ 0x5042 && status ≠ 0x7020)
  else match b.ksidPeer i.ksid with
    | none => b
    | some p =>
      let b := b.modSession p fun s => { s with upload := none }
      b.sendUnit p { stream := 7, type := 4, cls := 5, be := false, late := false, line0 := 0, line1 := 0, gen := 0
                     payload := leBytes 4 i.upload ++ leBytes 4 status ++ leBytes 4 i.readyCount ++ leBytes 4 i.failCount }

/-- A transfer whose bytes have all been checked ends: COUNT and LENGTH must agree with what was found (R171). -/
def Bar.ingestFinish (b : Bar) (v : Bool) (k : Nat) : Bar :=
  match b.ingest? v k with
  | none => b
  | some i =>
    if i.closed && i.waits.isEmpty && !i.commitDue then
      let refused := i.ended && i.segsSeen = 0
      let b :=
        if !i.ended then (if i.run.isSome then b.failRun v k 0x5040 else b).containerInvalid v k
        else match i.header with
          | some (_, _, count, length) =>
            if !refused && (i.segsSeen ≠ count || i.taken ≠ length || i.buffer ≠ []) then b.containerInvalid v k else b
          | none => b
      match b.ingest? v k with
      | some i => (b.modCap fun c => { c with ingests := c.ingests.filter fun x => !x.isFor v k }).ingestAnswer i
      | none => b
    else b

/-! ### Checks of an inflated segment (R170, R172) -/

/-- The size R169 requires. -/
def requiredSize (type : Nat) (r : Option Reference) : Option Nat :=
  if type = 1 then some 32
  else r.bind fun r =>
    if 2 ≤ type && type ≤ 5 then some (r.width * r.height)
    else if type = 6 then some (ceilDiv r.width (inkQ r.res) * ceilDiv r.height (inkQ r.res))
    else none

/-- A REFHDR that has inflated to 32 bytes (Table 6-4). -/
def Bar.takeRefHeader (b : Bar) (v : Bool) (k : Nat) (version : Nat) (seg : JobSeg) (d : List Byte) : Bar :=
  let h := leAt d 0 4
  let w := leAt d 4 4
  let ht := leAt d 8 4
  let res := leAt d 0x0C 2
  let mask := leAt d 0x0E 1
  let bad := seg.sub ≠ 0 || !seg.resv || h ≠ seg.handle || h = 0 || sliceAt d 0x0F 17 ≠ zeros 17 || (res ≠ 600 && res ≠ 300)
    || decide (w < 16) || decide (61440 * res / 1200 < w) || decide (ht < 4) || decide (16777215 < ht) || (version = 1 && mask ≠ 0)
  if bad then b.failRun v k 0x5044
  else
    let held : Bool := match b.ref? h with | some r => r.state = .ingesting || r.state = .ready | none => false
    if held then
      (b.modIngest v k fun i => { i.fault 0x5045 with runSkip := true, failCount := i.failCount + 1 }).logEvent 0x5051 (0x5045 * 2 ^ 48 + h)
    else
      let charge := refCharge w ht res mask
      let full := decide (b.sto.quotaSpool * 1000000000 < b.refCharges + charge)
      let b := (b.putRef (Reference.ofHeader h w ht res mask charge)).modIngest v k fun i =>
        { i with run := some h, runSkip := false, parts := []
                 expect := [2, 3, 4, 5].map (fun t => (t, 0)) ++ ((List.range 8).filter fun q => bit mask q).map fun q => (6, q) }
      if full then b.failRun v k 0x5046 else b

/-- Rows of a plane of w bytes a line. -/
def planeRows (w : Nat) : Nat → List Byte → List (List Nat)
  | 0, _ => []
  | n + 1, bs => (bs.take w).map (·.toNat) :: planeRows w n (bs.drop w)

/-- A plane re-coded (R174): padded by its last pixel and line, in blocks of 16 × 4 at depth 8 and ratio 8; what the
decoder gives, the error bound of every group, and how many FAULTs the replica found. -/
def recodePlane (w h : Nat) (bs : List Byte) : Plane × Nat :=
  let rows := planeRows w h bs
  let line (y : Nat) : List (Option Nat) :=
    let r := rows.getD (min y (h - 1)) []
    (List.range (16 * ceilDiv w 16)).map fun x => r[min x (w - 1)]?
  let coded := (List.range (ceilDiv h 4)).map fun j => sbfBlockRow 8 8 (ceilDiv w 16) ((List.range 4).map fun y => line (4 * j + y))
  ({ rows := coded.flatMap fun c => (List.range 4).map fun y => (c.line y).map (·.getD 0)
     bounds := coded.flatMap fun c => c.summaries.map (· % 0x8000), coded := coded.map fun c => (c.bytes, c.summaries) }, (coded.map (·.faults)).sum)

/-- The largest W of a reference (0x2540:08). -/
def largestW (ps : List Plane) : Nat :=
  let bound (p i : Nat) : Nat := match ps[p]? with | some x => x.bounds.getD i 0 | none => 0
  let n := match ps with | x :: _ => x.bounds.length | [] => 0
  ((List.range n).map fun i => widening (bound 0 i) (bound 1 i) (bound 2 i)).foldl max 0

/-- Every segment of the run has passed: the reference is re-coded and waits for its commit. -/
def Bar.recode (b : Bar) (v : Bool) (k : Nat) (r : Reference) (parts : List JobSeg) : Bar :=
  let data (t s : Nat) : List Byte := match parts.find? fun p => p.type = t && p.sub = s with | some p => p.data | none => []
  let coded := [2, 3, 4, 5].map fun t => recodePlane r.width r.height (data t 0)
  let faults := (coded.map (·.2)).sum
  let b := b.sbfFaults faults
  if 0 < faults then b.failRun v k 0x7020
  else
    let q := inkQ r.res
    let inks := ((List.range 8).filter fun n => bit r.inkMask n).map fun n => planeRows (ceilDiv r.width q) (ceilDiv r.height q) (data 6 n)
    let planes := coded.map (·.1)
    (b.putRef { r with planes := planes, inks := inks, maxW := largestW planes }).modIngest v k fun i =>
      { i with parts := [], commitDue := true }

/-- Steps 2 to 4 of R170 for a segment that the engine has ended. A REFHDR that passes them within an incomplete run ends that
run, out of order. -/
def Bar.checkSegment (b : Bar) (v : Bool) (k : Nat) (i : Ingest) (seg : JobSeg) (j : Job) : Bar :=
  let run := i.run.bind fun h => b.ref? h
  let size := requiredSize seg.type run
  if j.status ≠ .done then (b.logEvent 0x5042 (j.error * 2 ^ 48 + j.consumed % 2 ^ 48)).failRun v k 0x5042
  else if j.output.length ≠ seg.raw || (size.isSome && size ≠ some seg.raw) then b.failRun v k 0x5043
  else if seg.type = 1 then
    (if i.run.isSome then b.failRun v k 0x5044 else b).takeRefHeader v k (match i.header with | some h => h.1 | none => 2) seg j.output
  else if i.expect.head? ≠ some (seg.type, seg.sub) || i.run ≠ some seg.handle || !seg.resv then b.failRun v k 0x5044
  else
    let parts := i.parts ++ [{ seg with data := j.output }]
    let b := b.modIngest v k fun i => { i with expect := i.expect.drop 1, parts := parts }
    if i.expect.length = 1 then (match run with | some r => b.recode v k r parts | none => b) else b

/-- The checks of the oldest waiting segment, once the engine has ended it; none while a commit is awaited. A segment of a run
that has failed is skipped (R171). -/
def Bar.settleStep (b : Bar) (v : Bool) (k : Nat) : Option Bar :=
  match b.ingest? v k with
  | none => none
  | some i =>
    if i.commitDue || b.sto.state ≠ .mounted then none
    else match i.waits with
      | [] => none
      | (_, .engine) :: _ => none
      | (seg, w) :: rest =>
        let b := b.modIngest v k fun i => { i with waits := rest }
        match w with
        | .engine => none
        | .final faulty => some (b.takeEnd v k i faulty)
        | .badCrc => some (if i.runSkip && seg.type ≠ 1 then b else b.failRun v k 0x5041)
        | .inflated j => some (if i.runSkip && seg.type ≠ 1 then b else b.checkSegment v k i seg j)

/-- Checks and parsing go on as far as they can. -/
def Bar.ingestRun (b : Bar) (v : Bool) (k : Nat) : Nat → Bar
  | 0 => b
  | n + 1 => match b.settleStep v k with
    | some b' => b'.ingestRun v k n
    | none => match b.parseStep v k with
      | some b' => b'.ingestRun v k n
      | none => b.ingestFinish v k

def Bar.pumpIngest (b : Bar) (v : Bool) (k : Nat) : Bar :=
  match b.ingest? v k with
  | some i => b.ingestRun v k (2 * i.buffer.length + i.waits.length + 2)
  | none => b

/-- The oldest segment with the engine gets its job's end. -/
def giveJob (j : Job) : List (JobSeg × SegWait) → List (JobSeg × SegWait)
  | [] => []
  | (seg, .engine) :: rest => (seg, .inflated j) :: rest
  | x :: rest => x :: giveJob j rest

/-- The inflate engine has ended a job segment's job. -/
def Bar.ingestJob (b : Bar) (j : Job) (v : Bool) (k : Nat) : Bar :=
  (b.modIngest v k fun i => { i with waits := giveJob j i.waits }).pumpIngest v k

/-! ### Transfers -/

/-- A new transfer. -/
def Bar.openIngest (b : Bar) (v : Bool) (k upload : Nat) : Bar :=
  b.modCap fun c => { c with ingests := c.ingests ++
    [{ viaFoe := v, ksid := k, upload := upload, buffer := [], taken := 0, header := none, segsSeen := 0, run := none, runSkip := false
       expect := [], parts := [], waits := [], parsedEnd := false, commitDue := false, ended := false, closed := false, firstFail := none
       readyCount := 0, failCount := 0, lastData := b.now }] }

/-- Container bytes arrive. -/
def Bar.feedIngest (b : Bar) (v : Bool) (k : Nat) (bs : List Byte) (last : Bool) : Bar :=
  (b.modIngest v k fun i => { i with buffer := i.buffer ++ bs, closed := i.closed || last, lastData := b.now }).pumpIngest v k

/-- A transfer ends as a container that ends before END; the reference it was taking in fails with a code of its own. -/
def Bar.cutIngest (b : Bar) (v : Bool) (k code : Nat) : Bar :=
  match b.ingest? v k with
  | none => b
  | some i =>
    let b := b.modCod fun c => { c with inflateQ := c.inflateQ.map fun j => if j.owner = .ingest v k then { j with owner := .firmware } else j }
    let b := if i.run.isSome then b.failRun v k code else b
    let b := if i.ended then b else b.containerInvalid v k
    match b.ingest? v k with
    | some i => (b.modCap fun c => { c with ingests := c.ingests.filter fun x => !x.isFor v k }).ingestAnswer i
    | none => b

/-- Storage has left MOUNTED: every container being taken in ends (R173). -/
def Bar.ingestGuard (b : Bar) : Bar :=
  if b.cap.ingests.isEmpty then b
  else if b.sto.state = .mounting then b
  else if b.sto.state = .mounted then b.cap.ingests.foldl (fun b i => b.pumpIngest i.viaFoe i.ksid) b
  else b.cap.ingests.foldl (fun b i => b.cutIngest i.viaFoe i.ksid 0x504C) b

/-! ### Stored form (R266) -/

/-- The stored form of a reference (R266): a 512-byte header, then its bands. DESIGN CHOICE (log 124): the header's fields
stand in the order R266 names them. -/
def Reference.header (r : Reference) (bands : List Byte) : List Byte :=
  padTo 512 (leBytes 4 r.handle ++ leBytes 4 r.width ++ leBytes 4 r.height ++ leBytes 2 r.res ++ leBytes 1 r.inkMask ++ zeros 17
    ++ leBytes 4 (ceilDiv r.height 8) ++ (Config.sha512 bands).toList)

/-- Band b of a reference: its two block rows, then its ink-map rows, padded to 64 bytes. -/
def Reference.band (r : Reference) (n : Nat) : List Byte :=
  let rows := (List.range 2).flatMap fun j =>
    r.planes.flatMap (fun p => ((p.coded[2 * n + j]?).elim [] (·.1))) ++ r.planes.flatMap fun p => ((p.coded[2 * n + j]?).elim [] fun c => c.2.flatMap (leBytes 2))
  let per := 8 / inkQ r.res
  let inks := r.inks.flatMap fun m => ((m.drop (per * n)).take per).flatMap fun row => row.map (BitVec.ofNat 8)
  let body := rows ++ inks
  padTo (ceilDiv body.length 64 * 64) body

def Reference.storedForm (r : Reference) : List Byte :=
  let bands := (List.range (ceilDiv r.height 8)).flatMap r.band
  r.header bands ++ bands

/-! ### Commit and delete (R171, R172, R274) -/

/-- A reference's data and directory entry are committed: READY (R171, R175, R267). -/
def Bar.refCommit (b : Bar) (handle : Nat) : Bar :=
  match b.cap.ingests.find? fun i => i.commitDue && i.run = some handle with
  | none => b
  | some i =>
    if b.sto.state = .mounted then
      match (b.ref? handle).bind fun r => (b.sto.commitRef handle r.charge r.storedForm b.now).map fun s => (r, s) with
      | some (r, s) =>
        let b := { b with sto := s }
        let b := (b.putRef { r with state := .ready }).logEvent 0x5050 0
        let b := b.modItems fun x => if x.handle = handle && x.readStart.isNone && x.f.isNone then { x with readStart := some b.now } else x
        (b.modIngest i.viaFoe i.ksid fun i =>
          { i with run := none, commitDue := false, readyCount := i.readyCount + 1 }).pumpIngest i.viaFoe i.ksid
      | none => b
    else b

/-- The detail code of a refused delete of a handle, 0 where it may be deleted (R172). DESIGN CHOICE (log 129): an ABSENT handle
that an item in flight names fits both refusals; it is answered as unknown. -/
def Bar.deleteRefused (b : Bar) (handle : Nat) : Nat :=
  match b.ref? handle with
  | none => 0x5048
  | some r => if r.state = .ingesting || b.cap.items.any fun i => i.handle = handle && i.inFlight then 0x5047 else 0

/-- A READY or FAILED handle becomes ABSENT and releases its charge; its stripes are invalid at once (R172, R270). -/
def Bar.deleteRef (b : Bar) (handle : Nat) : Bar :=
  (b.modSto fun s => s.dropStripes handle).modCap fun c => { c with refs := c.refs.filter fun r => r.handle ≠ handle }

end Sys2Proof.Machine
end

