-- ==== Sys2Proof/Machine/Lanes.lean ====
section
/-! DEFINITION. The line grid (R94, R99, R100), items and their frames (R122 to R130), announcements (R127, R128) and
item starts (R30, R39, R175). -/

namespace Sys2Proof.Machine

/-! ### Fractions -/

def Frac.ofInt (n : Int) : Frac := ⟨n, 1⟩
def Frac.add (x y : Frac) : Frac := ⟨x.num * y.den + y.num * x.den, x.den * y.den⟩
def Frac.scale (x : Frac) (n : Int) (d : Nat) : Frac := ⟨x.num * n, x.den * d⟩
def Frac.sub (x y : Frac) : Frac := x.add ⟨-y.num, y.den⟩
def Frac.le (x y : Frac) : Bool := decide (x.num * y.den ≤ y.num * x.den)
def Frac.lt (x y : Frac) : Bool := decide (x.num * y.den < y.num * x.den)
/-- ⌈x / y⌉ for y > 0, at least 0. -/
def Frac.ceilDiv (x y : Frac) : Nat := if y.num ≤ 0 then 0 else (-((-(x.num * y.den)) / (y.num * x.den))).toNat
/-- ⌊x / y⌋ for y > 0. -/
def Frac.floorDiv (x y : Frac) : Int := if y.num ≤ 0 then 0 else x.num * y.den / (y.num * x.den)

/-! ### The grid -/

def Bar.modSyn (b : Bar) (f : Synth → Synth) : Bar := b.modCap fun c => { c with syn := f c.syn }
def Bar.usesEncoder (b : Bar) : Bool := b.rwN 0x2200 3 = 0

/-- The encoder that feeds the synthesiser. -/
def Bar.feeding (b : Bar) : Fin 2 := if b.rwN 0x2301 9 = 1 then 1 else 0
/-- Its position: position counter 0 or 1 (R391). -/
def Bar.feedPos (b : Bar) : Int := (b.io.pos[b.feeding]).toInt

/-- L, counts per line, of a set (R94). -/
def Bar.pitchOf (b : Bar) (st : Store) : Frac :=
  ⟨(b.pN st 0x2301 2 : Nat) * (if b.dpi600 then 2 else 1), max 1 (b.pN st 0x2301 1)⟩
def Bar.pitch (b : Bar) : Frac := b.pitchOf b.par.live

/-- q_j of a grid. -/
def gridPoint (base l : Frac) (j : Nat) : Frac := base.add (l.scale j 1)

/-- The next grid point to be triggered, the pending resyncs counted: the points of the old grid up to p_T − L, then
p_T (R99). -/
def nextPointOf (l : Frac) (base : Frac) (j : Nat) : List Frac → Frac
  | [] => gridPoint base l j
  | p :: _ => let q := gridPoint base l j; if q.le (p.sub l) then q else p

def Bar.nextPoint (b : Bar) : Option Frac := b.cap.syn.base.map fun q => nextPointOf b.pitch q b.cap.syn.nextJ b.cap.syn.regrids

/-- The grid after its next point has been triggered. -/
def Bar.advanceGrid (b : Bar) : Bar :=
  match b.cap.syn.base with
  | none => b
  | some base =>
    b.modSyn fun s =>
      match s.regrids with
      | [] => { s with nextJ := s.nextJ + 1 }
      | p :: rest =>
        if (gridPoint base b.pitch s.nextJ).le (p.sub b.pitch) then { s with nextJ := s.nextJ + 1 }
        else { s with base := some p, nextJ := 1, regrids := rest }

/-- How many triggers from now on reach a position: the first one at or after it is that many lines ahead. -/
def linesAhead (l target base : Frac) (j : Nat) : List Frac → Nat
  | [] => (target.sub (gridPoint base l j)).ceilDiv l
  | p :: rest =>
    let last := p.sub l
    -- points of this grid from j on that lie at or below p_T − L
    let k := ((last.sub (gridPoint base l j)).floorDiv l + 1).toNat
    let m := (target.sub (gridPoint base l j)).ceilDiv l
    if m < k then m
    else if target.le p then k
    else k + linesAhead l target p 0 rest

/-- The grid position of the first line at or after a position, among the triggers to come. -/
def pointAhead (l target base : Frac) (j : Nat) : List Frac → Frac
  | [] => gridPoint base l (j + (target.sub (gridPoint base l j)).ceilDiv l)
  | p :: rest =>
    let k := (((p.sub l).sub (gridPoint base l j)).floorDiv l + 1).toNat
    let m := (target.sub (gridPoint base l j)).ceilDiv l
    if m < k then gridPoint base l (j + m) else if target.le p then p else pointAhead l target p 0 rest

/-- A line of no session: the start line of an edge that came before the grid's anchor. -/
def unresolved : Nat := 0xFFFFFFFFFFFFFFFF

/-- The first line whose grid point is at or after a position (R124). -/
def Bar.lineAt (b : Bar) (target : Frac) : Nat :=
  match b.cap.syn.base with
  | none => unresolved
  | some base =>
    let past := b.cap.lineLog.filter fun l => match l.grid with | some q => target.le q | none => false
    match past.getLast? with
    | some l => l.n
    | none => b.lines + linesAhead b.pitch target base b.cap.syn.nextJ b.cap.syn.regrids

/-- The grid position of an accepted start line, given the position it must reach (R99). -/
def Bar.startPosition (b : Bar) (line : Nat) (target : Frac) : Frac :=
  match (b.cap.lineLog.find? fun l => l.n = line).bind (·.grid), b.cap.syn.base with
  | some q, _ => q
  | none, some base => pointAhead b.pitch target base b.cap.syn.nextJ b.cap.syn.regrids
  | none, none => target

/-- n_c of R124: the first line with t(n) ≥ t_c, or the next line while there is none. -/
def Bar.lineSince (b : Bar) (tc : Nat) : Nat :=
  match (b.cap.lineLog.filter fun l => decide (tc ≤ l.t)).getLast? with | some l => l.n | none => b.lines

/-- The line of a cue edge, as far as the lines so far decide it (R124). -/
def Bar.lineOf (b : Bar) : LineTarget → Nat
  | .grid p => b.lineAt p
  | .time tc lines => b.lineSince tc + lines

/-- A line not yet triggered is found again after the grid has moved, or a line was dropped with a time before its cue's. -/
def Bar.resolved (b : Bar) (line : Nat) (target : Option LineTarget) : Nat :=
  match target with
  | some x => if b.lines ≤ line then b.lineOf x else line
  | none => line

/-- Every start line, observed end and ladder start that lies ahead is found again on the present grid. -/
def Bar.resolveLines (b : Bar) : Bar :=
  { b with nz := { b.nz with ladder := b.nz.ladder.map fun (r : LadderRun) => { r with line := b.resolved r.line r.target } } }.modCap fun c =>
    { c with
      items := c.items.map fun (i : Item) =>
        if i.matched then
          { i with
            s := if i.started then i.s else b.resolved i.s i.target
            obs := i.obs.map fun o => b.resolved o i.obsTarget
            nextS := i.nextS.map fun o => b.resolved o i.nextTarget }
        else i
      lanes := c.lanes.map fun (l : Lane) => { l with lastStart := l.lastStart.map fun s => b.resolved s l.lastTarget } }

/-! ### The position estimate (R94, R95) -/

/-- The bound of R95 as a fraction of a line. -/
def Bar.errBound (b : Bar) : Frac := if b.liveN 0x2301 1 ≤ b.liveN 0x2301 2 then ⟨1, 32⟩ else ⟨1, 16⟩

/-- The figures of R95 hold: over the last 8 counts the line rate lies between 2 kHz and f_max, and against the 8 counts
before them the frequency has changed by at most 3 % (N/M > 1: 1 %) per ms, to 2 ns of the timestamps. -/
def Bar.steadyCounts (b : Bar) (cs : List (Nat × Int)) : Bool :=
  match cs[0]?, cs[8]?, cs[16]? with
  | some (t0, _), some (t8, _), some (t16, _) =>
    let d1 := t0 - t8
    let d2 := t8 - t16
    let l := b.pitch
    let pct := if b.liveN 0x2301 1 ≤ b.liveN 0x2301 2 then 3 else 1
    decide ((8 * l.den * b.tLmin b.par.live : Int) ≤ d1 * l.num) && decide ((d1 : Int) * l.num ≤ 8 * l.den * 500000)
      && decide (max d1 d2 - min d1 d2 ≤ 2 + pct * d2 * (d1 + d2) / 200000000)
  | _, _, _ => false

/-- x kept within an interval. -/
def Frac.clamp (x lo hi : Frac) : Frac := if x.lt lo then lo else if hi.lt x then hi else x

/-- p̂(t) of R94, a FREE VALUE; while the synthesiser is LOCKED and the figures of R95 hold, it stays within the bound of the
count before t and of the one that would follow it. -/
def Bar.estimate (b : Bar) (t : Nat) : Frac :=
  let cs := (b.cap.enc[b.feeding]).counts
  let raw : Frac := ⟨Config.positionEstimate cs t, 65536⟩
  match cs with
  | [] => .ofInt b.feedPos
  | (t0, p0) :: _ =>
    let p : Frac := .ofInt p0
    if t = t0 && b.cap.syn.state ≠ .locked then p
    else if b.cap.syn.state = .locked && b.steadyCounts cs then
      let tol := b.pitch.scale b.errBound.num b.errBound.den
      raw.clamp (p.sub tol) ((if t0 < t then p.add (.ofInt 1) else p).add tol)
    else raw

/-- e of R95 at a count edge, in counts: the estimate from the counts before it, less the position it sets. -/
def Bar.phaseError (b : Bar) (t : Nat) (p : Int) : Frac :=
  let cs := (b.cap.enc[b.feeding]).counts
  let e := Frac.sub ⟨Config.positionEstimate cs t, 65536⟩ (.ofInt p)
  if b.cap.syn.state = .locked && b.steadyCounts ((t, p) :: cs) then
    let tol := b.pitch.scale b.errBound.num b.errBound.den
    e.clamp (Frac.sub (.ofInt 0) tol) tol
  else e

/-- Is a distance within a fraction of a line? -/
def Bar.withinLine (b : Bar) (e f : Frac) : Bool :=
  let tol := b.pitch.scale f.num f.den
  e.le tol && (Frac.sub (.ofInt 0) tol).le e

/-! ### Frames (R126, R130) -/

def Bar.modLane (b : Bar) (l : Fin 32) (f : Lane → Lane) : Bar := b.modCap fun c => { c with lanes := vmod c.lanes l f }
def laneIx (l : Nat) : Fin 32 := ⟨l % 32, by omega⟩

def Bar.laneOn (b : Bar) (l : Nat) : Bool := bit (b.liveN 0x2502 0) l
/-- A lane-local parameter live in a lane (R39). -/
def Bar.laneLocal (b : Bar) (l index : Nat) : Nat :=
  let (st, _) := b.par.laneSets[laneIx l]
  b.pN st index (l + 1)
def Bar.laneLevel (b : Bar) (l : Nat) : Bool := b.liveN 0x2504 (l + 1) = 1

/-- e and e_max of an item. -/
def Item.expEnd (i : Item) : Nat := i.s + i.length
def Item.tolEnd (b : Bar) (i : Item) : Nat := i.expEnd + ceilDiv (i.length * i.laneN b 0x2508) 1000

/-- f of R130 as far as the events so far decide it, and whether the frame is cut by its tolerance. -/
def Bar.frameEnd (b : Bar) (i : Item) : Nat × Bool :=
  let other := [i.nextS, i.cutAt].filterMap id
  if b.pN (b.setAt i.s) 0x2504 (i.lane + 1) = 1 then
    let tol := i.tolEnd b
    let f := ((match i.obs with | some o => [o] | none => []) ++ other).foldl min tol
    (f, f = tol && (match i.obs with | some o => decide (tol < o) | none => true) && i.cutAt ≠ some tol)
  else (other.foldl min i.expEnd, false)

/-- A frame closes at f (R130). -/
def Bar.closeFrameAt (b : Bar) (ix f : Nat) (long : Bool) : Bar :=
  b.modItemAt ix fun i =>
    { i with f := some f
             flags := i.flags ||| maskOf [(fShortFrame, decide (f < i.expEnd)), (fLongFrame, long)] }

/-- Every open frame whose end has been reached closes. -/
def Bar.closeFrames (b : Bar) : Bar :=
  (List.range b.cap.items.length).foldl (fun b ix =>
    match b.cap.items[ix]? with
    | some i =>
      if i.started && i.f.isNone then
        let (f, long) := b.frameEnd i
        if f ≤ b.lines then b.closeFrameAt ix f long else b
      else b
    | none => b) b

/-! ### References at item starts (R175) -/

/-- The reference check at line s: reasons, the handle's failure code, and the reference where it is fit. With inspection off there
is no H_exp to check. -/
def Bar.referenceCheck (b : Bar) (i : Item) : Nat × Nat × Option Reference :=
  let k := i.laneN b 0x2510
  let off := decide (k = 0xFF)
  let base := maskOf [(rInspectionOff, off)]
  if i.handle = 0 then (setBit base rNoReference, 0, none)
  else match b.cap.refs.find? fun r => r.handle = i.handle with
    | none => (setBit base rRefUnavailable, 0, none)
    | some r =>
      if r.state ≠ .ready then (setBit base rRefUnavailable, r.detail, none)
      else
        let st := b.setAt i.s
        let res := max 1 (i.laneN b 0x2511)
        let columns := b.pN st 0x2501 (i.lane + 1) - b.pN st 0x2500 (i.lane + 1)
        let g := b.patSpacing st k
        let hExp := if off then 0 else i.length / (max 1 (b.lineRes / (g * res)) * g)
        if r.res ≠ res || r.width * (1200 / res) ≠ columns || decide (r.height < hExp) then (setBit base rRefGeometry, r.detail, none)
        else (base, 0, some r)

/-- An item's frame starts at line s (R30, R39). -/
def Bar.startItem (b : Bar) (ix : Nat) : Bar :=
  match b.cap.items[ix]? with
  | none => b
  | some i =>
    let seq := b.cap.nextSeq
    let st := b.setAt i.s
    let i := { i with started := true, seq := some seq, gen := b.genAt i.s, laneSet := st }
    let (reasons, detail, ref) := b.referenceCheck i
    let fast := (b.cap.enc[b.feeding]).overspeed && b.usesEncoder
    let i := { i with ref := ref, reasons := i.reasons ||| reasons ||| maskOf [(rOverspeed, fast)], detail := if i.detail = 0 then detail else i.detail }
    let b := b.modCap fun c => { c with items := updAt c.items ix fun _ => i, nextSeq := (seq + 1) % 2 ^ 32 }
    { b with par := { b.par with laneSets := vmod b.par.laneSets (laneIx i.lane) fun _ => (st, b.genAt i.s) } }

/-- The items whose frames start at line n, by ascending lane. -/
def Bar.startsAt (b : Bar) (n : Nat) : List Nat :=
  let ixs := (List.range b.cap.items.length).filter fun x => match b.cap.items[x]? with
    | some i => i.matched && !i.started && !i.published && i.s = n | none => false
  let lane (x : Nat) : Nat := match b.cap.items[x]? with | some i => i.lane | none => 0
  ixs.mergeSort fun x y => decide (lane x ≤ lane y)

/-! ### Announcements (R127, R128, R343) -/

/-- The queue of a lane: indices of its items that wait for a cue, in order of acceptance. -/
def Bar.laneQueue (b : Bar) (l : Nat) : List Nat :=
  (List.range b.cap.items.length).filter fun x => match b.cap.items[x]? with | some i => i.queued && i.lane = l | none => false

/-- How far an ordinal lies behind another, modulo 2¹⁶. -/
def behind (a k : Nat) : Nat := (k + 65536 - a % 65536) % 65536

/-- Why an announcement is refused (R128), in the order of its list. With ORD_VALID = 0 there is no ordinal to be after the
tail's: only the change of ORD_VALID breaks the order (DEDUCED, log 152). -/
def Bar.announceRefusal (b : Bar) (slot : Nat) : Option Nat :=
  let lane := bits slot 7 0
  let ordValid := bit slot 8
  let ord := bits slot 31 16
  let len := bits slot 87 64
  let tail := (b.laneQueue lane).getLast?.bind fun x => b.cap.items[x]?
  if 32 ≤ lane || !b.laneOn lane then some 0x5010
  else if len < 16 || b.laneLocal lane 0x2507 < len then some 0x5011
  else if bits slot 15 10 ≠ 0 || bits slot 95 88 ≠ 0 then some 0x5012
  else if 4096 ≤ b.inFlight then some 0x5013
  else if (match tail with
      | some t => t.ordValid ≠ ordValid || (ordValid && (behind t.ord ord = 0 || decide (32767 < behind t.ord ord)))
      | none => false) then some 0x5014
  else
    let d := behind ord (b.cap.lanes[laneIx lane]).nextOrd
    if ordValid && decide (1 ≤ d) && decide (d ≤ 32768) then some 0x5015
  else none

/-- A new announcement is taken: accepted into its lane's queue, or refused with its verdict (R127, R128). While the
Safety Net is engaged its verdict is published at once, and an accepted one stays queued as a spent entry (R129, R423). -/
def Bar.takeAnnouncement (b : Bar) (slot sampled : Nat) : Bar :=
  let lane := bits slot 7 0
  let number := bits slot 63 32
  let handle := bits slot 127 96
  let net := b.saf.sn.engaged
  match b.announceRefusal slot with
  | some code =>
    let v := bareVerdict number lane rAnnounceRefused code handle b.tdNow
    b.publish (b.liveRule (if net then { v with reasons := setBit v.reasons rSafetyNet } else v)) [] none false [] false
  | none =>
    let ready := b.cap.refs.any fun r => r.handle = handle && r.state = .ready
    let (set, _) := b.par.laneSets[laneIx lane]
    let i : Item :=
      { lane := lane, number := number, length := bits slot 87 64, handle := handle, pin := bit slot 9, ordValid := bit slot 8
        ord := bits slot 31 16, sampled := sampled, queued := true, matched := false, started := false, s := 0, target := none
        lateTo := 0, nextS := none, nextTarget := none, obs := none, obsTarget := none, cutAt := none, f := none, seq := none
        gen := 0, laneSet := set, reasons := if net then 2 ^ rSafetyNet else 0, flags := 0
        detail := if net then b.saf.sn.lastCode else 0, stopDue := none
        readStart := if ready then some b.now else none, ref := none, refLost := none, garbled := [], published := false }
    let ix := b.cap.items.length
    let b := b.modCap fun c => { c with items := c.items ++ [i] }
    if net then b.publishItem ix else b

/-- An item leaves its queue with a reason of its own and its verdict is published (R126, R129, R331). -/
def Bar.expel (b : Bar) (ix reason detail : Nat) : Bar :=
  let b := b.modItemAt ix fun i =>
    if i.published then { i with queued := false } else { i.withReason reason with queued := false, detail := if detail = 0 then i.detail else detail }
  b.publishItem ix

/-! ### Cues (R123 to R126, R129) -/

/-- The position at a time between two accepted counts, by interpolation. -/
def interpolated : List (Nat × Int) → Nat → Option Frac
  | (t1, p1) :: (t0, p0) :: rest, t =>
    if t0 ≤ t then
      if t < t1 then some ((Frac.ofInt p0).add ⟨(p1 - p0) * (t - t0 : Nat), max 1 (t1 - t0)⟩)
      else if t = t1 then some (.ofInt p1) else none
    else interpolated ((t0, p0) :: rest) t
  | [(t1, p1)], t => if t = t1 then some (.ofInt p1) else none
  | [], _ => none

/-- p_c in 1/256 count: the encoder position interpolated at a cue's timestamp (R99, R124). Past the last count it is the
synthesiser's estimate, before the session's first one the value of the position counter then. Rounded down (DESIGN CHOICE, log 137: the rounding
to 1/256 count is not stated). -/
def Bar.cuePos (b : Bar) (t : Nat) : Int :=
  let cs := (b.cap.enc[b.feeding]).counts
  match (if b.usesEncoder then b.cap.syn.first else some (0, 0)) with
  | none => b.feedPos * 256
  | some (t0, p0) =>
    if t < t0 then p0 * 256
    else match interpolated cs t with
      | some p => p.num * 256 / p.den
      | none => if cs.any fun c => decide (c.1 < t) then (b.estimate t).num * 256 / (b.estimate t).den else b.feedPos * 256

/-- The line and target of a cue edge (R99, R124); `pc` is the interpolated position in 1/256 count. -/
def Bar.cueLine (b : Bar) (tc : Nat) (pc : Int) (offset : Nat) : Nat × LineTarget :=
  let target : LineTarget :=
    if b.usesEncoder then .grid (Frac.add ⟨pc, 256⟩ (b.pitch.scale offset 256)) else .time tc (ceilDiv offset 256)
  (b.lineOf target, target)

def Bar.syncLane (b : Bar) (lane : Nat) : Bool := b.usesEncoder && b.liveN 0x2301 5 = 1 && b.liveN 0x2301 6 = lane

/-- The spacing test of a leading edge (R99, R126). -/
def Bar.tooClose (b : Bar) (lane s : Nat) (target : LineTarget) : Bool :=
  let l := b.cap.lanes[laneIx lane]
  let spacing := b.laneLocal lane 0x2506
  match l.lastStart with
  | none => false
  | some last =>
    match target, l.lastTarget with
    | .grid p, some (.grid q) =>
      if b.syncLane lane || b.cap.syn.base.isNone then (p.sub (b.startPosition last q)).lt (b.pitch.scale spacing 1) else decide (s < last + spacing)
    | _, _ => decide (s < last + spacing)

/-- The edge with ordinal k meets the head of the queue (R129): the item it starts, if any. Heads whose ordinal was never
accepted leave first. An announcement sampled after the cue's time does not count for it (R127). -/
def Bar.matchHead (b : Bar) (lane k line time : Nat) : Nat → Bar × Option Nat
  | 0 => (b, none)
  | fuel + 1 =>
    match (b.laneQueue lane).head? with
    | none => (b, none)
    | some ix =>
      match b.cap.items[ix]? with
      | none => (b, none)
      | some i =>
        if time < i.sampled then (b, none)
        else if !i.ordValid || i.ord = k then (b, some ix)
        else if behind i.ord k ≤ 32768 then
          let spent := i.published
          let b := b.modItemAt ix fun i => { i with queued := false }
          let b := if spent then b
            else
              let b := b.modItemAt ix fun i => { i with published := true }
              (b.publishBare i.number lane rCueMissed 0x5024 i.handle).logEvent 0x5024 (lane * 2 ^ 56 + line)
          b.matchHead lane k line time fuel
        else (b, none)

/-- Every lane that follows this one takes its accepted edge (R123). -/
def Bar.followers (b : Bar) (lane time : Nat) (edge : Edge) (pulse locked : Bool) : Bar :=
  (List.range 32).foldl (fun b m =>
    if b.laneOn m && b.liveN 0x2503 (m + 1) = 0x40 + lane then
      b.modCap fun c => { c with cues := c.cues ++ [{ lane := m, edge := edge, isPulse := pulse, time := time, locked := locked }] }
    else b) b

/-- The open or coming frame of a lane's latest accepted edge. -/
def Bar.latestItem (b : Bar) (lane : Nat) : List Nat :=
  (List.range b.cap.items.length).filter fun x => match b.cap.items[x]? with
    | some i => i.lane = lane && i.matched && i.f.isNone && i.nextS.isNone | none => false

/-- A leading edge of a lane. One of the sync lane re-anchors the grid if the synthesiser was LOCKED when it arrived (R99). -/
def Bar.leadingEdge (b : Bar) (lane : Nat) (c : CuePend) (pc : Int) : Bar :=
  let ln := laneIx lane
  let sync := b.syncLane lane
  let offset := if sync then b.liveN 0x2301 7 else b.liveN 0x2505 (lane + 1)
  let (s0, target) := b.cueLine c.time pc offset
  if b.tooClose lane s0 target then
    (b.modLane ln fun l => { l with ignored := min 255 (l.ignored + 1) }).logEvent 0x5021 (lane * 2 ^ 56 + s0)
  else
    let regrids := sync && c.locked && b.cap.syn.base.isSome
    let b := match target with
      | .grid p =>
        if regrids then (b.modSyn fun y => { y with regrids := y.regrids ++ [p] }).resolveLines
        else if sync then b.logEvent 0x303C 0 else b
      | .time _ _ => b
    let s := b.lineOf target
    let k := (b.cap.lanes[ln]).nextOrd
    let b := (b.latestItem lane).foldl (fun b ix => b.modItemAt ix fun i => { i with nextS := some s, nextTarget := some target }) b
    let b := b.modLane ln fun l =>
      { l with nextOrd := (k + 1) % 65536, lastStart := some s, lastTarget := some target, active := !c.isPulse }
    let b := b.followers lane c.time .rising c.isPulse c.locked
    let (b, hit) := b.matchHead lane k s c.time 4097
    match hit.bind fun ix => (b.cap.items[ix]?).map fun i => (ix, i) with
    | none => (b.modLane ln fun l => { l with unannounced := min 255 (l.unannounced + 1) }).logEvent 0x5020 (lane * 2 ^ 56 + s)
    | some (ix, i) =>
      if i.published then b.modItemAt ix fun i => { i with queued := false }
      else
        let b := b.modItemAt ix fun i => { i with queued := false, matched := true, s := s, target := some target }
        if s < b.lines then
          let b := b.modItemAt ix fun i => { i with lateTo := b.lines, flags := setBit i.flags fCueLate }
          (b.startItem ix).logEvent 0x5023 (lane * 2 ^ 56 + s)
        else b

/-- The spacing test of a trailing edge (R126). -/
def Bar.endTooClose (b : Bar) (lane : Fin 32) (o : Nat) : Bool :=
  match (b.cap.lanes[lane]).lastStart with
  | some s => decide (o < s + b.laneLocal lane.val 0x2506)
  | none => false

/-- A trailing edge of a lane. -/
def Bar.trailingEdge (b : Bar) (lane : Nat) (c : CuePend) (pc : Int) : Bar :=
  let ln := laneIx lane
  let offset := if b.syncLane lane then b.liveN 0x2301 7 else b.liveN 0x2505 (lane + 1)
  let (o, target) := b.cueLine c.time pc offset
  let b := b.modLane ln fun l => { l with active := false, stuck := false }
  if b.endTooClose ln o then (b.modLane ln fun l => { l with ignored := min 255 (l.ignored + 1) }).logEvent 0x5021 (lane * 2 ^ 56 + o)
  else
    let b := b.followers lane c.time .falling false c.locked
    if b.laneLevel lane then
      (b.latestItem lane).foldl (fun b ix => b.modItemAt ix fun i =>
        if i.obs.isNone then { i with obs := some o, obsTarget := some target } else i) b
    else b

/-- A lane processes a cue edge. -/
def Bar.takeCue (b : Bar) (c : CuePend) : Bar :=
  let pc := b.cuePos c.time
  match c.edge with
  | .rising => if (b.cap.lanes[laneIx c.lane]).stuck then b else b.leadingEdge c.lane c pc
  | .falling => b.trailingEdge c.lane c pc

/-- A lane processes its oldest pending cue edge, if it is that of timestamp te. One that comes before the grid's anchor has no
line yet: it waits for the first count (R124). -/
def Bar.cueEdge (b : Bar) (lane : Fin 32) (te : Nat) : Bar :=
  match (b.cap.cues.find? fun c => c.lane = lane.val && !c.handed).filter (·.time = te) with
  | none => b
  | some c =>
    let rest := b.cap.cues.eraseP fun c => c.lane = lane.val && !c.handed
    if b.usesEncoder && b.cap.syn.base.isNone then b.modCap fun k => { k with cues := rest ++ [{ c with handed := true }] }
    else (b.modCap fun k => { k with cues := rest }).takeCue c

/-- The first count has set the anchor: the cue edges that came before it have their lines now, in the order they came (R124). -/
def Bar.anchorCues (b : Bar) : Bar :=
  let (handed, rest) := b.cap.cues.partition (·.handed)
  handed.foldl Bar.takeCue (b.modCap fun k => { k with cues := rest })

/-- A cue still active at s + L_max (R126). -/
def Bar.stuckCue (b : Bar) (lane : Fin 32) : Bar :=
  let l := b.cap.lanes[lane]
  match l.lastStart with
  | none => b
  | some s =>
    let limit := s + b.laneLocal lane.val 0x2507
    if l.active && !l.stuck && decide (limit ≤ b.lines) then
      let b := b.modLane lane fun l => { l with stuck := true, active := false }
      let b := (List.range b.cap.items.length).foldl (fun b ix => match b.cap.items[ix]? with
        | some i =>
          if i.lane = lane.val && i.started && i.f.isNone then
            (b.closeFrameAt ix limit false).modItemAt ix fun i => i.withReason rStuckCue
          else b
        | none => b) b
      let b := (b.laneQueue lane.val).foldl (fun b ix => b.expel ix rStuckCue 0) b
      b.logEvent 0x5022 (lane.val * 2 ^ 56 + limit)
    else b

/-- A lane's status word (Table 4-6). OPEN stays 1 past the end of a session that ended with a frame open, until the next one
begins (DEDUCED, log 153: no rule closes that frame). -/
def Bar.laneStatus (b : Bar) (l : Fin 32) : Nat :=
  let x := b.cap.lanes[l]
  min 8191 (b.laneQueue l.val).length + b2n x.stuck * 8192
    + b2n (b.cap.items.any fun i => i.lane = l.val && i.started && i.f.isNone) * 16384 + x.ignored * 65536 + x.unannounced * 2 ^ 24

end Sys2Proof.Machine
end

