-- ==== Sys2Proof/Machine/LinkWords.lean ====
section
/-! DEFINITION. What a set asks of the segment links: its geometry as the Ticket Booth takes it, and the words per line of the
up-bus (R162, R317, Table 10-10). -/

namespace Sys2Proof.Machine

def Frac.sum (l : List Frac) : Frac := l.foldl Frac.add ⟨0, 1⟩
def Frac.maxOf (l : List Frac) : Frac := l.foldl (fun m x => if m.lt x then x else m) ⟨0, 1⟩
/-- An exact fraction rounded up. -/
def Frac.ceil (x : Frac) : Nat := (-((-x.num) / (x.den : Int))).toNat
/-- A value in thousandths, rounded to the nearest. -/
def Frac.milli (x : Frac) : Int := (2000 * x.num + x.den) / (2 * x.den : Nat)

/-- n / d. -/
def ratio (n d : Nat) : Frac := if d = 0 then ⟨0, 1⟩ else ⟨n, d⟩

/-- Columns two ranges have in common. -/
def overlap (a0 a1 b0 b1 : Nat) : Nat := min a1 b1 - max a0 b0

/-! ### The set's geometry -/

/-- The share of lines whose context answers p (n/P of R317). -/
def Bar.share (b : Bar) (st : Store) (p : Nat → Bool) : Frac :=
  ⟨((List.range (b.patLen st)).countP fun j => p (b.patCtx st j) : Nat), b.patLen st⟩

/-- Contexts of the pattern routed to a stream, each with its share of lines. -/
def Bar.routedShares (b : Bar) (st : Store) (s : Nat) : List (Nat × Frac) :=
  if b.streamOn st s then
    ((b.patContexts st).filter fun k => b.routed st k s).map fun k => (k, b.share st fun c => c = k)
  else []

/-- A lane that inspects, with what the Ticket Booth charges it by. -/
structure AdmLane where
  c0 : Nat
  c1 : Nat
  res : Nat
  w : Nat          -- columns of a comparator pixel
  span : Nat       -- lines of a comparator line
  hx : Nat
  hy : Nat
  t : Nat

def Bar.admLane (b : Bar) (st : Store) (l : Nat) : AdmLane :=
  let k := b.pN st 0x2510 (l + 1)
  let res := max 1 (b.pN st 0x2511 (l + 1))
  let g := b.patSpacing st k
  let w := b.binM st * b.fx st res
  let span := g * max 1 (b.lineRes / (g * res))
  let pc := if b.dpi600 then 2 * span else span
  { c0 := b.pN st 0x2500 (l + 1), c1 := b.pN st 0x2501 (l + 1), res := res, w := w, span := span, hx := 16 / w, hy := 16 / pc
    t := b.pN st (0x2520 + k) 4 }

def Bar.admLanes (b : Bar) (st : Store) : List AdmLane :=
  ((List.range 32).filter fun l => bit (b.pN st 0x2502 0) l && b.pN st 0x2510 (l + 1) ≠ 0xFF).map (b.admLane st)

/-- Tiles that can be converted in some line (R68), counted in host columns: the mirror (R12) keeps seams and their sides. -/
def Bar.convTiles (b : Bar) (st : Store) : List Nat :=
  let mask := b.pN st 0x2209 0
  let own (t : Nat) : Bool := mask = 0 || (List.range 16).any fun w =>
    bit mask w && decide (0 < overlap (256 * t) (256 * t + 256) (b.pN st 0x2205 (w + 1)) (b.pN st 0x2206 (w + 1)))
  (List.range (30 * b.segs)).filter fun t => own t || (t % 30 = 29 && decide (t + 1 < 30 * b.segs) && own (t + 1))
    || (t % 30 = 0 && decide (0 < t) && own (t - 1))

def Bar.admTracking (b : Bar) (st : Store) : Bool := b.pN st 0x2600 1 = 1
def Bar.admInks (b : Bar) (st : Store) : Nat := (List.range 8).countP fun k => bit (b.pN st 0x2600 4) k

/-! ### Words of the up-bus (Table 10-10) -/

def Bar.neighbours (b : Bar) (s : Nat) : Nat := b2n (decide (0 < s)) + b2n (decide (s + 1 < b.segs))

/-- The host columns of a segment (R12): from the other end of the bar where they are mirrored. -/
def Bar.hostSpan (b : Bar) (s : Nat) : Nat × Nat :=
  if b.mirror then (b.columns - segCols * (s + 1), b.columns - segCols * s) else (segCols * s, segCols * (s + 1))

/-- CODING blocks of a plane in a segment, and their groups. -/
def Bar.codingBlocks (b : Bar) (st : Store) (s : Nat) : Nat × Nat :=
  let n := overlap (b.hostSpan s).1 (b.hostSpan s).2 (b.pN st 0x2432 4) (b.pN st 0x2432 5) / (16 * b.binM st * b.fx st (b.streamRes st 2))
  (n, ceilDiv n 16)

/-- Bits of a stream pixel of context k. -/
def Bar.pixelBits (b : Bar) (st : Store) (s k : Nat) : Nat :=
  if s = 1 then 24 else b.chanCount st k * (if b.pN st 0x2430 3 = 1 then 12 else 16)

/-- Words per line of each type that a segment sends under a set; SBF blocks and sideband together (Table 10-10). -/
structure UpWords where
  status : Nat
  candidates : Nat
  seam : Nat
  sbf : Nat
  streak : Nat
  pixels : Nat

def Bar.upWordsOf (b : Bar) (st : Store) (lanes : List AdmLane) (s : Nat) : UpWords :=
  let (lo, hi) := b.hostSpan s
  let (blocks, groups) := b.codingBlocks st s
  let side := if b.pN st 0x2700 2 = 1 then 32 else 16 * groups
  let row := b.pN st 0x2432 3 * (blocks * (64 * b.pN st 0x2432 6 / max 1 (b.pN st 0x2700 1)) + side)
  let pixels := ([0, 1].map fun x =>
    let f := b.fx st (b.streamRes st x)
    let n := overlap lo hi (b.pN st (streamObj x) 4) (b.pN st (streamObj x) 5)
    (Frac.sum ((b.routedShares st x).map fun k => k.2.scale (n * b.pixelBits st x k.1 : Nat) (b.binM st * f * b.fy (b.streamRes st x) * 128))).ceil).sum
  { status := 1
    candidates := if lanes.any fun l => decide (0 < overlap lo hi l.c0 l.c1) then 32 else 0
    seam := 3 * b.neighbours s
    sbf := if blocks = 0 then 0 else ((Frac.sum ((b.routedShares st 2).map (·.2))).scale row (4 * b.fy (b.streamRes st 2) * 128)).ceil
    streak := if b.admTracking st then ceilDiv (7680 * b.admInks st * 224) (256 * 128) else 0
    pixels := pixels + (if b.pN st 0x2400 5 = 1 then 3840 else 0) }

def Bar.upWords (b : Bar) (st : Store) (lanes : List AdmLane) (s : Nat) : Nat :=
  let w := b.upWordsOf st lanes s
  w.status + w.candidates + w.seam + w.sbf + w.streak + w.pixels

end Sys2Proof.Machine
end

