-- ==== Sys2Proof/Machine/Apply.lean ====
section
/-! DEFINITION. Parameter sets and thermal steps that go live at a line (R38, R39, R44, R61, R100, R110, R112, R120,
R122, R406). -/

namespace Sys2Proof.Machine

/-- Generations run from 1 to 0xFFFF and never take 0 again (R34). -/
def nextGen (g : Nat) : Nat := if g = 0xFFFF then 1 else g + 1

/-! ### Illumination (R119, R120, R406) -/

/-- SPEED_ADVICE computed anew; logged when it changes from 0xFFFF. -/
def Bar.updateAdvice (b : Bar) : Bar :=
  let a := b.speedAdvice
  let before := b.thm.advice
  let b := { b with thm := { b.thm with advice := a } }
  if before = 0xFFFF && a ≠ 0xFFFF then b.logEvent 0xC028 a else b

/-- Contexts that have become limited are logged (R120). -/
def Bar.checkIllum (b : Bar) : Bar :=
  let limited (k : Nat) : Bool := (b.light b.par.live k b.cap.pstep).limited
  let mask := ((List.range 4).map fun k => b2n (limited k) * 2 ^ k).sum
  let fresh := (List.range 4).filter fun k => limited k && !bit b.cap.limitedCtx k
  let b := b.modCap fun c => { c with limitedCtx := mask }
  fresh.foldl (fun b k => b.logEvent 0x2032 k) b

/-- A class P step takes effect: cap, codes, exposures and n_P together (R120, R404). `alone`: no set goes live at the same
line, for which the light would be worked out anew. -/
def Bar.applyPStep (b : Bar) (step : Nat) (alone : Bool) : Bar :=
  let before := b.cap.pstep
  if before = step then b
  else
    let b := (b.modCap fun c => { c with pstep := step }).logEvent 0x2031 (before * 256 + step)
    if alone then b.checkIllum.updateAdvice else b

/-! ### Pattern (R110, R112) -/

/-- The pattern's anchor moves to a line at or before n, the next one; a repetition that it cuts is truncated. -/
def Bar.movePattern (b : Bar) (n anchor : Nat) : Bar :=
  let b :=
    match (if n = 0 || b.cap.patAnchor = anchor then none else b.line? (n - 1)) with
    | some l =>
      let st := b.setAt l.n
      if decide (l.ppos + 1 < b.patLen st) && (n - anchor) % b.patLen b.par.live ≠ l.ppos + 1 then
        let first := l.n - l.ppos
        let b := b.modCap fun c => { c with lineLog := c.lineLog.map fun (x : LineRec) => if first ≤ x.n then { x with trunc := true } else x }
        if (List.range 4).any fun band => b.pN st 0x2201 (1 + band) = 4 then b.logEvent 0x2030 first else b
      else b
    | none => b
  b.modCap fun c => { c with patAnchor := anchor }

/-- Anchor mode SYNC: the pattern is anchored at the start lines of the sync lane's items (R110). -/
def Bar.syncAnchor (b : Bar) (lane : Nat) : Bool := b.liveN 0x2214 6 = 1 && lane = b.liveN 0x2301 6

/-- A lane processes a cue edge; where it starts a sync-lane item late, the pattern's anchor is that item's start line
from the next line on (R110, R125). -/
def Bar.cueTaken (b : Bar) (lane : Fin 32) (te : Nat) : Bar :=
  let c := b.cueEdge lane te
  let started (x : Bar) (ix : Nat) : Bool := match x.cap.items[ix]? with | some i => i.started | none => false
  match (List.range c.cap.items.length).find? fun ix => started c ix && !started b ix with
  | none => c
  | some ix => match c.cap.items[ix]? with
    | some i => if c.syncAnchor i.lane && decide (c.cap.patAnchor < i.s) then c.movePattern c.lines i.s else c
    | none => c

/-! ### A set goes live -/

/-- A value differs between two sets. -/
def Bar.differs (b : Bar) (x y : Store) (index sub : Nat) : Bool := b.pI x index sub ≠ b.pI y index sub

/-- The sample lines of a band whose rows straddle line n, where a set with other row modes goes live, and are not all
converted (R61): of the old mode what lies beyond n, of the new one what lies before it. In CONTEXT mode that is the contexts of
a repetition that n cuts, in either direction of travel; of the other modes a sample's rows follow its sample line in forward
travel and precede it in reverse. `anchor` is the pattern anchor from n on. -/
def Bar.rowVoids (b : Bar) (old new : Store) (n anchor band : Nat) : List Nat :=
  let mode (st : Store) : Nat := b.pN st 0x2201 (1 + band)
  let before (t r : Nat) : Bool := match b.line? t with | some l => b.rowConverted old band r l.ppos | none => false
  let after (t r : Nat) : Bool := b.rowConverted new band r ((t - anchor) % b.patLen new)
  let row (p j : Nat) : Nat := if b.reverse then p - 1 - j else j
  let at_ (first p : Nat) : Nat := if b.reverse then first + p - 1 else first
  if n = 0 || mode old = mode new then []
  else
    let exits :=
      if mode old = 4 then
        let p := b.patLen old
        match b.line? (n - 1) with
        | some l => ((List.range p).filter fun j => decide (l.ppos < j) && !after (l.n - l.ppos + j) (row p j)).map fun _ => at_ (l.n - l.ppos) p
        | none => []
      else if b.reverse then []
      else
        let rows := modeRows (mode old)
        ((List.range n).drop (n + 1 - rows)).filter fun m => (List.range rows).any fun r => decide (n ≤ m + r) && !after (m + r) r
    let entries :=
      if mode new = 4 then
        let p := b.patLen new
        let into := (n - anchor) % p
        ((List.range into).filter fun j => !before (n - into + j) (row p j)).map fun _ => at_ (n - into) p
      else if b.reverse then
        let rows := modeRows (mode new)
        ((List.range (rows - 1)).map (n + ·)).filter fun m => (List.range rows).any fun r => decide (m < n + r) && !before (m - r) r
      else []
    exits ++ entries

/-- Row modes that change at line n void samples (R61). -/
def Bar.rowModeChange (b : Bar) (old new : Store) (n : Nat) : Bar :=
  let moves := (List.range 6).any fun i => b.differs old new 0x2214 (1 + i)
  let anchor := if moves then n else b.cap.patAnchor
  (List.range 4).foldl (fun b band =>
    match b.rowVoids old new n anchor band with
    | [] => b
    | m :: rest =>
      (b.logEvent 0x2020 (band * 2 ^ 56 + rest.foldl min m)).modCap fun c =>
        { c with segs := c.segs.map fun (s : SegStatus) => { s with rowVoid := min 255 (s.rowVoid + rest.length + 1) } }) b

/-- Open frames of lanes whose geometry or cue settings change close at line n (R122). -/
def Bar.cutLanes (b : Bar) (old new : Store) (n : Nat) : Bar :=
  b.modItems fun i =>
    let changed := b.differs old new 0x2500 (i.lane + 1) || b.differs old new 0x2501 (i.lane + 1)
      || bit (b.pN old 0x2502 0) i.lane ≠ bit (b.pN new 0x2502 0) i.lane
      || b.differs old new 0x2503 (i.lane + 1) || b.differs old new 0x2504 (i.lane + 1)
    if i.started && i.f.isNone && i.cutAt.isNone && changed then { i with cutAt := some n } else i

/-- The armed set becomes live at line n of the session (R38, R44). -/
def Bar.goLive (b : Bar) (n : Nat) : Bar :=
  let b := b.settleBuckets
  let old := b.par.live
  let new := b.par.armed
  let gen := nextGen b.par.liveGen
  let regrid := b.differs old new 0x2301 1 || b.differs old new 0x2301 2 || b.differs old new 0x2301 3
  let point := b.nextPoint
  let b := { b with par := { b.par with live := new, liveGen := gen, lastApply := n, armedState := .empty, armedGen := 0, armed := [] } }
  let b := { b with dlv := { b.dlv with listFrom := b.now } }
  let b := b.modCap fun c => { c with sets := ⟨n, gen, new⟩ :: c.sets }
  let b := b.rowModeChange old new n
  let b := if (List.range 6).any fun i => b.differs old new 0x2214 (1 + i) then b.movePattern n n else b
  let b := if regrid then
      (match point with
       | some q => b.modSyn fun s =>
          { s with base := some q, nextJ := 0, regrids := if s.regrids.head? = some q then s.regrids.drop 1 else s.regrids }
       | none => b).resolveLines
    else b
  (b.cutLanes old new n).checkIllum.updateAdvice

/-- The apply line of the armed set, where the apply mode fixes one (R38). -/
def Bar.applyLine (b : Bar) : Option Nat :=
  match b.par.armedMode with
  | 0 => some (ceilDiv (b.par.armedAt + 64) 4096 * 4096)
  | 1 => some b.par.armedLine
  | _ => none

/-- Does the armed set become live at line n, the next one to be triggered? In PACE mode an item of the pacing lane that
starts late (R125) makes it live at the first line after its start line that is still to be triggered (DEDUCED,
log 136). -/
def Bar.applyDue (b : Bar) (n : Nat) : Bool :=
  b.par.armedState = .armed && b.ecat.session &&
    match b.applyLine with
    | some a => decide (a ≤ n)
    | none => b.cap.items.any fun i =>
        i.lane = b.par.armedLane && i.matched && (i.started || !i.published) && decide (b.par.armedAt + 64 ≤ i.s) && decide (i.s ≤ n)

/-- Decided steps whose boundary is line n or earlier: only the last decided takes effect (R120). -/
def Bar.settlePStep (b : Bar) (n : Nat) : Bar :=
  match (b.cap.pstepDue.filter fun p => decide (p.1 ≤ n)).getLast? with
  | none => b
  | some p =>
    (b.modCap fun c => { c with pstepDue := c.pstepDue.filter fun q => decide (n < q.1) }).applyPStep p.2 (!b.applyDue n)

def Bar.settleApply (b : Bar) (n : Nat) : Bar := if b.applyDue n then b.goLive n else b

/-- In PRE-OP the armed set goes live at once (R37). -/
def Bar.goLiveIdle (b : Bar) : Bar :=
  let b := b.settleBuckets
  ({ b with par := { b.par with live := b.par.armed, liveGen := nextGen b.par.liveGen, lastApply := 0, armedState := .empty
                                armedGen := 0, armed := [] },
            dlv := { b.dlv with listFrom := b.now } } : Bar).checkIllum.updateAdvice

end Sys2Proof.Machine
end

