-- ==== Sys2Proof/Machine/Timers.lean ====
section
/-! DEFINITION. Timers TMR0 to TMR15 and the position counters (chapter 13). -/

namespace Sys2Proof.Machine

def Bar.modTimer (b : Bar) (i : Fin 16) (f : Timer → Timer) : Bar :=
  { b with io := { b.io with timers := vmod b.io.timers i f } }

/-- The control word of a timer (Table 13-5). -/
def Bar.tmrCtl (b : Bar) (i : Nat) : Nat := b.rwN (0x2B10 + i) 1

/-- The unit belongs to a linked pair (R389). -/
def Bar.tmrLinked (b : Bar) (i : Nat) : Bool := bit (b.tmrCtl (i / 2 * 2)) 2

/-- The unit that governs: the even one of a pair, else the unit itself. -/
def Bar.tmrHead (b : Bar) (i : Fin 16) : Fin 16 := if b.tmrLinked i.val then ⟨i.val / 2 * 2, by omega⟩ else i

/-- The high half of a pair's 64-bit value, held in the odd unit; the table's pair defaults stand while the odd unit
has not been written. -/
def Bar.pairHigh (b : Bar) (i base sub dflt : Nat) : Nat :=
  match b.par.rw.find (objKey (base + i + 1) sub) with
  | some (.num n) => n.toNat
  | _ => dflt

/-- A period, compare or preset as the running unit uses it: 64 bits wide for a pair. -/
def Bar.tmrValue (b : Bar) (i base sub hiDflt : Nat) : Nat :=
  if b.tmrLinked i then b.rwN (base + i) sub + 2 ^ 32 * b.pairHigh i base sub hiDflt else b.rwN (base + i) sub

def Bar.tmrPer (b : Bar) (i : Nat) : Nat := b.tmrValue i 0x2B00 1 0
def Bar.tmrCmpA (b : Bar) (i : Nat) : Nat := b.tmrValue i 0x2B00 2 0xFFFFFFFF
def Bar.tmrCmpB (b : Bar) (i : Nat) : Nat := b.tmrValue i 0x2B00 3 0xFFFFFFFF
def Bar.tmrPreset (b : Bar) (i : Nat) : Nat := b.tmrValue i 0x2B10 3 0

/-- Length of a tick (R379). -/
def Bar.tick (b : Bar) (i : Nat) : Nat := 2 * (b.rwN (0x2B10 + i) 2 + 1)

/-- An output after an action: 0 none, 1 low, 2 high, 3 toggle. -/
def tmrAction (a : Nat) (level : Bool) : Bool :=
  match a with
  | 0 => level
  | 1 => false
  | 2 => true
  | _ => !level

/-- The actions of a match (R382): that of the half in progress, or at a turn that of the half that ends and then
that of the half that begins. `down` is the half after the tick. -/
def tmrOutput (up dn : Nat) (turn down level : Bool) : Bool :=
  if turn then
    if down then tmrAction dn (tmrAction up level) else tmrAction up (tmrAction dn level)
  else tmrAction (if down then dn else up) level

/-- A pin configured as an output, held as an input or not. -/
def Bar.pinConfiguredOut (b : Bar) (i : Fin 64) : Bool := b.pinMode i = 1 || b.pinMode i = 2

/-- A timer's output level reaches its pin at te (R383); a pin held as an input shows it once the hold ends. -/
def Bar.tmrPin (b : Bar) (i sub : Nat) (level : Bool) (te : Nat) : Bar :=
  let p := b.rwN (0x2B10 + i) sub
  if p < 64 && b.pinConfiguredOut (pinAt p) then b.drivePinAt (pinAt p) (b.driveFor (pinAt p) (level ^^ b.pinInvert (pinAt p))) te
  else b

/-- The pin of a stopped timer takes its HALT_LEVEL (R383). -/
def Bar.tmrPinHalt (b : Bar) (i sub : Nat) : Bar :=
  let p := b.rwN (0x2B10 + i) sub
  if p < 64 && b.pinConfiguredOut (pinAt p) then b.haltPin (pinAt p) else b

/-- An event of the selected source reaches the trigger sources EXTERNAL and BURST (R71, R72, R370). -/
def Bar.routeTrigger (b : Bar) (src time : Nat) : Bar :=
  let syn (f : Synth → Synth) : Bar := { b with cap := { b.cap with syn := f b.cap.syn } }
  if b.ecat.session && b.rwN 0x2200 7 = src then
    match b.rwN 0x2200 3 with
    | 1 => syn fun s => { s with ext := s.ext ++ [(time, b.now)] }
    | 3 =>
      let busy := decide (0 < b.cap.syn.burstLeft) || (match b.cap.syn.burstEnd with | some t => decide (time ≤ t) | none => false)
      if busy then syn fun s => { s with burstIgnored := sat32 s.burstIgnored }
      else syn fun s => { s with burstLeft := b.liveN 0x2200 5, freeNext := some b.now }
    | _ => b
  else b

/-- The present count is compared with A and B (R382, R384); a match of A is an event of the trigger sources (R71). -/
def Bar.tmrCompare (b : Bar) (i : Fin 16) : Bar :=
  let u := b.io.timers[i]
  if u.running && !u.settled then
    let ctl := b.tmrCtl i.val
    let hitA := u.count = b.tmrCmpA i.val && (u.aheadA || decide (u.count ≤ u.halfPer))
    let hitB := u.count = b.tmrCmpB i.val && (u.aheadB || decide (u.count ≤ u.halfPer))
    let turn := u.count = 0 || (u.down && u.count = u.halfStart)
    let outA := if hitA then tmrOutput (bits ctl 4 3) (bits ctl 6 5) turn u.down u.outA else u.outA
    let outB := if hitB then tmrOutput (bits ctl 8 7) (bits ctl 10 9) turn u.down u.outB else u.outB
    let b := b.modTimer i fun u =>
      { u with
        settled := true, outA := outA, outB := outB
        matchesA := if hitA then sat32 u.matchesA else u.matchesA
        matchesB := if hitB then sat32 u.matchesB else u.matchesB }
    let b := if hitA then b.noteWaits (.tmrMatch i.val u.at_) else b
    let b := if hitA then b.tmrPin i.val 4 outA u.at_ else b
    let b := if hitB then b.tmrPin i.val 5 outB u.at_ else b
    if hitA then b.routeTrigger (0x40 + i.val) u.at_ else b
  else b

/-- The count after a tick, the half after it and the count at which that half began (R380). -/
def tmrAdvance (u : Timer) (per : Nat) : Timer :=
  if u.down then
    let c := u.count - 1
    { u with count := c, down := c ≠ 0, halfStart := if c = 0 then 0 else u.halfStart
             halfPer := if c = 0 then per else u.halfPer, aheadA := u.aheadA && c ≠ 0, aheadB := u.aheadB && c ≠ 0, settled := false }
  else
    let c := u.count + 1
    { u with count := c, down := decide (per ≤ c), halfStart := if per ≤ c then c else 0
             halfPer := per, settled := false }

/-- When a tick that was due falls: off the PLL at the first increment of the counter at or after that (R392). -/
def Bar.tickTime (b : Bar) (due : Nat) : Nat := if b.cap.tb.mode = .pll then due else b.now - (b.now - due) / 40 * 40

/-- A tick of a running timer, when it is due (R379, R380, R392); a count not yet compared is compared first. Ticks keep
their grid from tick 0; off the PLL ticks of 40 ns or less come one per increment. -/
def Bar.tmrTick (b : Bar) (i : Fin 16) : Bar :=
  let i := b.tmrHead i
  let u := b.io.timers[i]
  if u.running && decide (u.due ≤ b.now) then
    let b := b.tmrCompare i
    let te := b.tickTime u.due
    b.modTimer i fun u => { tmrAdvance u (b.tmrPer i.val) with
      at_ := te
      due := (if b.cap.tb.mode = .pll || decide (40 < b.tick i.val) then u.due else te) + b.tick i.val }
  else b

/-- The ticks of a timer that were due up to time e are taken. -/
def Bar.tmrCatchUp (b : Bar) (i : Fin 16) (e : Nat) : Bar :=
  let u := b.io.timers[i]
  if u.running && decide (u.due ≤ e) then (List.range ((e - u.due) / b.tick i.val + 1)).foldl (fun b _ => b.tmrTick i) b else b

/-- Back on the PLL, the timers that ticked once per increment go on, on the 2 ns grid (R379, R392). -/
def Bar.timersOnGrid (b : Bar) : Bar :=
  let onGrid (i : Fin 16) : Timer :=
    let u := b.io.timers[i]
    if u.running && decide (b.tick i.val ≤ 40) then { u with due := u.due + (u.due + b.cap.tb.stepPhase) % 2 } else u
  { b with io := { b.io with timers := Vector.ofFn onGrid } }

/-- A start (R381): of a timer that runs, the present count is compared before. The preset at tick 0, the first 2 ns step after
the command (R379), which checks no compare; outputs at INIT_A and INIT_B. -/
def Bar.tmrStart (b : Bar) (i : Fin 16) : Bar :=
  let b := b.tmrCompare i
  let ctl := b.tmrCtl i.val
  let per := b.tmrPer i.val
  let preset := b.tmrPreset i.val
  let down := if preset = per then true else if preset = 0 then false else bit ctl 0
  let tick0 := b.now + 2 - (b.now + b.cap.tb.stepPhase) % 2
  let b := b.modTimer i fun u =>
    { u with
      running := true, down := down, count := preset, halfStart := if down then per else 0, halfPer := per, settled := true
      aheadA := false, aheadB := false, at_ := tick0, due := tick0 + b.tick i.val, outA := bit ctl 11, outB := bit ctl 12
      overrun := false, miss := false, double := false }
  let b := (b.tmrPin i.val 4 (bit ctl 11) b.now).tmrPin i.val 5 (bit ctl 12) b.now
  b.logEvent 0xB023 (i.val * 256 + 1)

/-- A stop freezes the count; the pins take their HALT_LEVEL (R381, R383). -/
def Bar.tmrStop (b : Bar) (i : Fin 16) : Bar :=
  if b.io.timers[i].running then
    let b := b.tmrCompare i
    let b := b.modTimer i fun u => { u with running := false }
    let b := (b.tmrPinHalt i.val 4).tmrPinHalt i.val 5
    b.logEvent 0xB023 (i.val * 256)
  else b

/-- Why a start mask is refused (R381, R389): abort detail code. -/
def Bar.startRefused (b : Bar) (mask : Nat) : Option Nat :=
  let sel := (List.range 16).filter fun i => bit mask i
  if sel.any fun i => i % 2 = 1 && b.tmrLinked i then some 0xB007
  else if sel.any fun i => b.tmrPer i < b.tmrPreset i then some 0xB005
  else if sel.any fun i => b.rwN (0x2B10 + i) 2 ≠ b.rwN (0x2B10 + sel.headD 0) 2 then some 0xB006
  else none

/-- Why a stop mask is refused. -/
def Bar.stopRefused (b : Bar) (mask : Nat) : Option Nat :=
  if (List.range 16).any fun i => bit mask i && i % 2 = 1 && b.tmrLinked i then some 0xB007 else none

/-- A start mask taken: every timer it names starts at one tick 0. -/
def Bar.startTimers (b : Bar) (mask : Nat) : Bar :=
  (List.finRange 16).foldl (fun b i => if bit mask i.val then b.tmrStart i else b) b

/-- A stop mask taken. -/
def Bar.stopTimers (b : Bar) (mask : Nat) : Bar :=
  (List.finRange 16).foldl (fun b i => if bit mask i.val then b.tmrStop i else b) b

/-- Timers with AUTOSTART start when PRE-OP is first reached after reset (R393). -/
def Bar.autostartTimers (b : Bar) : Bar :=
  (List.finRange 16).foldl (fun b i =>
    if bit (b.tmrCtl i.val) 1 && b.tmrHead i = i && !(b.io.timers[i]).running && decide (b.tmrPreset i.val ≤ b.tmrPer i.val)
    then b.tmrStart i else b) b

/-- Where a compare value lies in the half in progress (R386). -/
inductive Lies where
  | ahead | behind | above
  deriving DecidableEq, Repr

def liesAt (down : Bool) (x h per v : Nat) : Lies :=
  if down then (if v < x then .ahead else if v ≤ h then .behind else .above)
  else if per < v then .above
  else if x < v then .ahead else .behind

/-- Where an old compare value lies: above the period in force for the half it matches no more, unless a write has put it there
(R386, R387). -/
def Timer.oldLies (u : Timer) (arm : Bool) (h per v : Nat) : Lies :=
  if u.down && decide (u.halfPer < v) && !arm then .above else liesAt u.down u.count h per v

/-- The landing flags of a compare write (Table 13-2): missed, doubled. -/
def landingFlags (old new : Lies) : Bool × Bool :=
  match old, new with
  | .ahead, .ahead => (false, false)
  | .ahead, _ => (true, false)
  | .behind, .ahead => (false, true)
  | .above, .ahead => (false, false)
  | _, _ => (false, false)

/-- The landing record of a write (Table 13-7). -/
def landingWord (x : Nat) (down : Bool) (a b : Bool × Bool) (overrun : Bool) : Nat :=
  x % 2 ^ 32 + b2n down * 2 ^ 32 + b2n a.1 * 2 ^ 33 + b2n a.2 * 2 ^ 34 + b2n b.1 * 2 ^ 35 + b2n b.2 * 2 ^ 36
    + b2n overrun * 2 ^ 37

/-- A write of period and compares lands (R385 to R387, R389): `store` puts the new values; `unit` is the unit whose
landing record the write replaces. -/
def Bar.tmrWrite (b : Bar) (unit : Fin 16) (store : Bar → Bar) : Bar :=
  let i := b.tmrHead unit
  let u0 := b.io.timers[i]
  if !u0.running then
    (store b).modTimer unit fun u => { u with landing := 2 ^ 38 }
  else
    let b := b.tmrCompare i
    let u := b.io.timers[i]
    let per := b.tmrPer i.val
    let cA := b.tmrCmpA i.val
    let cB := b.tmrCmpB i.val
    let b := store b
    let per' := b.tmrPer i.val
    let cA' := b.tmrCmpA i.val
    let cB' := b.tmrCmpB i.val
    let perW := per' ≠ per
    let h := if u.down then u.halfStart else per'
    let flags (arm : Bool) (c c' : Nat) : Bool × Bool := if c' = c then (false, false) else
      landingFlags (u.oldLies arm (if u.down then h else per) per c) (liesAt u.down u.count h per' c')
    -- ahead in a down half, but above its period: the one match of Table 13-2 is still due
    let ahead (arm : Bool) (c c' : Nat) : Bool := if c' = c then arm else u.down && decide (c' < u.count) && decide (u.halfPer < c')
    let fA := flags u.aheadA cA cA'
    let fB := flags u.aheadB cB cB'
    let past := perW && !u.down && decide (per' < u.count)
    let x := if i = unit then u.count else u.count / 2 ^ 32
    let turns := perW && !u.down && decide (per' ≤ u.count)
    let b := b.modTimer i fun u =>
      { u with
        down := if turns then true else u.down
        halfStart := if turns then u.count else u.halfStart
        halfPer := if u.down then u.halfPer else per'
        aheadA := ahead u.aheadA cA cA', aheadB := ahead u.aheadB cB cB'
        overrun := u.overrun || past, miss := u.miss || fA.1 || fB.1, double := u.double || fA.2 || fB.2 }
    let b := b.modTimer unit fun v => { v with landing := landingWord x u.down fA fB past }
    let b := if past then b.logLimited 0xB020 i.val 0 1000000000 else b
    let b := if fA.1 || fB.1 then b.logLimited 0xB021 i.val 0 1000000000 else b
    if fA.2 || fB.2 then b.logLimited 0xB022 i.val 0 1000000000 else b

/-- A timer's status word (Table 13-6). -/
def Bar.tmrStatus (b : Bar) (i : Fin 16) : Nat :=
  let u := b.io.timers[i]
  b2n u.running + b2n u.down * 2 + b2n u.outA * 4 + b2n u.outB * 8 + b2n u.overrun * 16 + b2n u.miss * 32
    + b2n u.double * 64 + b2n (b.tmrLinked i.val) * 128

/-- A timer, or the pair it belongs to, runs. -/
def Bar.tmrRuns (b : Bar) (i : Fin 16) : Bool := (b.io.timers[b.tmrHead i]).running || (b.io.timers[i]).running

/-- A pin is named by a timer output other than the given one (R383). -/
def Bar.pinTaken (b : Bar) (i sub p : Nat) : Bool :=
  (List.range 16).any fun j =>
    (b.rwN (0x2B10 + j) 4 = p && !(j = i && sub = 4)) || (b.rwN (0x2B10 + j) 5 = p && !(j = i && sub = 5))

/-- A preset written to a position counter loads it at once (R391); the counts taken so far are counted from it. -/
def Bar.loadPos (b : Bar) (k : Fin 2) (v : Int) : Bar :=
  let by_ := v - (b.io.pos[k]).toInt
  ({ b with
    io := { b.io with pos := vmod b.io.pos k fun _ => BitVec.ofInt 64 v }
    cap := { b.cap with enc := vmod b.cap.enc k fun e => { e with counts := e.counts.map fun c => (c.1, c.2 + by_) } } } : Bar).noteWaits .none

end Sys2Proof.Machine
end

