-- ==== Sys2Proof/Machine/Timing.lean ====
section
/-! DEFINITION. Timebase and discipline (R77 to R86), encoders (R87 to R93), the synthesiser (R94 to R103), the other
trigger sources (R71, R72) and the minimum-period enforcer (R104). -/

namespace Sys2Proof.Machine

def Bar.modTb (b : Bar) (f : Timebase → Timebase) : Bar := b.modCap fun c => { c with tb := f c.tb }
def Bar.modEnc (b : Bar) (e : Fin 2) (f : Encoder → Encoder) : Bar := b.modCap fun c => { c with enc := vmod c.enc e f }

/-! ### Timebase lock (R83 to R86) -/

/-- The counter leaves the PLL: the offset it was disciplined at is owed until the servo has slewed back to it (R85). -/
def Timebase.leavePll (t : Timebase) : Timebase :=
  { t with owed := if t.mode = .pll && t.lastRef.isSome && t.owed.isNone then some t.offset else t.owed }

def Bar.tbUnlock (b : Bar) : Bar :=
  if b.cap.tb.mode = .pll then
    (b.modTb fun t => { t.leavePll with mode := .holdover, unlockAt := some (b.now - 320), holdoverEntries := sat32 t.holdoverEntries }).logEvent 0x3020 0
  else b

def Bar.tbLimit (b : Bar) : Bar :=
  match b.cap.tb.mode, b.cap.tb.unlockAt with
  | .holdover, some t0 =>
    if t0 + 10000000 ≤ b.now && !b.saf.sn.causes.tb then (b.engage 0x3022 fun c => { c with tb := true }).logEvent 0x3022 0 else b
  | _, _ => b

def Bar.tbBack (b : Bar) : Bar :=
  ((b.modTb fun t => { t with mode := .pll, unlockAt := none }).timersOnGrid.clearCause fun c => { c with tb := false }).logEvent 0x3021 0

def Bar.tbRelock (b : Bar) : Bar := if b.cap.tb.mode = .holdover then b.tbBack else b

def Bar.refclkLost (b : Bar) : Bar :=
  if b.cap.tb.mode = .internal then b
  else ((b.modTb fun t => { t.leavePll with mode := .internal }).engage 0x3023 fun c => { c with tb := true }).logEvent 0x3023 0

def Bar.refclkReturn (b : Bar) : Bar := if b.cap.tb.mode = .internal then b.tbBack else b

/-! ### Discipline (R78 to R81) -/

/-- What the timebase may follow now: 0xFE Distributed Clocks, a data port, 0xFF nothing. -/
def Bar.disciplinePort (b : Bar) : Nat :=
  let dc := (b.ecat.al = .safeop || b.ecat.al = .op) && b.cap.tb.sync0
  let heard := (List.range 4).filterMap fun p => (b.cap.tb.masters[p]?.join).map fun m => (m.rank, p)
  let best := heard.foldl (fun (x : Option (Nat × Nat)) y => match x with | none => some y | some z => if y.1 < z.1 then some y else some z) none
  let gptp := match best with | some (_, p) => p | none => 0xFF
  match b.rwN 0x2300 1 with
  | 0 => if dc then 0xFE else gptp
  | 1 => if dc then 0xFE else 0xFF
  | 2 => gptp
  | _ => 0xFF

/-- The discipline port follows what can be heard; with a new source the servo's samples begin anew. -/
def Bar.selectReference (b : Bar) : Bar :=
  let p := b.disciplinePort
  if p = b.cap.tb.port then b else b.modTb fun t => { t with port := p, samples := [], owed := none }

/-- State LOCKED while the offset stays within 100 ns of its mean over the last second (R79). -/
def steady (ss : List (Nat × Int)) : Bool :=
  let os := ss.map (·.2)
  let mean : Int := if os.isEmpty then 0 else os.foldl (· + ·) (0 : Int) / (os.length : Int)
  os.all fun o => decide ((o - mean).natAbs ≤ 100)

/-- An offset is measured against a source (0xFE for SYNC0, else the port of a Sync message); the servo's correction
follows the reference's rate by at most 1 ppm per 10 ms, within ±200 ppm. On the PLL it also takes back what the offset gathered
in holdover, 1 ppb per ns (R85; DESIGN CHOICE, log 37). -/
def Bar.syncMessage (b : Bar) (src : Nat) (offset : Int) : Bar :=
  let b := b.selectReference
  let tb := b.cap.tb
  if src ≠ tb.port || tb.port = 0xFF then b
  else
    let samples := ((b.now, offset) :: tb.samples).filter fun s => decide (b.now < s.1 + 1000000000)
    let fine := b.rwN 0x2300 2 = 0
    let (want, allow) : Int × Int := match tb.samples.head? with
      | some (t0, o0) => (tb.corr + (offset - o0) * 1000000000 / max 1 ((b.now : Int) - t0), ((b.now : Int) - t0) / 10000)
      | none => (tb.corr, 0)
    let beyond := decide (200000 < want.natAbs)
    let back : Int := match tb.owed with | some o => if tb.mode = .pll then offset - o else 0 | none => 0
    let owed := if tb.mode = .pll && decide (back.natAbs ≤ 1) then none else tb.owed
    let corr := clampI (tb.corr - allow) (tb.corr + allow) (clampI (-200000) 200000 (want + back))
    let disc : DiscState := if !fine then .free else if beyond || !steady samples then .tracking else .locked
    let b := b.modTb fun t =>
      { t with offset := offset, samples := samples, lastRef := some b.now, corr := if fine then corr else t.corr, disc := disc, owed := owed }
    if fine && beyond then b.logLimited 0x3024 0 0 1000000000 else b

/-- The reference has been lost for more than 100 ms (R79). -/
def Bar.discHold (b : Bar) : Bar :=
  match b.cap.tb.lastRef with
  | some t => if t + 100000000 < b.now then (b.modTb fun t => { t with disc := .free, lastRef := none, samples := [] }).logEvent 0x3025 0 else b
  | none => b

/-- An Announce message: its sender is heard, and the best master clock algorithm chooses the port. -/
def Bar.announceReceived (b : Bar) (p : Fin 4) (domain rank interval : Nat) : Bar :=
  if b.portUp p && domain = b.rwN 0x2300 3 then
    (b.modTb fun t => { t with masters := vmod t.masters p fun _ => some ⟨rank, b.now, interval⟩ }).selectReference
  else b

/-- priority1 of the bar's own data set: it never becomes grandmaster (R80). -/
def ownPriority1 : Nat := 255

/-- Three announce intervals without an Announce: no grandmaster is heard on the port, and the bar announces its own data
set there (R80; DEDUCED, log 48: R80 does not say when it announces). -/
def Bar.announceTimeout (b : Bar) (p : Fin 4) : Bar :=
  match b.cap.tb.masters[p] with
  | some m =>
    if m.last + 3 * m.interval ≤ b.now then
      ((b.modTb fun t => { t with masters := vmod t.masters p fun _ => none }).selectReference).sendReply p .gptp none
        (Config.announceFrame p.val (b.rwN 0x2300 3) ownPriority1 b.now)
    else b
  | none => b

/-- The free line rate's period of the live set (R71). -/
def Bar.freePeriod (b : Bar) : Nat := ceilDiv 1000000000 (max 1 (b.liveN 0x2200 4))

/-- How far the edge of a divider nearest to time e is from it, for one with an edge at `due` and a period. -/
def offEdge (due period e : Nat) : Nat :=
  let r := (due + period * (e / period + 1) - e) % period
  min r (period - r)

/-- The next edge of a divider that has an edge at e: the present one put off, never brought forward. -/
def stretched (due period e : Nat) : Nat := if due ≤ e then e + period else e + ceilDiv (due - e) period * period

/-- A divided output that runs is off the SYNC_IN edge at e by more than `tol` ns (R82). -/
def Bar.dividersOff (b : Bar) (e tol : Nat) : Bool :=
  decide (tol < offEdge b.cap.tb.stepPhase 2 e)
    || ((List.finRange 16).any fun i => (b.io.timers[i]).running && decide (tol < offEdge (b.io.timers[i]).due (b.tick i.val) e))
    || (decide (b.rwN 0x2200 3 = 2) && match b.cap.syn.freeNext with | some t => decide (tol < offEdge t b.freePeriod e) | none => false)

/-- By how much the step of an engine that runs at e is stretched to take an edge there. -/
def Bar.stretch (b : Bar) (e : Nat) (g : Fin 4) : Nat := ((b.engine g).turnFrom + e) % 2

/-- The 500 MHz step, the timer ticks and the FREE divider take an edge at e, by stretching the period that runs (R82); ticks that
were due by then are taken before. What a channel or a compare did in a step, it did in the stretched one (R358, R367). -/
def Bar.alignDividers (b : Bar) (e : Nat) : Bar :=
  let free := b.freePeriod
  let by_ := b.stretch e
  let b := (List.finRange 16).foldl (fun b i => b.tmrCatchUp i e) b
  let b : Bar := { b with io := { b.io with
    engines := Vector.ofFn fun i => let g : Engine := b.io.engines[i]; { g with turnFrom := g.turnFrom + by_ i }
    chans := Vector.ofFn fun k => let c : ChannelState := b.io.chans[k]; { c with stepped := c.stepped.map (· + by_ (engineOf k)) }
    pins := b.io.pins.map fun (p : Pin) => { p with compare := p.compare.map fun c => { c with step := c.step + by_ (engineOf c.owner) } }
    timers := Vector.ofFn fun i =>
      let u : Timer := b.io.timers[i]
      if u.running then { u with due := stretched u.due (b.tick i.val) e } else u } }
  let b : Bar := b.modTb fun t => { t with stepPhase := e % 2 }
  if b.rwN 0x2200 3 = 2 then b.modSyn fun s => { s with freeNext := s.freeNext.map fun t => stretched t free e } else b

/-- An accepted SYNC_IN edge at e aligns the dividers or checks them; with trigger source FREE the first one of a session
places a line trigger. -/
def Bar.acceptSync (b : Bar) (e : Nat) : Bar :=
  let first := !b.cap.tb.syncAligned
  let place := b.ecat.session && b.rwN 0x2200 3 = 2 && !b.cap.tb.syncFirst
  let b := b.modTb fun t => { t with syncLatch := e, syncLast := some e, syncAligned := true, syncFirst := t.syncFirst || place }
  let slip := !first && b.dividersOff e 2
  let b := if first || slip then b.alignDividers e else b
  let b := if place then b.modSyn fun s => { s with freeNext := some e } else b
  if slip then b.logEvent 0x3026 0 else b

/-- A SYNC_IN rising edge at te (R82). DESIGN CHOICE (log 174): one that is counted and ignored does not latch 0x2300:08 either. -/
def Bar.syncInEdge (b : Bar) (te : Nat) : Bar :=
  let e := min te b.now
  if b.rwN 0x2300 2 = 0 then b
  else
    match b.cap.tb.syncLast with
    | some t => if e < t + 1000000 then b.modTb fun t => { t with syncIgnored := sat32 t.syncIgnored } else b.acceptSync e
    | none => b.acceptSync e

/-! ### Lock state -/

/-- The lines of the running episode are lost (R103). -/
def Bar.loseEpisode (b : Bar) : Bar :=
  let from_ := b.lines - b.cap.syn.drRun
  let b := b.modCap fun c => { c with lineLog := c.lineLog.map fun (l : LineRec) => if l.dr && decide (from_ ≤ l.n) then { l with drLost := true } else l }
  b.modSyn fun s => { s with drRun := 0 }

/-- Lock is lost in a session (R97, R101). -/
def Bar.loseLock (b : Bar) : Bar :=
  let b := b.modSyn fun s => { s with goodLines := 0, errOk := false }
  if b.ecat.session && b.cap.syn.state = .locked then (b.modSyn fun s => { s with state := .flywheel }).logEvent 0x3030 0 else b

/-- Does the synthesiser trigger without the grid's leave, so that its lines stand for no grid point? -/
def SynState.offGrid : SynState → Bool
  | .unsync | .overspeed => true
  | _ => false

/-- The index of the next grid point beyond the highest position reached. -/
def Bar.pointBeyond (b : Bar) : Nat :=
  match b.cap.syn.base with
  | some q => (((Frac.ofInt (max b.feedPos b.cap.syn.highest)).sub q).floorDiv b.pitch + 1).toNat
  | none => b.cap.syn.nextJ

/-- The synthesiser is LOCKED: the grid keeps its anchor. Each dead-reckoned line has stood for a grid point: if they ran ahead,
the next trigger waits for the point after the last one's, and points passed are requested at once (R102, Table 3-2). After UNSYNC
or OVERSPEED it waits for the next point beyond the highest position (DEDUCED, log 172). -/
def Bar.lock (b : Bar) (log : Bool) : Bar :=
  let j := if b.cap.syn.state.offGrid then b.pointBeyond else b.cap.syn.nextJ
  let b := (b.modSyn fun s =>
    { s with state := .locked, drRun := 0, nextJ := j, due := [], ready := max s.ready b.now }).resolveLines
  if log then b.logEvent 0x3031 0 else b

/-- The period at which the synthesiser requests triggers while it does not follow the position: that of the last LOCKED
line, or without one that of the last line (DEDUCED, log 39). -/
def Bar.heldPeriod (b : Bar) : Nat :=
  if b.cap.syn.period ≠ 0 then b.cap.syn.period
  else match b.cap.lineLog with | x :: y :: _ => x.t - y.t | _ => 0

/-- The 64th DR line without relock (R103). -/
def Bar.syncLost (b : Bar) : Bar :=
  if 64 ≤ b.cap.syn.drRun then
    let p := b.heldPeriod
    ((b.loseEpisode).modSyn fun s => { s with state := .unsync, period := p, due := [] }).logEvent 0x3032 0
  else b

/-- OVERSPEED is raised on the feeding encoder (R90). -/
def Bar.enterOverspeed (b : Bar) : Bar :=
  if b.cap.syn.state = .overspeed then b.modSyn fun s => { s with overAt := b.now }
  else
    let p := b.heldPeriod
    let b := b.loseEpisode.modSyn fun s => { s with state := .overspeed, overAt := b.now, goodLines := 0, period := p, due := [] }
    (b.modItems fun i => if i.started && i.f.isNone && !i.published then i.withReason rOverspeed else i)

/-- 1 ms without overspeed and locked again (R90, R97): in state OVERSPEED by eight good lines, or LOCKED after a zero speed. -/
def Bar.overspeedClear (b : Bar) : Bar :=
  let s := b.cap.syn
  let relocks := s.state = .overspeed && decide (8 ≤ s.goodLines)
  if (b.cap.enc[b.feeding]).overspeed && b.usesEncoder && decide (s.overAt + 1000000 ≤ b.now) && (relocks || s.state = .locked) then
    ((if relocks then b.lock false else b).modEnc b.feeding fun e => { e with overspeed := false }).logEvent 0x3035 0
  else b

/-! ### Encoder events -/

/-- A and B changed within one sample (R88). -/
def Bar.quadError (b : Bar) (e : Fin 2) : Bar :=
  let times : List Nat := (b.now :: (b.cap.enc[e]).quadTimes).take 16
  let raised := decide (times.length = 16) && decide (b.now < times.getLastD 0 + 1000000)
  let b := b.modEnc e fun x => { x with quadErrors := sat32 x.quadErrors, quadTimes := if raised then [] else times }
  if raised then
    let b := b.logEvent 0x3037 e.val
    if e = b.feeding then b.loseLock else b
  else b

/-- Grid points up to a position that have not been triggered. -/
def Bar.pointsPassed (b : Bar) (pos : Int) : Nat :=
  match b.cap.syn.base with
  | none => 0
  | some base =>
    let p := Frac.ofInt pos
    let s := b.cap.syn
    linesAhead b.pitch p base s.nextJ s.regrids + b2n ((pointAhead b.pitch p base s.nextJ s.regrids).le p)

/-- The synthesiser takes a count of the feeding encoder, with its timestamp, before it stands in the list of counts (R92,
R94 to R97); `before` is the counter's value before it. DESIGN CHOICE (log 175): grid points that a phase offset puts at or behind
the anchor are triggered too, at the next count beyond it. -/
def Bar.synthCount (b : Bar) (ts : Nat) (before : Int) : Bar :=
  let pos := b.feedPos
  let b := match b.cap.syn.base with
    | some _ => b
    | none =>
      let phi := b.liveI 0x2301 4
      (b.modSyn fun s =>
        { s with
          base := some ((Frac.ofInt pos).add (b.pitch.scale phi 256)), nextJ := 1, phi := phi, highest := pos
          first := some (ts, before) }).resolveLines.anchorCues
  let b := if b.cap.syn.state = .stopped then b.modSyn fun s => { s with state := .position, due := [], ready := ts } else b
  let back := (b.pitch).lt (Frac.ofInt (b.cap.syn.highest - pos))
  let raise := back && !(b.cap.enc[b.feeding]).reverse
  let b := b.modEnc b.feeding fun e => { e with reverse := back || (e.reverse && decide (pos < b.cap.syn.highest)) }
  let beyond := decide (b.cap.syn.highest < pos)
  let b := b.modSyn fun s => { s with highest := max s.highest pos }
  let b := if raise then b.logEvent 0x303B b.feeding.val else b
  let b := if b.cap.syn.state = .position && beyond then
      let m := b.pointsPassed pos - b.cap.syn.due.length
      let last := match (b.cap.enc[b.feeding]).counts with | (t0, _) :: _ => ts - t0 | [] => 0
      b.modSyn fun s => { s with due := s.due ++ (List.range m).map fun i => ts + i * last / m }
    else b
  let e := b.phaseError ts pos
  let b := b.modSyn fun s => { s with errOk := s.errOk && b.withinLine e b.errBound }
  if b.cap.syn.state = .locked && !b.withinLine e ⟨1, 4⟩ then b.loseLock else b

/-- The glitch filter of an encoder's lines, rounded up to 40 ns off the PLL (R84, R87). -/
def Bar.filterTime (b : Bar) (e : Fin 2) : Nat :=
  let f := b.rwN (0x2302 + e.val) 2
  if b.cap.tb.mode = .pll then f else ceilDiv f 40 * 40

/-- When an edge that has been stable for `held` ns is accepted, and its timestamp: the start of that period, on the 40 ns
grid of samples off the PLL (R84, R87). -/
def Bar.accepted (b : Bar) (e : Fin 2) (held : Nat) : Option Nat :=
  let held := if b.cap.tb.mode = .pll then held else held / 40 * 40
  if b.filterTime e ≤ held then some (b.now - held) else none

/-- An accepted A or B edge with timestamp ts (R88, R90, R391). -/
def Bar.acceptCount (b : Bar) (e : Fin 2) (dir : CountDir) (ts : Nat) : Bar :=
  let up := (dir = .up) ≠ (b.rwN (0x2302 + e.val) 3 = 1)
  let before := (b.io.pos[e]).toInt
  let b := { b with io := { b.io with pos := vmod b.io.pos e fun p => if up then p + 1 else p - 1 } }
  let b := b.noteWaits .none
  let counts : List (Nat × Int) := (ts, (b.io.pos[e]).toInt) :: (b.cap.enc[e]).counts
  let fast := match counts[7]? with | some (t, _) => decide (ts < t + 350) | none => false
  let was := (b.cap.enc[e]).overspeed
  let feeds := decide (e = b.feeding)
  let takes := feeds && b.ecat.session && b.usesEncoder
  let b := if takes then b.synthCount ts before else b
  let b := b.modEnc e fun x => { x with counts := counts, zero := false, overspeed := fast || (was && takes) }
  let b := if fast && !was then b.logEvent 0x3034 0 else b
  if takes && fast then b.enterOverspeed else b

/-- A sample in which A or B changed, stable for `held` ns: a count, the quadrature error of both at once, or a glitch the
filter removes. Off the PLL, edges of one 40 ns sample coincide (R84). -/
def Bar.encoderCount (b : Bar) (e : Fin 2) (dir : CountDir) (held : Nat) : Bar :=
  match b.accepted e held with
  | none => b
  | some ts =>
    let coincide := b.cap.tb.mode ≠ .pll && (match (b.cap.enc[e]).counts with | (t, _) :: _ => decide (t = ts) | [] => false)
    if dir = .both || coincide then b.quadError e else b.acceptCount e dir ts

/-- A differential pair found open or shorted (R88). -/
def Bar.encWire (b : Bar) (e : Fin 2) (w : EncWire) : Bar :=
  if b.rwN (0x2302 + e.val) 1 = 0 then
    let i := match w with | .a => 0 | .b => 1 | .z => 2
    let b := (b.modEnc e fun x => { x with wires := setBit x.wires i }).logEvent 0x3038 (i * 256 + e.val)
    if e = b.feeding then b.loseLock else b
  else b

/-- A Z rising edge, stable for `held` ns (R87, R89): the position is that of the edge's timestamp. CHECK compares with the edge
before it, in whatever mode that came. -/
def Bar.zEdge (b : Bar) (e : Fin 2) (held : Nat) : Bar :=
  let mode := b.rwN (0x2302 + e.val) 4
  match b.accepted e held with
  | none => b
  | some ts =>
    let pos := match (b.cap.enc[e]).counts.find? fun c => decide (c.1 ≤ ts) with | some c => c.2 | none => (b.io.pos[e]).toInt
    let off : Int := match (b.cap.enc[e]).zLast with | some z => ((pos - z).natAbs : Int) - b.rwN (0x2302 + e.val) 5 | none => 0
    let b := b.modEnc e fun x =>
      { x with zLast := some pos, zPos := if mode = 0 then x.zPos else pos, zTime := if mode = 0 then x.zTime else ts }
    if mode = 2 && decide (b.rwN (0x2302 + e.val) 6 < off.natAbs) then b.logEvent 0x3039 e.val else b

/-- No count for the zero-speed timeout (R91). Lines of FLYWHEEL, UNSYNC and OVERSPEED have taken grid points that the position has
not reached: POSITION mode requests them when it does (R96). The encoder stays in overspeed until the relock of R90 (DEDUCED, log
149). -/
def Bar.zeroSpeed (b : Bar) : Bar :=
  let last := match (b.cap.enc[b.feeding]).counts with | (t, _) :: _ => t | [] => 0
  if b.ecat.session && b.usesEncoder && b.cap.syn.state ≠ .stopped && decide (last + b.liveN 0x2301 8 * 1000000 ≤ b.now) then
    let b := if b.cap.syn.state = .flywheel then b.loseEpisode else b.modSyn fun s => { s with drRun := 0 }
    let b := b.closeFrames
    let b := (List.range b.cap.items.length).foldl (fun b ix => match b.cap.items[ix]? with
      | some i =>
        if i.started && i.f.isNone then
          (b.closeFrameAt ix b.lines false).modItemAt ix fun i => { i.withReason rPressStopped with stopDue := some (b.now + b.dVerdict b.lines) }
        else b
      | none => b) b
    let j := if b.cap.syn.state.offGrid || b.cap.syn.state = .flywheel then b.pointBeyond else b.cap.syn.nextJ
    let b := (b.modSyn fun s => { s with state := .stopped, goodLines := 0, due := [], nextJ := j }).resolveLines
    (b.modEnc b.feeding fun e => { e with zero := true }).logEvent 0x3033 0
  else b

/-! ### Lines -/

/-- The latest line, marked as a crawl line (R64); a POSITION episode ends with it (R103). -/
def Bar.markCrawl (b : Bar) : Bar :=
  match b.cap.lineLog with
  | [] => b
  | l :: rest =>
    if l.crawl then b
    else
      let b := b.modCap fun c => { c with lineLog := { l with crawl := true } :: rest }
      let b := if b.cap.syn.crawling then b else (b.modSyn fun s => { s with crawling := true }).logEvent 0x2021 l.n
      b.modSyn fun s =>
        { s with state := if s.state = .locked then .position else s.state
                 drRun := if s.state = .position || s.state = .locked then 0 else s.drRun }

/-- 500 µs without a further trigger (R64). -/
def Bar.crawlTimeout (b : Bar) : Bar :=
  match b.cap.lineLog.head? with
  | some l => if b.ecat.session && decide (l.t + 500000 < b.now) then b.markCrawl else b
  | none => b

/-- The line before has its period: it is a crawl line, or the first that is none (R64). -/
def Bar.judgeCrawl (b : Bar) (t : Nat) : Bar :=
  match b.cap.lineLog.head? with
  | some l =>
    if l.t + 500000 < t then b.markCrawl
    else if b.cap.syn.crawling && !l.crawl then (b.modSyn fun s => { s with crawling := false }).logEvent 0x2022 l.n
    else b
  | none => b

/-- The phase offset moves the grid by at most 1/16 line per line (R98). -/
def Bar.movePhase (b : Bar) : Bar :=
  let d := clampI (-16) 16 (b.liveI 0x2301 4 - b.cap.syn.phi)
  if d = 0 then b
  else
    let period := match b.cap.lineLog with | x :: y :: _ => x.t - y.t | _ => 0
    let tl := b.tLmin b.par.live
    if d < 0 && decide (period * 16 < 17 * tl) then b.modSyn fun s => { s with deferred := sat32 s.deferred }
    else (b.modSyn fun s => { s with phi := s.phi + d, base := s.base.map fun q => q.add (b.pitch.scale d 256) }).resolveLines

/-- Synthesiser state after a line (R96, R97, R101). -/
def Bar.afterLine (b : Bar) (fast dr : Bool) (period : Nat) : Bar :=
  let s := b.cap.syn
  let good := if s.errOk then s.goodLines + 1 else 0
  let b := b.modSyn fun s =>
    { s with goodLines := good, errOk := true, drRun := if dr then s.drRun + 1 else 0
             period := if s.state = .locked then period else s.period }
  let ready := decide (8 ≤ good)
  match s.state with
  | .position => if ready && fast && decide (b.cap.syn.drRun < 64) then b.lock false else b
  | .flywheel => if ready && decide (b.cap.syn.drRun < 64) then b.lock true else b
  | .unsync => if ready then b.lock true else b
  | _ => b

/-- ENC1 checked against ENC0 at a block-frame boundary (R93). -/
def Bar.checkEncoders (b : Bar) (n : Nat) : Bar :=
  if b.usesEncoder && b.rwN 0x2301 9 = 2 && n % 4096 = 0 then
    let pos := (b.io.pos[(1 : Fin 2)]).toInt
    let lines := (pos - b.cap.syn.chkStart) * (b.rwN 0x2301 0x0A : Nat)
    let m : Int := (max 1 (b.rwN 0x2301 0x0B) : Nat)
    let bad := decide (0 < n) && decide (20 * m < ((lines - 4096 * m).natAbs : Int))
    let b := b.modSyn fun s => { s with chkStart := pos }
    if bad then (b.logEvent 0x303A 0).loseLock else b
  else b

/-- The stealing interval of R428 that holds a time. -/
def Bar.stealInterval (b : Bar) (t : Nat) : Nat := t / (max 1 (b.rwN 0x2D10 1) * 4000)

def segIx (s : Nat) : Fin 8 := ⟨s % 8, by omega⟩

/-- How many elements a test of Table 15-3 has in a segment (0xFF: the hub): imaging ADCs, tiles, the segment, timer units. -/
def Bar.testUnits (b : Bar) (test seg : Nat) : Nat :=
  if decide (1 ≤ test) && decide (test ≤ 6) then
    if b.segs ≤ seg || !(b.cap.segs[segIx seg]).present then 0 else if test = 1 then 30720 else if test = 2 then 30 else 1
  else if seg ≠ 0xFF then 0 else if 7 ≤ test ∧ test ≤ 9 then 1 else if test = 10 then 16 else 0

/-- Tests of Table 15-3 that need test triggers in ADC slots or lines: 1 and 3 to 6. -/
def lineTests : List Nat := [1, 3, 4, 5, 6]

/-- The stolen lines that a test takes in a pass (Table 15-3). -/
def stolenLines (test : Nat) : Nat := match test with | 3 => 4 | 1 | 4 | 5 | 6 => 2 | _ => 0

/-- Tests that need lines and that the pass has not run on every element (R427, R428). -/
def Bar.openTests (b : Bar) : List Nat :=
  lineTests.filter fun test => (List.range b.segs).any fun seg =>
    (b.saf.ist.tested.countP fun (e : Nat × Nat × Nat) => e.1 = test && e.2.1 = seg) ≠ b.testUnits test seg

/-- The stolen lines that those tests still take, were no other source to serve them: at most 12 in a pass (R429). -/
def Bar.linesWanted (b : Bar) : Nat :=
  ((b.openTests.filter fun test => test ∉ b.saf.ist.linesFor).map stolenLines).foldl (· + ·) 0

/-- A line is to be stolen at a time: a test is due, and in the interval neither a line has been stolen nor have sources 1 to 3
served a test (R427, R428). -/
def Bar.stealDue (b : Bar) (t : Nat) : Bool :=
  let i := some (b.stealInterval t)
  b.saf.ist.lastSteal ≠ i && b.saf.ist.idleServed ≠ i && decide (b.saf.ist.stolenReady < b.linesWanted)

/-- Line n lies in neither the first nor the last P lines of an item frame, as far as the frame's end is known: a
stolen line may fall on it (R428). -/
def Bar.stealable (b : Bar) (n : Nat) : Bool :=
  let p := b.patLen b.par.live
  b.cap.items.all fun i => !i.matched || i.f.isSome || n < i.s ||
    (decide (i.s + p ≤ n) && decide (n + p < ([i.obs, i.nextS, i.cutAt].filterMap id).foldl min i.expEnd))

/-! ### Conversion slots (R55, R57) -/

/-- Slots of a line: the row conversions of the band that makes most (R55, R56). -/
def Bar.slotsOf (b : Bar) (st : Store) : Nat := ((List.range 4).map fun band => modeConversions (b.pN st 0x2201 (1 + band))).foldl max 0

/-- Slot s of the line whose next trigger came at t1 (R55). -/
def slotStart (t1 s : Nat) : Nat := t1 + 2000 * s

/-- LTRIG for line n + 2, issued at u, meets a slot of line n in progress. -/
def Bar.slotCut (b : Bar) (n u : Nat) : Bool :=
  match b.line? n, b.line? (n + 1) with
  | some l, some l1 => !l.dropped && !l1.dropped && decide (u < slotStart l1.t (b.slotsOf (b.setAt l.n)))
  | _, _ => false

def Bar.modSeg (b : Bar) (s : Fin 8) (f : SegStatus → SegStatus) : Bar := b.modCap fun c => { c with segs := vmod c.segs s f }

/-- ADC_OVERRUN of a segment's line: its samples are void and the diagnostic counts it (R57), once. -/
def Bar.adcOverrun (b : Bar) (s : Fin 8) (n : Nat) : Bar :=
  if (b.line? n).any fun l => bit l.adcOverrun s.val then b
  else
    let b := b.modCap fun c => { c with lineLog := c.lineLog.map fun (x : LineRec) => if x.n = n then { x with adcOverrun := setBit x.adcOverrun s.val } else x }
    (b.modSeg s fun x => { x with adcOvr := min 255 (x.adcOvr + 1), malformed := sat32 x.malformed }).logEvent 0x2023 0

/-- Every segment cuts the conversions of line n that LTRIG n + 2 meets. -/
def Bar.cutSlots (b : Bar) (n u : Nat) : Bar :=
  if b.slotCut n u then
    (List.range b.segs).foldl (fun b s => if (b.cap.segs[segIx s]).present then b.adcOverrun (segIx s) n else b) b
  else b

/-- Line n is triggered at u, or dropped (R26, R27, R104, R106). The spec does not say which time of a dropped line places it
in a millisecond for LINES_DROPPED: the model takes its request time, or the counter where that stands later (DESIGN
CHOICE, log entry 105). -/
def Bar.recordLine (b : Bar) (n r u : Nat) (dropped : Bool) (point : Option Frac) : Bar :=
  let st := b.par.live
  let p := b.patLen st
  let ppos := (n - b.cap.patAnchor) % p
  let ctx := b.patCtx st ppos
  let light := b.light st ctx b.cap.pstep
  let t := if dropped then b.cap.syn.issued.getD 0 else u
  let state := b.cap.syn.state
  let fast := match b.cap.lineLog.head? with | some l => decide (t ≤ l.t + 500000) | none => false
  let enc := b.usesEncoder
  let dr := enc && (state = .flywheel || (state = .position && fast))
  let us := enc && (state = .unsync || state = .overspeed)
  let due := b.saf.ist.claimed && b.stealDue t
  let stolen := due && !dropped && b.stealable n
  let period := match b.cap.lineLog.head? with | some l => t - l.t | none => 0
  let l : LineRec :=
    { n := n, t := t, tx := t + 100 + light.ek, pos := b.feedPos, grid := point, dropped := dropped, dr := dr, drLost := false
      us := us, usUnsync := enc && state = .unsync, dl := !dropped && decide (r < u), td := b.cap.tb.mode ≠ .pll, crawl := false
      ctx := ctx, ppos := ppos, trunc := false, gen := b.par.liveGen, pstep := b.cap.pstep, limited := light.limited, ist := stolen
      adcOverrun := 0, opLive := b.ecat.al = .op }
  let b := b.judgeCrawl t
  let b := if dropped || n < 2 then b else b.cutSlots (n - 2) u
  let b := { b with lines := n + 1 }
  let b := b.modCap fun c => { c with lineLog := l :: c.lineLog }
  let b := b.modSyn fun s =>
    { s with issued := if dropped then s.issued else some u
             delayed := if l.dl then sat32 s.delayed else s.delayed
             lastReq := r, ready := max s.ready r
             dropped := if dropped then sat32 s.dropped else s.dropped
             drLines := if dr then sat32 s.drLines else s.drLines
             usLines := if us then sat32 s.usLines else s.usLines }
  let b := if stolen then { b with saf := { b.saf with ist := { b.saf.ist with
      claimed := false, stolen := b.saf.ist.stolen + 1, stolenReady := b.saf.ist.stolenReady + 1, lastSteal := some (b.stealInterval t) } } }
    else if b.saf.ist.claimed && !due then { b with saf := { b.saf with ist := { b.saf.ist with claimed := false } } } else b
  let ms := (max r b.now) / 1000000
  let b := if dropped && b.cap.syn.dropMs ≠ some ms then (b.modSyn fun s => { s with dropMs := some ms }).logEvent 0x3036 n else b
  let b := (b.startsAt n).foldl (fun b ix => b.startItem ix) b
  let b := if dropped then b else b.noteWaits (.line u)
  let b := if enc then b else b.resolveLines
  if enc then b.afterLine fast dr period else b

/-- Everything that takes effect before line n: frames that have ended, thermal step, sets and the pattern. -/
def Bar.beforeLine (b : Bar) (n : Nat) : Bar :=
  let b := b.closeFrames
  let b := if 64 ≤ b.cap.syn.drRun then b.syncLost else b
  let b := (b.settlePStep n).settleApply n
  let sync := (b.startsAt n).any fun ix => match b.cap.items[ix]? with | some i => b.syncAnchor i.lane | none => false
  (if sync then b.movePattern n n else b).checkEncoders n

/-- A trigger's place on the grid the counter runs on: any nanosecond on the PLL, 40 ns off it (R84). DESIGN CHOICE (log 148): what
the grid puts a trigger off counts as delay, for DL and for the drop test; R84 and R104 do not say. -/
def Bar.onGrid (b : Bar) (u : Nat) : Nat := if b.cap.tb.mode = .pll then u else b.now + ceilDiv (u - b.now) 40 * 40

/-- A request with time r that reaches the enforcer at h (R104). -/
def Bar.enforce (b : Bar) (r h : Nat) : Bar :=
  let n := b.lines
  let b := b.beforeLine n
  let tl := b.tLmin b.par.live
  let u := b.onGrid (max (max r h) (match b.cap.syn.issued with | some t => t + tl | none => 0))
  let point := if b.usesEncoder then b.nextPoint else none
  let b := if b.usesEncoder then b.advanceGrid else b
  let b := (b.at (if u - r ≤ tl then u else h)).recordLine n r u (decide (tl < u - r)) point
  if b.usesEncoder then b.movePhase else b

/-- Does the synthesiser request its next trigger at time r? LOCKED: where the position estimate comes to the next grid
point, or at once if it has passed it (R94, R102). POSITION: as the count edges have placed it (R96). FLYWHEEL, UNSYNC and
OVERSPEED: one held period after the last request (R90, R101, R103). -/
def Bar.requestDue (b : Bar) (r : Nat) : Bool :=
  let s := b.cap.syn
  match s.state with
  | .stopped => false
  | .position => s.due.head? = some r
  | .locked => decide (s.ready ≤ r) && match b.nextPoint with
    | some q => q.le (b.estimate r) && (r = s.ready || !q.le (b.estimate (r - 1)))
    | none => false
  | _ => r = s.lastReq + b.heldPeriod && decide (0 < b.heldPeriod)

/-- A trigger request: of the synthesiser at time r, or what the other sources have due (R71, R72, R104). DESIGN CHOICE (log 173):
the trigger after a new free line rate goes live in a BURST follows one new period after the request of the line at the apply line. -/
def Bar.triggerRequest (b : Bar) (r : Nat) : Bar :=
  if !b.ecat.session then b
  else match b.rwN 0x2200 3 with
    | 0 => if b.requestDue r then (b.modSyn fun s => { s with due := s.due.drop 1 }).enforce r r else b
    | 1 =>
      match b.cap.syn.ext with
      | [] => b
      | (t, h) :: rest => (b.modSyn fun s => { s with ext := rest }).enforce t h
    | 2 =>
      match b.cap.syn.freeNext with
      | none => b
      | some t =>
        let period := b.freePeriod
        let b := (b.at t).enforce t t
        let applied := b.freePeriod ≠ period
        let from_ := if applied then (match b.cap.lineLog.head? with | some l => l.t | none => t) else t
        b.modSyn fun s => { s with freeNext := some (from_ + b.freePeriod) }
    | _ =>
      match b.cap.syn.freeNext with
      | none => b
      | some t =>
        if b.cap.syn.burstLeft = 0 then b
        else
          let b := (b.at t).enforce t t
          let left := b.cap.syn.burstLeft - 1
          let last := match b.cap.lineLog.head? with | some l => max t l.t | none => t
          b.modSyn fun s =>
            { s with burstLeft := left, freeNext := if left = 0 then none else some (t + b.freePeriod)
                     burstEnd := if left = 0 then some last else s.burstEnd }

/-- The event router hands a channel's event to its consumers (R370). -/
def Bar.eventRouted (b : Bar) (k : Fin 64) : Bar :=
  match (b.chan k).event with
  | none => b
  | some ev =>
    let b := b.modChan k fun c => { c with event := none }
    let edge : Edge := if ev.kind = .trailing then .falling else .rising
    let b := if b.ecat.session then
        (List.range 32).foldl (fun b l =>
          if b.laneOn l && b.liveN 0x2503 (l + 1) = k.val then
            b.modCap fun c => { c with cues := c.cues ++ [{ lane := l, edge := edge, isPulse := ev.kind = .pulse, time := ev.time, locked := b.cap.syn.state = .locked }] }
          else b) b
      else b
    let b := b.routeTrigger k.val ev.time
    if ev.kind ≠ .trailing && b.liveN 0x2605 1 = k.val then
      { b with nz := { b.nz with ladderCues := b.nz.ladderCues ++ [ev.time] } }
    else b

end Sys2Proof.Machine
end

