-- ==== Sys2Proof/Machine/SegLines.lean ====
section
/-! DEFINITION. A segment's line at the hub: malformed lines (R57, R162, R163) and the dark level (R141). -/

namespace Sys2Proof.Machine

/-- An entry of an association list set, in place where it stands. -/
def assocPut {κ α : Type} [DecidableEq κ] (l : List (κ × α)) (k : κ) (v : α) : List (κ × α) :=
  if l.any fun x => x.1 = k then l.map fun x => if x.1 = k then (k, v) else x else l ++ [(k, v)]

/-- Dark samples without the highest and the lowest quarter (R141). -/
def darkMiddle (xs : List Nat) : List Nat :=
  let quarter := xs.length / 4
  ((xs.mergeSort (· ≤ ·)).drop quarter).take (xs.length - 2 * quarter)

/-- The mean of the middle half of dark samples, rounded towards minus infinity (R141). -/
def darkMean (xs : List Nat) : Int :=
  let mid := darkMiddle xs
  if mid = [] then 0 else (mid.sum / mid.length : Nat)

/-- The interquartile spread of dark samples. DEDUCED (log 135): the middle half that R141 keeps spans it. -/
def darkSpread (xs : List Nat) : Nat := (darkMiddle xs).foldl max 0 - (darkMiddle xs).headD 0

/-- The linearised samples of a tile's dark ADCs. -/
def Bar.darkSamples (b : Bar) (st : Store) (seg k : Nat) (codes : List Nat) : List Nat :=
  codes.map fun c => b.table (b.pN st (0x2410 + k) 1) seg 4 c

/-- D of a tile and context after its samples of a line. A tile that its context's first line does not convert begins with its own
first converted line (DESIGN CHOICE, log 178: R141 speaks of the context's first line only). -/
def Bar.darkNext (b : Bar) (st : Store) (seg tile k : Nat) (codes : List Nat) : Int :=
  let x := darkMean (b.darkSamples st seg k codes)
  match b.cap.darkLevel.find? fun e => e.1 = (seg, tile, k) with
  | some (_, d) => d + (x - d) / (2 ^ b.pN st 0x2400 1 : Nat)
  | none => x

/-- The dark-row check of a converted tile's line (test 2 of Table 15-3): 16 lines in a row outside its limits fail. -/
def Bar.darkCheck (b : Bar) (seg tile : Nat) (v : Int) (spread : Nat) : Bar :=
  let x := v - b.pedestal
  let fits := decide (b.rwI 0x2D10 7 ≤ x) && decide (x ≤ b.rwN 0x2D10 8) && decide (spread ≤ b.rwN 0x2D10 9)
  let (run, bad) := match b.saf.ist.darkRuns.find? fun e => e.1 = (seg, tile) with | some (_, r) => r | none => (0, false)
  let run := if fits then 0 else min 16 (run + 1)
  { b with saf := { b.saf with ist := { b.saf.ist with
    darkRuns := assocPut b.saf.ist.darkRuns (seg, tile) (run, bad || decide (15 < run)) } } }

/-- The dark filters after a line of a segment. -/
def Bar.darkLine (b : Bar) (l : LineRec) (seg : Nat) (ds : List (Nat × List Nat)) : Bar :=
  ds.foldl (fun b d => if d.2 = [] then b
    else
      let v := b.darkNext (b.setAt l.n) seg d.1 l.ctx d.2
      (b.modCap fun c => { c with darkLevel := assocPut c.darkLevel (seg, d.1, l.ctx) v }).darkCheck seg d.1 v
        (darkSpread (b.darkSamples (b.setAt l.n) seg l.ctx d.2))) b

/-- The dark levels of a segment's tiles in a context. -/
def Bar.darksOf (b : Bar) (seg k : Nat) : List (Nat × Int) :=
  b.cap.darkLevel.filterMap fun e => if e.1.1 = seg && e.1.2.2 = k then some (e.1.2.1, e.2) else none

/-- A malformed line counts, and the Safety Net engages at the limits of R163. -/
def Bar.countMalformed (b : Bar) (s : Fin 8) (n : Nat) : Bar :=
  let frame := n / 4096
  let b := b.modSeg s fun x =>
    { x with malformed := sat32 x.malformed, runBad := x.runBad + 1, frameNo := frame
             frameBad := if x.frameNo = frame then x.frameBad + 1 else 1 }
  let b := b.modCap fun c => { c with lastMalformed := n }
  let b := b.modCauses fun c => { c with lineSegs := c.lineSegs.map fun e => if e.1 = s.val then (e.1, 0) else e }
  if (b.cap.segs[s]).runBad = 4 || (b.cap.segs[s]).frameBad = 33 then
    (b.engage 0x4022 fun c => { c with lineSegs := assocPut c.lineSegs s.val 0 }).logEvent 0x4022 0
  else b

/-- A line that is not malformed ends the run; 4,096 of them clear the cause (Table 15-2). -/
def Bar.countWell (b : Bar) (s : Fin 8) : Bar :=
  let b := b.modSeg s fun x => { x with runBad := 0 }
  if b.saf.sn.causes.lineSegs.any fun e => e.1 = s.val then
    b.clearCause fun c => { c with lineSegs := (c.lineSegs.map fun e => if e.1 = s.val then (e.1, e.2 + 1) else e).filter fun e => decide (e.2 < 4096) }
  else b

/-! ### The words of a line (R17, R18, R162) -/

/-- Place of a word type in the order of R18. -/
def wordRank : UpType → Nat
  | .idle => 0 | .status => 0 | .candidates => 1 | .seam => 2 | .coded => 3 | .sideband => 3 | .streak => 4 | .pixels => 5

/-- Words of a type in a line; those without LVALID are padding, but in a void line none has it. -/
def wordsOf (words : List WordRun) (void : Bool) (ty : UpType) : Nat :=
  ((words.filter fun w => upType w.wtype = ty && (w.lvalid || void)).map (·.count)).sum

/-- Numbers that do not fall. -/
def nonFalling : List Nat → Bool
  | x :: y :: rest => decide (x ≤ y) && nonFalling (y :: rest)
  | _ => true

/-- The runs that carry words of the line. -/
def lineRuns (words : List WordRun) : List WordRun := words.filter fun w => upType w.wtype ≠ .idle && decide (0 < w.count)

/-- The order of R18 holds, and LSTART marks the first word alone. -/
def inOrder (words : List WordRun) : Bool :=
  nonFalling ((lineRuns words).map fun w => wordRank (upType w.wtype)) &&
    match lineRuns words with
    | [] => false
    | w :: rest => w.lstart && rest.all fun w => !w.lstart

/-- How many words of a type the set live at a line's trigger implies (R162): those of Table 10-10, which gives SBF blocks and
sideband one number; how it divides is a FREE VALUE (log 49). -/
def Bar.expectedWords (b : Bar) (l : LineRec) (seg : Nat) (ty : UpType) : Nat :=
  let st := b.setAt l.n
  let w := b.upWordsOf st (b.admLanes st) seg
  let coded := min w.sbf (Config.codedWords st seg)
  match ty with
  | .idle => 0 | .status => w.status | .candidates => w.candidates | .seam => w.seam | .streak => w.streak | .pixels => w.pixels
  | .coded => coded | .sideband => w.sbf - coded

/-- What a segment's words show against what is expected of the line. -/
structure WordCheck where
  short : Bool                      -- words that carry pixels, blocks, seam columns or the status are missing, or out of order
  streak : Bool                     -- defect candidates or streak words are missing
  coded : Bool                      -- coded words are missing or a block has the wrong length
  excess : Bool                     -- words beyond the expected count
  deriving DecidableEq, Repr

def Bar.checkWords (b : Bar) (l : LineRec) (seg : Nat) (x : SegLine) : WordCheck :=
  let lacks (ty : UpType) : Bool := decide (wordsOf x.words l.us ty < b.expectedWords l seg ty)
  let coded := lacks .coded || x.badBlock
  { short := lacks .pixels || coded || lacks .sideband || lacks .seam || lacks .status || x.early || !inOrder x.words
    streak := lacks .candidates || lacks .streak
    coded := coded
    excess := [UpType.pixels, .coded, .sideband, .candidates, .streak, .seam, .status].any fun ty =>
      decide (b.expectedWords l seg ty < wordsOf x.words l.us ty) }

/-! ### Conversions and dark samples of a line (R54 to R56, R58, R68) -/

/-- The codes of a line that the command shows: the rows the set converts, in the tiles the segment converts. A signal stands on the electrical
pedestal of 32 e⁻ (R54). -/
def Bar.conversions (b : Bar) (l : LineRec) (seg : Nat) (rows : List RowSignal) : List Conv :=
  rows.flatMap fun r =>
    match b.rowSlot (b.setAt l.n) r.band r.row l.ppos with
    | none => []
    | some slot => (List.range 30).filterMap fun tile =>
      let from_ := max r.first (tile * 256)
      let to_ := min (r.first + r.signals.length) (tile * 256 + 256)
      if decide (from_ < to_) && b.tileConverted l seg tile then
        some ⟨r.band, r.row, slot, from_, ((r.signals.drop (from_ - r.first)).take (to_ - from_)).map fun q => adcCode (q + 32).toNat⟩
      else none

/-- How many dark pixels each dark ADC of a tile has converted before a line of the session: one in every slot of every
line in which the tile was converted. -/
def Bar.darkTurn (b : Bar) (l : LineRec) (seg tile : Nat) : Nat :=
  ((b.cap.lineLog.filter fun x => decide (x.n < l.n) && !x.dropped && b.tileConverted x seg tile).map fun x => b.slotsOf (b.setAt x.n)).sum

/-- The dark samples of a tile in a line (R56): from both rows, in each slot, each of 8 dark ADCs converts the next of its
32 pixels. A pixel whose signal the command does not carry, as in a line of which nothing has arrived, has a free one. -/
def Bar.darkCodes (b : Bar) (l : LineRec) (seg tile : Nat) (dark0 dark1 : List Int) : List Nat :=
  let turn := b.cap.darkStart + b.darkTurn l seg tile
  [(dark0, 0), (dark1, 7680)].flatMap fun row => (List.range (b.slotsOf (b.setAt l.n))).flatMap fun slot => (List.range 8).map fun a =>
    let i := tile * 256 + a * 32 + (turn + slot) % 32
    adcCode ((row.1[i]?).getD (Config.unseenDark l.n seg (row.2 + i)) + 32).toNat

/-- The dark samples of every converted tile. -/
def Bar.darkTiles (b : Bar) (l : LineRec) (seg : Nat) (x : SegLine) : List (Nat × List Nat) :=
  ((List.range 30).filter fun t => b.tileConverted l seg t).map fun t => (t, b.darkCodes l seg t x.dark0 x.dark1)

/-! ### A line is taken -/

/-- A segment's line n is taken, complete or as it stands (`late`: LTRIG for line n + 16 has been issued, or the segment has
gone on to a later line). The hub handles words out of order as missing ones (DEDUCED, log 49). D is formed in the segment, from
every tile it converts, whatever arrives (R141). -/
def Bar.takeSegLine (b : Bar) (s : Fin 8) (n : Nat) (x : SegLine) (late : Bool) : Bar :=
  match b.line? n with
  | none => b
  | some l =>
    if l.dropped then b
    else
    let w := b.checkWords l s.val x
    let short := w.short || late || decide (n + 16 < b.lines)
    let bad := short || w.streak || w.excess
    let convs := b.conversions l s.val x.rows
    let b := b.darkLine l s.val (b.darkTiles l s.val x)
    let b := b.modCap fun c => { c with segLog :=
      { seg := s.val, n := n, convs := convs, darks := b.darksOf s.val l.ctx, malformed := bad, voided := short
        streakVoid := w.streak || short, filled := w.coded || late || decide (n + 16 < b.lines), ltf := l.ltf, faults := x.sbfFaults, held := b.now } :: c.segLog }
    let b := if x.adcOverrun then b.adcOverrun s n else b
    let b := b.modSeg s fun y => { y with reserved := min 0xFFFFFFFF (y.reserved + (x.reserved.filter fun d => downType d = .reserved).length) }
    let b := if short || w.streak then b.logEvent 0x4020 (s.val * 2 ^ 56 + n) else b
    let b := if w.excess then b.logEvent 0x4021 (s.val * 2 ^ 56 + n) else b
    let b := if bad then b.countMalformed s n else b.countWell s
    let b := b.sbfFaults x.sbfFaults.length
    b.advanceStreams (b.lines - b.cap.outLine)

/-- A line of which nothing has arrived; its tiles were converted all the same (R141). -/
def nothingArrived : SegLine :=
  { words := [], early := false, badBlock := false, rows := [], dark0 := [], dark1 := [], adcOverrun := false, reserved := [], sbfFaults := [] }

/-- Earlier lines of which a segment has sent nothing, oldest first. -/
def Bar.missedLines (b : Bar) (s : Fin 8) (n : Nat) : List Nat :=
  ((b.cap.lineLog.filter fun l => decide (l.n < n) && !l.dropped && (b.segRec? s.val l.n).isNone).map (·.n)).reverse

/-- The hub takes a segment's line (R162): one that has been triggered and not taken yet. A line's words are complete before
the next line's LSTART (R18): earlier lines that have not come by then are short (DEDUCED, log 49). -/
def Bar.segmentLine (b : Bar) (s : Fin 8) (n : Nat) (x : SegLine) : Bar :=
  if (b.segRec? s.val n).isSome || !(b.cap.segs[s]).present || b.cap.ended || (b.line? n).isNone then b
  else ((b.missedLines s n).foldl (fun b m => b.takeSegLine s m nothingArrived true) b).takeSegLine s n x false

/-- A segment's line is not complete when LTRIG for line n + 16 has been issued (R162); none of a segment that is not PRESENT ever
is. -/
def Bar.segmentLineTimeout (b : Bar) (s : Fin 8) (n : Nat) (x : SegLine) : Bar :=
  if (b.segRec? s.val n).isSome || b.cap.ended || b.lines ≤ n + 16 || (b.line? n).isNone then b
  else ((b.missedLines s n).foldl (fun b m => b.takeSegLine s m nothingArrived true) b).takeSegLine s n x true

end Sys2Proof.Machine
end

