-- ==== Sys2Proof/Machine/Supervise.lean ====
section
/-! DEFINITION. The Ringmaster (chapter 15): release of the Safety Net, watchdog, in-service test, the failures of Table
15-2, the retained record and the safety objects. -/

namespace Sys2Proof.Machine

def Bar.modSaf (b : Bar) (f : Safety → Safety) : Bar := { b with saf := f b.saf }
def Bar.modIst (b : Bar) (f : Ist → Ist) : Bar := b.modSaf fun s => { s with ist := f s.ist }
def Bar.modWdg (b : Bar) (f : Watchdog → Watchdog) : Bar := b.modSaf fun s => { s with wdg := f s.wdg }
def Bar.modRet (b : Bar) (f : Retained → Retained) : Bar := b.modSaf fun s => { s with ret := f s.ret }
def Bar.modEcat (b : Bar) (f : Ecat → Ecat) : Bar := { b with ecat := f b.ecat }

/-! ### Release (R425, R426) -/

/-- A coverage pass that started after the last cause cleared has completed with every test passed. -/
def Bar.passedSince (b : Bar) : Bool :=
  match b.saf.ist.cleanPass with
  | some t => decide (b.saf.sn.lastClear ≤ t)
  | none => false

/-- A request to release the Safety Net: released, with effect at the sampling time of its cycle, or refused with the causes and the wait for a pass in ARG. -/
def Bar.requestRelease (b : Bar) : Bar :=
  if !b.saf.sn.engaged then b
  else
    let active := b.saf.sn.causes.bits
    if active = 0 && b.passedSince && (b.ecat.al = .safeop || b.ecat.al = .op) then
      (b.modSn fun s => { s with engaged := false, since := 0, lastRelease := b.ecat.sampleTime }).logWith 0xD021 0 1 false true
    else b.logEvent 0xD022 (active + b2n (!b.passedSince) * 65536)

/-- The release request of the sampled RxPDO is taken. -/
def Bar.snRelease (b : Bar) : Bar :=
  if b.ecat.releasePend then (b.modEcat fun e => { e with releasePend := false }).requestRelease else b

/-! ### The retained record (R439, R440) -/

def sat16 (x : Nat) : Nat := min 0xFFFF (x + 1)

/-- A cause is recorded. -/
def Bar.recordCause (b : Bar) (code : Nat) : Bar :=
  let line := if b.ecat.session then b.liveLine else 0
  let b := b.modRet fun r => { r with running := false, lastCause := code, lastSn := b.saf.sn.since, lastBoot := r.boots
                                      lastTime := b.now, lastLine := line }
  match code with
  | 0xD029 | 0xD02D => b.modRet fun r => { r with wdgResets := sat16 r.wdgResets }
  | 0xD02E => b.modRet fun r => { r with brownOuts := sat16 r.brownOuts }
  | 0xD02F => b.modRet fun r => { r with powerLosses := sat16 r.powerLosses }
  | 0xC027 => b.modRet fun r => { r with thermal := sat16 r.thermal }
  | _ => b

/-- The record as it is read (Table 15-5). -/
def Retained.bytes (r : Retained) : List Byte :=
  leBytes 4 r.boots ++ leBytes 4 (if r.running then 0x52554E21 else 0) ++ leBytes 2 r.wdgResets ++ leBytes 2 r.thermal
    ++ leBytes 2 r.brownOuts ++ leBytes 2 r.powerLosses ++ leBytes 4 r.snEntries ++ zeros 4 ++ leBytes 2 r.lastCause
    ++ leBytes 2 r.lastSn ++ leBytes 4 r.lastBoot ++ leBytes 8 r.lastTime ++ leBytes 8 r.lastLine ++ zeros 16

/-- The first line that is in no block row of CODING: of a box that is still open, or whose output is incomplete. -/
def Bar.firstUncoded (b : Bar) : Nat :=
  if b.ecat.session then (b.cap.boxes.filter (·.1.1 = 2)).foldl (fun m x => min m (x.2.headD m)) b.cap.outLine else b.lines

/-- Sealing starts (Table 9-7): the coders end their rows, and the first line without a row is the first one lost. -/
def Bar.startSealing (b : Bar) : Bar := b.endRows.sealStart b.firstUncoded

/-- A reset of R437 is decided: the cause is logged and recorded, FAULT_N falls, and storage starts sealing. -/
def Bar.decideReset (b : Bar) (code : Nat) : Bar :=
  if b.saf.resetAt.isSome then b
  else (((b.logEvent code 0).recordCause code).modSaf fun s => { s with resetAt := some (b.now, code) }).startSealing

/-! ### Watchdog (R433 to R438) -/

/-- The settings in the objects now. -/
def Bar.wdgSettings (b : Bar) : WdgSettings :=
  ⟨b.rwN 0x2D01 1 * 1000000, b.rwN 0x2D01 2, b.rwN 0x2D01 3, b.rwN 0x2D01 4, b.rwN 0x2D01 5⟩

/-- T_0: PRE-OP is reached for the first time after reset. -/
def Bar.startWatchdog (b : Bar) : Bar :=
  if b.saf.wdg.started then b
  else b.modWdg fun w =>
    { w with started := true, k := 0, tk := b.now, inForce := b.wdgSettings
             slots := Vector.ofFn fun (i : Fin 8) => { (w.slots[i] : WdgSlot) with supervised := decide (i.val < 6), times := [] } }

/-- The window of a slot in the running period. -/
def Watchdog.window (w : Watchdog) (i : Fin 8) : Nat × Nat :=
  if i.val < 6 then (w.tk + w.inForce.fo, w.tk + w.inForce.fc) else (w.tk + w.inForce.ho, w.tk + w.inForce.hc)

/-- What is wrong with check-ins of a period: 0 none at all, 1 early, 2 late, 3 two of them; none where all is well. -/
def judgeCheckins (window : Nat × Nat) (times : List Nat) : Option Nat :=
  match times with
  | [] => some 0
  | [t] => if t < window.1 then some 1 else if window.2 ≤ t then some 2 else none
  | _ => some 3

/-- The detail code of a miss. -/
def missCode (kind : Nat) : Nat := match kind with | 0 => 0xD023 | 1 => 0xD024 | 2 => 0xD025 | _ => 0xD026

def Watchdog.nextStart (w : Watchdog) : Nat := w.tk + w.inForce.period

/-- A check-in of a slot: an early, late or second one of a supervised slot is logged as it comes. -/
def Bar.checkIn (b : Bar) (i : Fin 8) (t : Nat) : Bar :=
  let w := b.saf.wdg
  if !w.started || t < w.tk then b
  else
    let times := (w.slots[i]).times ++ [t]
    let b := b.modWdg fun w => { w with slots := vmod w.slots i fun s => { s with times := times } }
    if (w.slots[i]).supervised && decide (t < w.nextStart) then
      match judgeCheckins (w.window i) times with
      | some kind => b.logEvent (missCode kind) i.val
      | none => b
    else b

/-- The host's check-in of slot 6 or 7 that the sampled cycle brought (R344, R434). -/
def Bar.hostCheckin (b : Bar) (seven : Bool) : Bar :=
  if if seven then b.ecat.checkin7 else b.ecat.checkin6 then
    let t := b.ecat.sampleTime
    if seven then (b.modEcat fun e => { e with checkin7 := false, checkins7 := (e.checkins7 + 1) % 2 ^ 32 }).checkIn 7 t
    else (b.modEcat fun e => { e with checkin6 := false, checkins6 := (e.checkins6 + 1) % 2 ^ 32 }).checkIn 6 t
  else b

/-- The check-ins of the running period. -/
def Watchdog.periodTimes (w : Watchdog) (i : Fin 8) : List Nat := (w.slots[i]).times.filter fun t => decide (t < w.nextStart)

def Watchdog.verdict (w : Watchdog) (i : Fin 8) : Option Nat := judgeCheckins (w.window i) (w.periodTimes i)

/-- A slot after the close of the running period; `sup` says whether it is supervised in the next. -/
def Watchdog.closeSlot (w : Watchdog) (sup : Bool) (i : Fin 8) : WdgSlot :=
  let s := w.slots[i]
  let v := w.verdict i
  let missed := s.supervised && v.isSome
  { times := s.times.filter fun t => decide (w.nextStart ≤ t), supervised := if i.val < 6 then true else sup
    passed := v.isNone, lastFault := if missed then v.getD 0 else s.lastFault
    clean := if v.isNone then min 255 (s.clean + 1) else 0, misses := if missed then sat16 s.misses else s.misses }

/-- Slots supervised in the running period that missed it. -/
def Watchdog.missed (w : Watchdog) : List (Fin 8) :=
  (List.finRange 8).filter fun i => (w.slots[i]).supervised && (w.verdict i).isSome

/-- The firmware slots at the close of a period (R435). -/
def Bar.closeFirmware (b : Bar) (w : Watchdog) : Bar :=
  match w.missed.find? fun i => decide (i.val < 6) with
  | some i =>
    if w.fwMissed then b.decideReset 0xD029
    else (b.modWdg fun w => { w with fwMissed := true }).engage (missCode ((w.verdict i).getD 0)) fun c => { c with fw := true }
  | none => (b.modWdg fun w => { w with fwMissed := false }).clearCause fun c => { c with fw := false }

/-- The host slots at the close of a period (R436). -/
def Bar.closeHost (b : Bar) (w : Watchdog) : Bar :=
  if w.missed.any fun i => decide (6 ≤ i.val) then
    ((b.modWdg fun w => { w with hostLost := true, hostClean := 0 }).engage 0xD027 fun c => { c with host := true }).logEvent 0xD027 0
  else if (w.verdict 6).isNone && (w.verdict 7).isNone then
    let n := w.hostClean + 1
    if w.hostLost && decide (2 ≤ n) then
      (((b.modWdg fun w => { w with hostLost := false, hostClean := n }).clearCause fun c => { c with host := false })).logEvent 0xD028 0
    else b.modWdg fun w => { w with hostClean := n }
  else b.modWdg fun w => { w with hostClean := 0 }

/-- A host check-in that the sampled cycle brought before the period's end, and that has not been taken, belongs to it. -/
def Bar.hostBefore (b : Bar) : Bar :=
  if decide (b.ecat.sampleTime < b.saf.wdg.nextStart) then (b.hostCheckin false).hostCheckin true else b

/-- Check-ins that came for the period that begins are judged in it. -/
def Bar.judgeCarried (b : Bar) (i : Fin 8) : Bar :=
  let w := b.saf.wdg
  let times := (w.slots[i]).times
  if !(w.slots[i]).supervised then b
  else (List.range times.length).foldl (fun b n =>
    if decide (times.getD n 0 < w.nextStart) then
      match judgeCheckins (w.window i) (times.take (n + 1)) with
      | some kind => b.logEvent (missCode kind) i.val
      | none => b
    else b) b

/-- The Ringmaster closes the running period once it is over (R433, R434). -/
def Bar.periodClose (b : Bar) : Bar :=
  let b := if b.saf.wdg.started && decide (b.saf.wdg.nextStart ≤ b.now) && b.saf.resetAt.isNone then b.hostBefore else b
  let w := b.saf.wdg
  if !w.started || b.now < w.nextStart || b.saf.resetAt.isSome then b
  else
    let next := w.nextStart
    let sup := b.ecat.session && match w.hostFrom with | some t => decide (t < next) | none => false
    let b := w.missed.foldl (fun b i => if w.verdict i = some 0 then b.logEvent 0xD023 i.val else b) b
    let b := b.modWdg fun w => { w with k := w.k + 1, tk := next, inForce := b.wdgSettings, slots := Vector.ofFn (w.closeSlot sup) }
    let b := (List.finRange 8).foldl (fun b i => b.judgeCarried i) b
    (b.closeHost w).closeFirmware w

/-- Window settings fit R438. -/
def WdgSettings.valid (s : WdgSettings) : Bool :=
  decide (s.fo < s.fc) && decide (s.fc ≤ s.period) && decide (1000000 ≤ s.fc - s.fo) && decide (s.ho < s.hc) && decide (s.hc ≤ s.period)

/-- The status word of a slot (Table 15-7). -/
def Bar.slotStatus (b : Bar) (i : Fin 8) : Nat :=
  let s := b.saf.wdg.slots[i]
  b2n s.supervised + b2n s.passed * 2 + s.lastFault * 4 + b2n (!(b.saf.wdg.periodTimes i).isEmpty) * 16 + s.clean * 256 + s.misses * 65536

/-! ### In-service test (R427 to R432) -/

/-- An element as 0x2D10:04 shows it. -/
def elementWord (test seg unit_ : Nat) : Nat := test % 256 + seg % 256 * 256 + unit_ % 65536 * 65536

/-- Every test of Table 15-3 has been run in the present pass on every element present (R429). -/
def Bar.covered (b : Bar) : Bool :=
  (List.range 11).all fun test => (List.range b.segs ++ [0xFF]).all fun seg =>
    (b.saf.ist.tested.countP fun (e : Nat × Nat × Nat) => e.1 = test && e.2.1 = seg) = b.testUnits test seg

/-- The idle source that a test takes, the first of R427's that there is: 1 no session; 2 slots left in the line period after
the row mode's conversions, or tiles that are not converted; 3 the columns of a lane without an open frame; 4 stolen lines, as
many as Table 15-3 gives the test. -/
def Bar.testSource (b : Bar) (test : Nat) : Option Nat :=
  let st := b.par.live
  let slotsLeft := match b.cap.lineLog with
    | l :: m :: _ => decide (2000 * (b.slotsOf st + 1) ≤ l.t - m.t)
    | _ => false
  let tilesLeft := match b.cap.lineLog.head? with
    | some l => (List.range b.segs).any fun seg => (List.range 30).any fun t => !b.tileConverted l seg t
    | none => false
  let gap := b.cap.lineLog ≠ [] && (List.finRange 32).any fun l =>
    bit (b.pN st 0x2502 0) l.val && !b.cap.items.any fun i => i.lane = l && i.started && i.f.isNone
  if !b.ecat.session then some 1 else if slotsLeft || tilesLeft then some 2 else if gap then some 3
  else if test ∈ b.saf.ist.linesFor ∨ stolenLines test ≤ b.saf.ist.stolenReady then some 4 else none

/-- A test that needs lines is due and sources 1 to 3 have not served one in the interval: the next line that may be stolen is
claimed, at most one per interval (R427, R428). -/
def Bar.stolenLine (b : Bar) : Bar :=
  if b.ecat.session && !b.saf.ist.claimed && b.stealDue b.now then b.modIst fun x => { x with claimed := true } else b

/-- A test takes its idle time: a test that needs lines marks the interval served, or takes the stolen lines of Table 15-3, once
in a pass for all its elements: a stolen line claims every tile of every segment (R428, R429). -/
def Bar.serveTest (b : Bar) (test : Nat) : Bar :=
  if test ∉ lineTests then b
  else b.modIst fun x => match b.testSource test with
    | some 4 => if test ∈ x.linesFor then x else { x with stolenReady := x.stolenReady - stolenLines test, linesFor := x.linesFor ++ [test] }
    | _ => { x with idleServed := some (b.stealInterval b.now) }

/-- The segment's tile has kept to the dark limits since its last test. -/
def Bar.darkFits (b : Bar) (seg tile : Nat) : Bool :=
  !(b.saf.ist.darkRuns.any fun e => e.1 = (seg, tile) && e.2.2)

/-- Does a test pass? (Table 15-3) -/
def Bar.testPasses (b : Bar) (test seg unit_ : Nat) (r : TestReading) : Bool :=
  let within (tol : Nat) : Bool := r.got.length = r.want.length && (r.got.zip r.want).all fun p => decide ((p.1 - p.2).natAbs ≤ tol)
  match test with
  | 1 => r.want.length = 2 && within (b.rwN 0x2D10 0x0A)
  | 2 => b.darkFits seg unit_
  | 5 => decide (r.got = r.want) && decide (r.faults ≤ 1)
  | 10 => within 1
  | _ => decide (r.got = r.want)

/-- A test of an element has passed: three passes in a row clear its failure (Table 15-2). -/
def Bar.testPassed (b : Bar) (key : Nat × Nat × Nat) (again : Bool) : Bar :=
  let b := b.modIst fun x => { x with passed := assocPut x.passed key b.liveLine }
  if again then b
  else b.clearCause fun c =>
    { c with istFails := (c.istFails.map fun e => if e.1 = key then (e.1, e.2 + 1) else e).filter fun e => decide (e.2 < 3) }

/-- A test of an element ends (R429, R430); of an element that is not present nothing is tested, nor without idle time or a
stolen line for a test that needs one (R427). Test 2 also sets DARK_OK of
its segment (Table 2-7). A second run within a pass counts no further pass. -/
def Bar.serviceTest (b : Bar) (test seg unit_ : Nat) (r : TestReading) : Bar :=
  let key := (test, seg, unit_)
  let pass := b.testPasses test seg unit_ r
  let again := decide (key ∈ b.saf.ist.tested)
  if b.testUnits test seg ≤ unit_ || (test ∈ lineTests && (b.testSource test).isNone) then b else
  let b := b.serveTest test
  let b := if test = 2 then b.modSeg (segIx seg) fun s => { s with darkOk := pass } else b
  let b := b.modIst fun x =>
    { x with tested := if again then x.tested else x.tested ++ [key]
             darkRuns := if test = 2 then x.darkRuns.map fun e => if e.1 = (seg, unit_) then (e.1, e.2.1, false) else e else x.darkRuns }
  if pass then b.testPassed key again
  else
    let back := match b.saf.ist.passed.find? fun e => e.1 = key with | some (_, n) => n | none => 0
    let w := elementWord test seg unit_
    let b := b.modIst fun x => { x with lastFail := w, lookback := back, passClean := false }
    (b.engage 0xD031 fun c => { c with istFails := assocPut c.istFails key 0 }).logEvent 0xD031 (w * 2 ^ 32 + back % 2 ^ 32)

/-- A coverage pass completes once all of it has been run, and the next one starts (R429, R431). Stolen lines that its tests did
not use lapse (DESIGN CHOICE, log 143). -/
def Bar.passEnd (b : Bar) : Bar :=
  if !b.covered then b else
  let d := b.now - b.saf.ist.passStart
  let first := !b.saf.ist.done
  let told := b.saf.ist.overrun
  let b := b.modIst fun x =>
    { x with lastDuration := d / 1000, passes := sat32 x.passes, done := true, overrun := false, passClean := true, passStart := b.now
             tested := [], stolenReady := 0, linesFor := [], cleanPass := if x.passClean then some x.passStart else x.cleanPass }
  let b := if first then b.logEvent 0xD032 0 else b
  let b := if 1000000000 < d && !told then b.logEvent 0xD033 0 else b
  if 2000000000 < d then (if told then b else b.engage 0xD033 fun c => { c with istOverrun := true })
  else if 1000000000 < d then b
  else b.clearCause fun c => { c with istOverrun := false }

/-- The running pass has taken longer than 2 s (R431): longer than 1 s, which is logged, too. -/
def Bar.passOverrun (b : Bar) : Bar :=
  if b.saf.ist.overrun || b.now ≤ b.saf.ist.passStart + 2000000000 then b
  else ((b.modIst fun x => { x with overrun := true }).logEvent 0xD033 0).engage 0xD033 fun c => { c with istOverrun := true }

/-! ### Other mechanisms of Table 15-2 -/

/-- A stage makes no progress while GUARANTEED work waits; its cause stands from now on. -/
def Bar.stageStall (b : Bar) (seg cls : Nat) : Bar :=
  (b.engage 0xD02A fun c => { c with stall := assocPut c.stall (seg, cls) b.now }).logEvent 0xD02A (cls * 256 + seg)

/-- The regions that Table 15-2 protects: read-ahead, item workspace, port buffers, merge line stores. -/
def regionProtected (region : Nat) : Bool := region = 3 || region = 4 || region = 5 || region = 7

/-- ECC finds an uncorrectable word at an address of a region: in a protected one the Safety Net engages (Table 15-2); elsewhere
its owner's code is logged (R432). An address past the region's end is none of its (R16). -/
def Bar.dramUncorrectable (b : Bar) (region : Fin 8) (addr : Nat) : Bar :=
  if regionBytes region.val ≤ addr then b
  else if !regionProtected region.val then b.logEvent (Config.scrubCode region.val) (region.val * 2 ^ 56 + addr)
  else (b.engage 0xD02B fun c => { c with dram := if region.val ∈ c.dram then c.dram else c.dram ++ [region.val] }).logEvent 0xD02B
    (region.val * 2 ^ 56 + addr % 2 ^ 56)

/-- A full scrub of DRAM: uncorrectable words of a protected region engage; a region without any clears its cause. What it
corrects is written back: State holds the values without their errors. -/
def Bar.dramScrub (b : Bar) (found : List (Fin 8 × Nat)) : Bar :=
  let b := b.modIst fun x => { x with dramScrubs := x.dramScrubs + 1 }
  let b := b.clearCause fun c => { c with dram := c.dram.filter fun r => found.any fun f => f.1.val = r && decide (f.2 < regionBytes r) }
  found.foldl (fun b f => b.dramUncorrectable f.1 f.2) b

/-- MRAM has been scrubbed: what it corrects is written back, and State holds the values without their errors; an uncorrectable
word, by region of Table 16-5 and address in it, is logged with its owner's code (R432). -/
def Bar.mramScrub (b : Bar) (lost : List (Fin 13 × Nat)) : Bar :=
  lost.foldl (fun b w => b.logEvent (Config.scrubCode (16 + w.1.val)) (w.1.val * 2 ^ 56 + w.2 % 2 ^ 56))
    (b.modIst fun x => { x with mramScrubs := x.mramScrubs + 1 })

/-- The cores of the Ringmaster disagree: the Safety Net engages until reset. -/
def Bar.lockstepMismatch (b : Bar) : Bar := (b.engage 0xD02C fun c => { c with lockstep := true }).logEvent 0xD02C 0

/-- The request of FAULT_N (R424) after a command, and when it changed. -/
def Bar.noteFault (b : Bar) : Bar :=
  if b.faultHigh = b.saf.faultWas then b else b.modSaf fun s => { s with faultWas := b.faultHigh, faultAt := b.now }

/-- The level of FAULT_N and how long it has stood, in ns: if it has differed from its request for 2 µs, the bar resets (R421). -/
def Bar.faultReadback (b : Bar) (level : Bool) (held : Nat) : Bar :=
  if level = b.faultHigh || decide (held < 2000) || decide (b.now < b.saf.faultAt + 2000) then b else (b.modSaf fun s => { s with faultMismatch := true }).decideReset 0xD02D

/-- The timed conditions of Table 15-2 that clear a cause. -/
def Bar.causeClears (b : Bar) : ClearCause → Bar
  | .spool => if b.saf.sn.lastUntimely + 1000000000 ≤ b.now then b.clearCause fun c => { c with spool := false } else b
  | .late => if b.saf.sn.lastLate + 1000000000 ≤ b.now then b.clearCause fun c => { c with late := false } else b
  | .stage seg cls since =>
    if since + 100000000 ≤ b.now then
      b.clearCause fun c => { c with stall := c.stall.filter fun e => !(e.1 = (seg, cls) && decide (e.2 ≤ since)) }
    else b

/-! ### Safety objects -/

/-- The safety configuration signature (R442). -/
def Bar.safetySignature (b : Bar) : Nat :=
  crc32c (leBytes 2 (b.rwN 0x2D01 1) ++ leBytes 4 (b.rwN 0x2D01 2) ++ leBytes 4 (b.rwN 0x2D01 3) ++ leBytes 4 (b.rwN 0x2D01 4)
    ++ leBytes 4 (b.rwN 0x2D01 5) ++ leBytes 2 (b.rwN 0x2D10 1) ++ leBytes 2 (unsigned 16 (b.rwI 0x2D10 7)) ++ leBytes 2 (b.rwN 0x2D10 8)
    ++ leBytes 2 (b.rwN 0x2D10 9) ++ leBytes 1 (b.rwN 0x2D10 0x0A))

end Sys2Proof.Machine
end

