-- ==== Sys2Proof/Machine/Spool.lean ====
section
/-! DEFINITION. SPOOL reads and what segments decode of them (R238, R268 to R270), patrol and wear (R281, R282), and blocks
that fail (R283). -/

namespace Sys2Proof.Machine

/-! ### Stripes (R266 to R268) -/

/-- The directory entry of a stripe. -/
def Storage.stripe? (s : Storage) (handle stripe : Nat) : Option Stripe := s.spool.find? fun x => x.handle = handle && x.index = stripe

/-! ### What a segment's decoder reads (R176, R238) -/

/-- Where block k of a plane lies in the stored form of a reference: its band, its block row in the band, its plane (R266). -/
def Reference.blockPlace (r : Reference) (plane k : Nat) : Nat :=
  let n := max 1 (ceilDiv r.width 16)
  let row := k / n
  let first := (r.planes.map fun p => ((p.coded[row / 2 * 2]?).elim 0 fun c => c.1.length + 2 * c.2.length)).sum
  512 + (((List.range (row / 2)).map fun i => (r.band i).length).sum + row % 2 * first + 8 * n * plane + 8 * (k % n))

/-- A reference block at a segment's decoder, of a stripe whose delivered data begins at `from_` of the stored form: one that it
decodes otherwise than the reference holds it, or finds malformed, is noted for the items in flight that name the reference.
A block that does not lie in the stripe is none of it. -/
def Bar.takeBlock (b : Bar) (r : Reference) (from_ : Nat) (data : List Byte) (x : BlockRead) : Bar :=
  let n := max 1 (ceilDiv r.width 16)
  let place := r.blockPlace x.plane.val x.block
  match (r.planes[x.plane.val]?).bind fun p => p.coded[x.block / n]? with
  | none => b
  | some c =>
    if place < from_ || from_ + data.length < place + 8 then b
    else
      let stored := (c.1.drop (8 * (x.block % n))).take 8
      let bytes := List.zipWith (· ^^^ ·) ((data.drop (place - from_)).take 8) x.err
      let samples := sbfDecode 8 8 bytes
      let b := if samples.isNone then (b.modCod fun c => { c with malformed := sat32 c.malformed }).logEvent 0x7021 0 else b
      if stored = bytes then b
      else b.modItems fun i => if i.handle = r.handle && i.inFlight then { i with garbled := ⟨x.seg.val, x.plane.val, x.block, samples⟩ :: i.garbled } else i

/-- A full-stripe read delivers its stripe, a channel-page that was not decoded rebuilt, and segments decode blocks of it
(R268). -/
def Bar.stripeRead (b : Bar) (x : Stripe) (missing : Option Nat) (blocks : List BlockRead) : Bar :=
  let data := stripeData (mediaPage b.sto.media) x.page x.pages missing
  let b := b.modSto fun s => { s with stripesRead := sat32 s.stripesRead }
  match b.ref? x.handle with
  | some r => blocks.foldl (fun b y => b.takeBlock r (x.index * b.sto.stripeBytes true) data y) b
  | none => b

/-! ### SPOOL reads (R268 to R270) -/

/-- Channel-pages decoded of a stripe. -/
def pagesDecoded (mask : BitVec 8) : Nat := (List.range 8).countP fun c => mask.getLsbD c

/-- T_s in ns. -/
def stripeBudgetNs : Nat := 200000

/-- A stripe is untimely: the items in flight whose reference it belongs to lose it, and the fifth one within 1 s
engages the Safety Net. A stripe holds data of one reference. -/
def Bar.stripeUntimely (b : Bar) (x : Stripe) : Bar :=
  let b := b.modSto fun s =>
    { s with untimely := sat32 s.untimely, retries := s.retries ++ [⟨x.handle, x.index, b.now, x.group, false⟩] }
  let b := b.modItems fun i => if i.handle = x.handle && !i.published then i.withReason rRefUnavailable else i
  let b := b.modSn fun s => { s with lastUntimely := b.now, untimely := b.now :: s.untimely.filter fun t => decide (b.now < t + 1000000000) }
  let b := b.logEvent 0x8023 0
  if 4 < b.saf.sn.untimely.length then b.engage 0x8023 fun c => { c with spool := true } else b

/-- All 8 channel-pages of a read are decoded by T_s: the stripe is delivered (R268). -/
def Bar.stripeDelivered (b : Bar) (handle : Nat) (d : StripeData) : Bar :=
  match b.sto.stripe? handle d.stripe with
  | some x => if b.now ≤ d.issued + stripeBudgetNs then b.stripeRead x none d.blocks else b
  | none => b

/-- The budget T_s of a stripe read has run out: 7 pages give the eighth by XOR, fewer make the stripe untimely. A missing
page schedules the stripe for a patrol check (R269). -/
def Bar.stripeBudget (b : Bar) (handle : Nat) (d : StripeData) (mask : BitVec 8) : Bar :=
  match b.sto.stripe? handle d.stripe with
  | none => b
  | some x =>
    if b.now < d.issued + stripeBudgetNs then b
    else
      let check (b : Bar) : Bar := b.modSto fun s => { s with checks := if (x.group, x.page) ∈ s.checks then s.checks else (x.group, x.page) :: s.checks }
      match pagesDecoded mask with
      | 8 => b.stripeRead x none d.blocks
      | 7 => check ((b.modSto fun s => { s with rebuilt := sat32 s.rebuilt }).stripeRead x ((List.range 8).find? fun c => !mask.getLsbD c) d.blocks)
      | _ => check (b.stripeUntimely x)

/-- A reference's stripe could not be recovered: it is FAILED, its charge is released, and items in flight read it no more
from the present line on (R172, R206, R269). -/
def Bar.spoolLost (b : Bar) (handle : Nat) : Bar :=
  let line := b.lines
  let b := b.modCap fun c => { c with refs := c.refs.map fun (r : Reference) =>
    if r.handle = handle ∧ r.state = RefState.ready then r.fail 0x8024 else r }
  let b := b.modItems fun i => if i.handle = handle && i.ref.isSome && i.refLost.isNone then { i with refLost := some line } else i
  let b := b.modSto fun s => ({ s with lost := sat32 s.lost } : Storage).dropStripes handle
  b.logEvent 0x8024 0

/-- Recovered stripes are rewritten to new places, as soon as storage is MOUNTED and has room (R269): while it seals, nothing is
relocated (R284). -/
def Storage.rewriteRecovered (s : Storage) (now : Nat) : Storage :=
  (s.retries.filter (·.recovered)).foldl (fun s r =>
    let rest := s.retries.filter (· ≠ r)
    match s.stripe? r.handle r.stripe with
    | none => { s with retries := rest }
    | some x => match s.moveStripe x now with
      | some s => { s.flush with retries := rest }
      | none => s) s

/-- The full-retry read of an untimely stripe ends: the stripe is to be rewritten to a new place, or its reference is lost
(R269). -/
def Bar.spoolRetryDone (b : Bar) (handle stripe : Nat) (lost : Bool) : Bar :=
  let meant (r : StripeRead) : Bool := r.handle = handle && r.stripe = stripe && !r.recovered
  if b.sto.retries.any meant then
    if lost then (b.modSto fun s => { s with retries := s.retries.filter fun r => !meant r }).spoolLost handle
    else b.modSto fun s => { s with retries := s.retries.map fun (r : StripeRead) => if meant r then { r with recovered := true } else r }
  else b

/-- A SPOOL group below 50 % valid has its valid stripes copied and is erased (R270). With handshake tokens withheld it waits as a
BEST_EFFORT datagram does, for a later attempt (R324, R405; DESIGN CHOICE, log 151). -/
def Bar.compact (b : Bar) (id : Nat) : Bar :=
  let (token, b) := if b.withheld = 0 then (8, b) else b.draw 8
  if token < b.withheld then b
  else if b.sto.state = .mounted && b.sto.groups.any fun g => g.id = id && g.stream = some .spool && !g.erasing && decide (2 * g.valid < g.used) then
    b.modSto fun s => (s.relocate id b.now).level b.endurance b.now
  else b

/-! ### Blocks that fail (R283) -/

/-- A block whose data is relocated is retired: a reserve block of the same LUN and plane takes its place; without one the
group is retired whole, its other blocks join the reserves, and the ARCHIVE shrinks. -/
def Bar.replaceBlock (b : Bar) (lun plane group : Nat) : Bar :=
  match b.sto.groups.find? fun g => g.id = group && g.blocks.any fun k => k.id.lun = lun && k.id.plane = plane with
  | none => b
  | some g =>
    let ids := (g.blocks.map (·.id)).filter fun i => i.lun = lun && i.plane = plane
    let b := (b.modSto fun s => { s with retired := s.retired + 1, bad := ids ++ s.bad }).logEvent 0x802B 0
    match b.sto.reserve.find? fun k => k.id.lun = lun && k.id.plane = plane with
    | some k => b.modSto fun s =>
        { s with
          reserve := s.reserve.filter fun x => x.id ≠ k.id
          groups := s.groups.map fun (h : Group) => if h.id = group then { h with blocks := h.blocks.map fun x => if x.id ∈ ids then k else x } else h }
    | none =>
      let empty := !b.sto.reserve.any fun k => k.id.lun = lun
      let b := if lun ∈ b.sto.sparesOut || !empty then b
        else (b.logEvent 0x802C 0).modSto fun s => { s with sparesOut := lun :: s.sparesOut }
      b.modSto fun s =>
        { s with
          groups := s.groups.filter (·.id ≠ group), awaiting := s.awaiting.filter (·.1 ≠ group)
          reserve := s.reserve ++ g.blocks.filter fun k => decide (k.id ∉ ids)
          archiveBytes := s.archiveBytes - s.groupBytes false }

/-- A block of a group is retired when its committed data is relocated; where nothing can be relocated yet (no room, or storage
is not MOUNTED), the group takes no more data and the block waits (R283, R284). DEDUCED (log 125): pages span a group's blocks,
so the block's committed data moves with its group's. -/
def Bar.retire (b : Bar) (lun plane group : Nat) : Bar :=
  match b.sto.groups.find? fun g => g.id = group && g.blocks.any fun k => k.id.lun = lun && k.id.plane = plane with
  | none => b
  | some g =>
    if g.stream.isNone || g.erasing then b.replaceBlock lun plane group
    else match (if b.sto.state = .mounted then b.sto.relocate? group b.now else none) with
      | some s => ({ b with sto := s } : Bar).replaceBlock lun plane group
      | none => b.modSto fun s =>
          { s.close [group] with retiring := if (lun, plane, group) ∈ s.retiring then s.retiring else s.retiring ++ [(lun, plane, group)] }

/-! ### Patrol (R261, R282) -/

/-- The corrected bits a codeword ends with, by the hard decode or one of 3 soft re-reads; none if it is uncorrectable. -/
def codewordResult (w : Codeword) : Option Nat :=
  match w.hard with | some n => some n | none => (w.soft.take 3).findSome? id

/-- The codewords of a page by their hard decode and, where they were made, the soft re-reads of the page. -/
def codewords (hard soft1 soft2 soft3 : List (Option Nat)) : List Codeword :=
  (List.range hard.length).map fun i => ⟨(hard[i]?).getD none, [soft1, soft2, soft3].filterMap fun s => s[i]?⟩

/-- Soft re-reads made of a codeword. -/
def codewordRereads (w : Codeword) : Nat :=
  if w.hard.isSome then 0 else min 3 (((w.soft.take 3).takeWhile (·.isNone)).length + 1)

/-- Places in a group's user bytes of codeword w of the channel-page (page, channel): a page stripe lies on its channels one
after another (DESIGN CHOICE, log 126). -/
def Storage.codewordPlace (s : Storage) (page channel w : Nat) : Nat := page * s.stripeBytes false + channel * mediaPage s.media + 4096 * w

/-- The units with a byte in a codeword. -/
def Storage.unitsAt (s : Storage) (group place : Nat) : List StKey :=
  (s.stored.filter fun x => x.group = group && decide (x.place < place + 4096) && decide (place < x.place + x.data.bytes.length)).map (·.data.key)

/-- A group is refreshed: its valid data is relocated; the blocks whose codewords asked for it are noted, and those refreshed
within the last 30 days are retired (R282, R283). DESIGN CHOICE (log 127): the relocation, due within 1 h, is at once, or as soon
as there is room for it. -/
def Bar.refresh (b : Bar) (g : Group) (blocks : List BlockId) : Bar :=
  let now := b.poweredNs
  let again := (g.blocks.filter fun k => decide (k.id ∈ blocks) && match k.refreshed with | some t => decide (now < t + 2592000000000000) | none => false).map (·.id)
  match b.sto.relocate? g.id b.now with
  | none => b.modSto fun s => { s with refreshDue := (g.id, blocks) :: s.refreshDue.filter (·.1 ≠ g.id) }
  | some s =>
  let b : Bar := { b with sto := { s with refreshed := satAdd32 s.refreshed (8 * s.stripesOf g) } }
  let b := b.modSto fun s => { s with groups := s.groups.map fun (h : Group) =>
    if h.id = g.id then { h with blocks := h.blocks.map fun k => if k.id ∈ blocks then { k with refreshed := some now } else k } else h }
  again.foldl (fun b i => b.retire i.lun i.plane g.id) b

/-- Patrol reads a committed channel-page (R282): a soft re-read or corrected bits above the threshold, or an uncorrectable
codeword of the SPOOL, refresh its group; an uncorrectable codeword elsewhere makes its units UNREADABLE. -/
def Bar.patrolRead (b : Bar) (group : Nat) (at_ : PageAt) (words : List Codeword) : Bar :=
  let page := at_.page
  let channel := at_.channel
  match b.sto.groups.find? fun g => g.id = group && g.stream.isSome && !g.erasing && decide (page < b.sto.stripesOf g) with
  | none => b
  | some g =>
    if b.sto.state ≠ .mounted || words.length * 4096 ≠ mediaPage b.sto.media then b
    else
      let lost := (List.range words.length).filter fun i => (words[i]?).any fun w => (codewordResult w).isNone
      let b := b.modSto fun s =>
        { s with
          patrolDone := if (group, page, channel.val) ∈ s.patrolDone then s.patrolDone else (group, page, channel.val) :: s.patrolDone
          checks := s.checks.filter (· ≠ (group, page))
          rereads := satAdd32 s.rereads (words.map codewordRereads).sum, uncorrectable := satAdd32 s.uncorrectable lost.length }
      let spool := g.stream = some .spool
      let limit := b.rwN 0x2804 2
      let asks (w : Codeword) : Bool := decide (0 < codewordRereads w) || (codewordResult w).any fun n => decide (limit < n)
      let per := b.sto.media.pageData / 4096
      let lun := channel.val * b.sto.media.luns
      let blocks := (g.blocks.filter fun k => decide (lun ≤ k.id.lun) && decide (k.id.lun < lun + b.sto.media.luns)
        && (List.range words.length).any fun i => i / max 1 per = k.id.plane && (words[i]?).any asks).map (·.id)
      let keys := if spool then [] else (lost.flatMap fun i => b.sto.unitsAt group (b.sto.codewordPlace page channel.val i)).eraseDups
      let b := keys.foldl (fun b k =>
        (b.modSto fun s => { s with stored := s.stored.map fun (x : Stored) => if x.data.key = k then { x with unreadable := true } else x }).logEvent 0x802D 0) b
      if words.any asks then b.refresh g blocks else b

/-- What storage does as soon as it can: reports F_cover, rewrites recovered stripes, begins erases whose reads are over, retires
and refreshes what waited for room, and overwrites the LEDGER (R269, R270, R282, R283, R285, R294). -/
def Bar.storageDue (b : Bar) : Bar :=
  let b := b.judgeCover
  if b.sto.state ≠ .mounted then b
  else
    let b := if b.sto.retries.any (·.recovered) then b.modSto fun s => s.rewriteRecovered b.now else b
    let b := if b.sto.awaiting.isEmpty then b else b.modSto fun s => s.eraseAwaited b.now
    let retiring := b.sto.retiring
    let b := if retiring.isEmpty then b else retiring.foldl (fun b x => b.retire x.1 x.2.1 x.2.2) (b.modSto fun s => { s with retiring := [] })
    let due := b.sto.refreshDue
    let b := if due.isEmpty then b else due.foldl (fun b x =>
      match b.sto.groups.find? fun g => g.id = x.1 && g.stream.isSome && !g.erasing with
      | some g => b.refresh g x.2
      | none => b) (b.modSto fun s => { s with refreshDue := [] })
    b.reclaimLedger

/-- The patrol period in ns, halved for each full 10 K by which the hottest flash sensor (1/16 °C) exceeds 55 °C, but never
shorter than 1 h (R282). -/
def Bar.patrolPeriod (b : Bar) (hottest : Int) : Nat :=
  let h := 3600000000000
  let halvings := ((hottest - 880) / 160).toNat
  max h (b.rwN 0x2804 1 * h / 2 ^ halvings)

/-- Channel-pages of the period's that are still committed and have not been read. -/
def Storage.patrolLeft (s : Storage) : Nat :=
  (s.patrolPages.map fun p =>
    if s.groups.any fun g => g.id = p.1 && g.order = p.2.1 && g.stream.isSome && !g.erasing then
      8 * p.2.2 - s.patrolDone.countP fun d => d.1 = p.1 && decide (d.2.1 < p.2.2)
    else 0).sum

/-- A patrol period ends (R282). -/
def Bar.patrolEnd (b : Bar) (hottest : Int) : Bar :=
  if b.sto.state = .mounted && decide (b.sto.patrolFrom + b.patrolPeriod hottest ≤ b.now) then
    let b := if 0 < b.sto.patrolLeft then b.logEvent 0x802E 0
      else b.modSto fun s => { s with patrolPass := b.poweredHours }
    b.modSto fun s => s.patrolBegin b.now
  else b

/-! ### Wear (R281) -/

/-- The block erases of the last 24 powered hours, taken as a rate, would exhaust μE before the service life ends: logged
once per 24 h. T_rem's floor of 1,000 h is R279's alone. -/
def Bar.wearAhead (b : Bar) : Bar :=
  let now := b.poweredNs
  let recent := b.sto.erased.filter fun e => decide (now < e.1 + 86400000000000)
  let remHours := b.rwN 0x2803 3 - b.poweredHours
  let budget := b.rwN 0x2803 2 * b.endurance * 16 - 1000 * b.sto.mean16        -- × 16,000
  let ahead := decide (budget * b.sto.goodBlocks.length * 24 < (recent.map (·.2)).sum * remHours * 16000)
  let logged := match b.sto.wearAt with | some t => decide (now < t + 86400000000000) | none => false
  if ahead && !logged then (b.logEvent 0x802F 0).modSto fun s => { s with wearAt := some now } else b

end Sys2Proof.Machine
end

