-- ==== Sys2Proof/Machine/Calibration.lean ====
section
/-! DEFINITION. The calibration file: its conditions (R143, R144, R469, R470), its acceptance and the moment a new store
is taken into use. -/

namespace Sys2Proof.Machine

/-- Where the signature block starts (Table 5-3). -/
def calSignatureAt (f : List Byte) : Nat := calSectionC f + calSegments f * 122880

/-- Bytes of section A. -/
def calSectionA (f : List Byte) : List Byte := sliceAt f 0x40 (calSegments f * 81920)

/-- The entries of the table sections, in file order: tables of 4,096 entries. -/
def calTables (f : List Byte) : List (List Nat) :=
  (List.range (calSegments f * 5 * (if bit (calFlags f) 1 then 2 else 1))).map fun t =>
    (List.range 4096).map fun i => leAt f (0x40 + t * 16384 + i * 4) 4

/-- Does no value of a table fall below the one before it? -/
def calRising : List Nat → Bool
  | x :: y :: rest => decide (x ≤ y) && calRising (y :: rest)
  | _ => true

/-- A reserved field of the header or of the signature block is set, or section A is said to be absent. -/
def calReservedBad (f : List Byte) : Bool :=
  let s := calSignatureAt f
  !bit (calFlags f) 0 || decide (4 ≤ calFlags f) || sliceAt f 0x20 32 ≠ zeros 32 || leAt f (s + 4) 4 ≠ 0
    || sliceAt f (s + 0x154) 60 ≠ zeros 60

/-- The signature block fails: length, digest, TYPE, signer or signature (R469). -/
def Bar.calSignatureBad (b : Bar) (f : List Byte) : Bool :=
  let s := calSignatureAt f
  let type := leAt f s 4
  let key := sliceAt f (s + 0x48) 133
  let anchor := padTo 64 (b.par.rw.rawAt 0x2E30 1)
  f.length ≠ s + 400 || (Config.sha512 (f.take s)).toList ≠ sliceAt f (s + 8) 64
    || !(type = 2 && Config.onCurve key && Config.ecdsaVerify key (Config.sha512 (sliceAt f s 0x48)).toList (sliceAt f (s + 0xD0) 132)
          && (anchor = zeros 64 || (Config.sha512 key).toList = anchor)
        || type = 1 && anchor = zeros 64)

/-- Section A is not the one the fuses name. -/
def Bar.calDigestBad (b : Bar) (f : List Byte) : Bool :=
  bit b.sec.groupsDefault 4 || (Config.sha512 (calSectionA f)).toList ≠ (List.range 8).flatMap fun k => leBytes 8 (b.hubRow (18 + k))

/-- The first condition of R470 that a store fails; 0 if it fails none. -/
def Bar.calCondition (b : Bar) (f : List Byte) : Nat :=
  if f = [] then 1
  else if leAt f 0 4 ≠ 0x4C414342 || leAt f 4 2 ≠ 1 || leAt f 6 2 ≠ b.segs || bit b.sec.groupsDefault 0 || leAt f 0x18 8 ≠ b.uid then 2
  else if calReservedBad f then 3
  else if (calTables f).any fun t => t.any (fun v => decide (0x100000 ≤ v)) || !calRising t then 4
  else if (List.range 4).any fun k => decide (31 < leAt f (0x10 + k) 1) then 5
  else if b.calSignatureBad f then 6
  else if b.calDigestBad f then 7
  else if calGeneration f < b.calGenCounter then 8
  else 0

/-- What the log holds beside CAL_FILE_INVALID (R469). -/
def calLogCode (c : Nat) : Option Nat := match c with | 6 => some 0xE017 | 7 => some 0xE018 | 8 => some 0xE019 | _ => none

/-- A calibration file received whole: into the inactive slot, or refused with CAL_FILE_INVALID. -/
def Bar.takeCalibration (b : Bar) (f : List Byte) : Bar × Nat :=
  match b.calCondition f with
  | 0 =>
    let other := (b.sec.calActive + 1) % 2
    (b.modSec fun x => { x with calSlots := vmod x.calSlots (⟨other, by omega⟩ : Fin 2) fun _ => f, calActive := other, calNew := true }, 0)
  | c => ((match calLogCode c with | some k => b.logEvent k 0 | none => b), 0x4009)

/-- The active store is checked and taken into use, or the bar runs uncalibrated (R145, R470). -/
def Bar.calCheck (b : Bar) : Bar :=
  let f := b.sec.calSlots[b.sec.calActive % 2]'(Nat.mod_lt _ (by omega))
  let c := b.calCondition f
  let b := b.modSec fun x => { x with calNew := false, uncalibrated := decide (c ≠ 0) }
  if c = 0 then b else b.logEvent 0xE027 c

/-- The slave leaves PRE-OP: a new store is taken into use (R144). -/
def Bar.calLeavePreop (b : Bar) : Bar := if b.sec.calNew then b.calCheck else b

end Sys2Proof.Machine
end

