-- ==== Sys2Proof/Machine/Nozzle.lean ====
section
/-! DEFINITION. Nozzle tracks (chapter 7): the map, streak sums, ladders, the track engine at a window's close, and the
events that subscribers get. -/

namespace Sys2Proof.Machine

def Bar.modNz (b : Bar) (f : Nozzle → Nozzle) : Bar := { b with nz := f b.nz }

/-! ### Track records (R199 to R201) -/

def trackInk (i : Nat) : Nat := i / 131072 % 8
def trackRow (i : Nat) : Nat := i / 65536 % 2
def trackNozzle (i : Nat) : Nat := i % 65536
def trackIndex (ink row nozzle : Nat) : Nat := 131072 * ink + 65536 * row + nozzle

def EvState.code : EvState → Nat
  | .unknown => 0 | .healthy => 1 | .weak => 2 | .missing => 3 | .deviated => 4

/-- STATE (R201). -/
def Track.state (t : Track) : Nat :=
  match t.host with | .masked => 5 | .compensated => 6 | .none => t.ev.code

/-- The track of an index. -/
def findTrack : List (Nat × Track) → Nat → Track
  | [], _ => .reset
  | (k, t) :: rest, i => if k = i then t else findTrack rest i

/-- A track written; the list holds no track that equals its reset value. -/
def putTrack : List (Nat × Track) → Nat → Track → List (Nat × Track)
  | [], i, t => if t = .reset then [] else [(i, t)]
  | (k, u) :: rest, i, t =>
    if i < k then (if t = .reset then (k, u) :: rest else (i, t) :: (k, u) :: rest)
    else if i = k then (if t = .reset then rest else (i, t) :: rest)
    else (k, u) :: putTrack rest i t

def Bar.track (b : Bar) (i : Nat) : Track := findTrack b.nz.tracks i
def Bar.setTrack (b : Bar) (i : Nat) (t : Track) : Bar := b.modNz fun z => { z with tracks := putTrack z.tracks i t }

def ObsClass.code : ObsClass → Nat
  | .h => 0 | .w => 1 | .m => 2 | .d => 3 | .neutral => 0

/-- An observation word (Table 7-3). -/
def Obs.word (o : Obs) : Nat :=
  o.out + unsigned 8 o.dev * 2 ^ 12 + b2n o.devValid * 2 ^ 20 + b2n o.ladder * 2 ^ 21 + o.cls.code * 2 ^ 22 + o.window % 256 * 2 ^ 24

/-- A track record (Table 7-1): 64 bytes. -/
def Track.bytes (t : Track) : List Byte :=
  let n := t.ring.length
  let ring := ((List.range n).map fun i => ((t.ring[i]?).map Obs.word).getD 0 * 2 ^ (32 * ((t.head + 16 - n + i) % 8))).sum
  leBytes 64 (t.state + t.ev.code * 16 + b2n t.mapped * 256 + b2n t.ambiguous * 512 + t.conf * 2 ^ 16 + t.head * 2 ^ 24
    + n * 2 ^ 27 + unsigned 22 t.column * 2 ^ 32 + t.module * 2 ^ 54 + t.lastChange * 2 ^ 64 + t.events * 2 ^ 96 + t.toFault * 2 ^ 112
    + t.toHealthy * 2 ^ 120 + ring * 2 ^ 128 + t.obsTotal * 2 ^ 384)

/-! ### The map (R202 to R204) -/

/-- Column of nozzle j between a module's breakpoints. -/
def interpolate (j : Nat) : List (Nat × Int) → Option Int
  | (n0, c0) :: (n1, c1) :: rest =>
    if n0 ≤ j && j ≤ n1 then some (c0 + (c1 - c0) * ((j : Int) - n0) / ((n1 : Int) - n0)) else interpolate j ((n1, c1) :: rest)
  | _ => none

def NzModule.covers (m : NzModule) (i : Nat) : Bool :=
  m.ink = trackInk i && m.row = trackRow i && decide (m.first ≤ trackNozzle i) && decide (trackNozzle i < m.stop)

/-- The module that covers a track, and X(j). -/
def mapPlace (map : List NzModule) (i : Nat) : Option (Nat × Int) :=
  match map.findIdx? (·.covers i) with
  | some m => match (map[m]?).bind fun x => interpolate (trackNozzle i) x.bps with | some x => some (m, x) | none => none
  | none => none

/-- Tracks that modules cover. -/
def coveredTracks (map : List NzModule) : List Nat :=
  map.flatMap fun m => (List.range (m.stop - m.first)).map fun i => trackIndex m.ink m.row (m.first + i)

/-- A module record of a map file. -/
def parseModule (r : List Byte) : NzModule :=
  { ink := leAt r 0 1, row := leAt r 1 1, first := leAt r 4 4, stop := leAt r 8 4
    bps := (List.range (leAt r 2 1)).map fun i => (leAt r (16 + 8 * i) 4, signed 32 (leAt r (20 + 8 * i) 4)) }

def rising : List Nat → Bool
  | a :: c :: rest => decide (a < c) && rising (c :: rest)
  | _ => true

/-- A module record is well formed (R203). -/
def moduleOk (r : List Byte) : Bool :=
  let m := parseModule r
  let nbp := leAt r 2 1
  let ns := m.bps.map (·.1)
  decide (m.ink ≤ 7) && decide (m.row ≤ 1) && decide (m.stop ≤ 65536) && decide (m.first < m.stop) && decide (2 ≤ nbp)
    && decide (nbp ≤ 8) && rising ns && ns.headD 0 = m.first && ns.getLastD 0 + 1 = m.stop
    && leAt r 3 1 = 0 && leAt r 12 4 = 0 && (sliceAt r (16 + 8 * nbp) (64 - 8 * nbp)).all (· = 0)

/-- Two modules of one ink and row overlap. -/
def modulesOverlap : List NzModule → Bool
  | [] => false
  | m :: rest => (rest.any fun x => x.ink = m.ink && x.row = m.row && decide (x.first < m.stop) && decide (m.first < x.stop))
      || modulesOverlap rest

/-- A map file's modules; none if the file is refused (R203). -/
def parseMap (f : List Byte) : Option (List NzModule) :=
  let count := leAt f 6 2
  let recs := (List.range count).map fun i => sliceAt f (0x20 + 80 * i) 80
  let body := f.take (f.length - 4)
  if leAt f 0 4 = 0x50414D4E && leAt f 4 2 = 1 && count ≤ 1024 && f.length = 36 + 80 * count
      && leAt f (32 + 80 * count) 4 = crc32c body && (sliceAt f 8 24).all (· = 0) && recs.all moduleOk
      && !modulesOverlap (recs.map parseModule)
  then some (recs.map parseModule) else none

/-- A map file received whole becomes pending and is persisted (R204): the bar and the refusal's code. That MRAM takes it on
acceptance, and a reset before the window's close applies it, is read from R204 and R339 (DEDUCED, log entry 111). -/
def Bar.takeMap (b : Bar) (f : List Byte) : Bar × Nat :=
  match parseMap f with
  | none => (b, 0x6007)
  | some m =>
    let b := if b.nz.pending.isSome then b.logEvent 0x6027 0 else b
    (b.modNz fun z => { z with pending := some (m, f), mapSlots := z.mapSlots.put f }, 0)

/-- The track with its ring cleared and EVSTATE UNKNOWN. -/
def Track.forget (t : Track) : Track := { t with ring := [], head := 0, ev := .unknown, conf := 0 }

/-- Where the live map and drift put a track: module and COLUMN, none if no module covers it. -/
def Bar.trackPlace (b : Bar) (i : Nat) : Option (Nat × Int) := (mapPlace b.nz.map i).map fun (m, x) => (m, x + b.nz.drift.getD m 0)

/-- Does a COLUMN lie on the bar (R202)? -/
def Bar.onBar (b : Bar) (c : Int) : Bool := decide (0 ≤ c) && decide (c < 64 * b.columns)

/-- A track recomputed; after a new map one that moved, wherever it lies, is reset, so that one that no module covers any more is
UNKNOWN (R199, R204). Off the bar its record keeps its module, and the low bits of its COLUMN (DESIGN CHOICE, log 155). -/
def Bar.placeTrack (b : Bar) (fresh : Bool) (b0 : Bar × List Nat) (i : Nat) : Bar × List Nat :=
  let t := b.track i
  let place := b.trackPlace i
  let (m, c) := place.getD (0, 0)
  let on := place.isSome && b.onBar c
  let moved := t.mapped ≠ on || t.covered ≠ place.isSome || t.module ≠ m || decide (32 ≤ (t.column - c).natAbs)
  let t' : Track := { t with mapped := on, covered := place.isSome, module := m, column := c }
  if fresh && moved then (b0.1.setTrack i t'.forget, i :: b0.2) else (b0.1.setTrack i t', b0.2)

/-- AMBIGUOUS of every mapped track (R207). -/
def Bar.markAmbiguous (b : Bar) : Bar :=
  let d := b.liveN 0x2600 0x0C
  let mapped := b.nz.tracks.filter (·.2.mapped)
  b.modNz fun z =>
    { z with tracks := z.tracks.map fun e =>
        (e.1, { e.2 with ambiguous := e.2.mapped && mapped.any fun x =>
          x.1 ≠ e.1 && trackInk x.1 = trackInk e.1 && decide ((x.2.column - e.2.column).natAbs < d) }) }

/-- Every track recomputed from the live map and drift; the tracks that a new map has reset. -/
def Bar.remap (b : Bar) (fresh : Bool) : Bar × List Nat :=
  let cover := coveredTracks b.nz.map
  let old := (b.nz.tracks.map (·.1)).filter fun i => (mapPlace b.nz.map i).isNone
  let (b', reset) := (cover ++ old).foldl (b.placeTrack fresh) (b, [])
  let off := cover.countP fun i => (b.trackPlace i).any fun p => !b.onBar p.2
  ((b'.modNz fun z => { z with offBar := off }).markAmbiguous, reset)

/-- The pending map goes live (R204). -/
def Bar.mapLive (b : Bar) : Bar × List Nat :=
  match b.nz.pending with
  | none => b.remap false
  | some (m, _) =>
    let b := b.modNz fun z => { z with map := m, pending := none, drift := List.replicate m.length 0 }
    let (b, reset) := b.remap true
    (b.logEvent 0x6020 m.length, reset)

/-! ### Streak sums (R206 to R209) -/

/-- Comparators of the items whose frames hold line n and whose reference, READY at that line, carries ink maps (R206). -/
def Bar.streakItems (b : Bar) (n : Nat) : List CmpGeom :=
  b.cap.items.filterMap fun i =>
    if i.started && decide (i.s ≤ n) && (match i.f with | some f => decide (n < f) | none => true) && i.laneN b 0x2510 ≠ 0xFF then
      match b.itemRef i with
      | some r => if r.inkMask ≠ 0 && (match i.refLost with | some m => decide (n < m) | none => true) then some (b.cmpGeom i r) else none
      | none => none
    else none

/-- The ink-map bytes of a host column in a line: its item's comparator, its registration cell and the byte of each ink;
none outside every such frame. -/
def Bar.inkCell (b : Bar) (gs : List CmpGeom) (c n : Nat) : Option (CmpGeom × CellReg × List Nat) :=
  match gs.find? fun g => decide (g.c0 ≤ c) && decide (c < g.c0 + g.width * g.w) with
  | none => none
  | some g =>
    if n < g.n0 then none
    else
      let r := (n - g.n0) / g.span
      let x := (c - g.c0) / g.w
      if g.hExp ≤ r then none
      else
        let cell := b.cellReg g (b.tileOf g x) (r / 32)
        let q := max 1 (g.ref.res / 75)
        let u := (clampI 0 (g.ref.width - 1 : Nat) ((x : Int) - g.x0 - cell.dx)).toNat / q
        let v := (clampI 0 (g.ref.height - 1 : Nat) ((r : Int) - g.y0 - cell.dy)).toNat / q
        let inks := (List.range 8).map fun k =>
          if bit g.ref.inkMask k then
            let ix := (List.range k).countP fun j => bit g.ref.inkMask j
            ((g.ref.inks.getD ix []).getD v []).getD u 0
          else 0
        some (g, cell, inks)

/-- The ink-map cell is uniform for streaks: UNIFORM wherever there is coverage, and some enabled ink covers it. -/
def inkUniform (mask : Nat) (inks : List Nat) : Bool :=
  (inks.all fun v => v % 128 = 0 || decide (128 ≤ v)) && (List.range 8).any fun k => bit mask k && inks.getD k 0 % 128 ≠ 0

/-- d of R207 for a band, in 2⁻¹²; none where the pixel does not contribute. -/
def Bar.streakD (b : Bar) (gs : List CmpGeom) (inks : List Nat) (lane c n k band : Nat) : Option Int :=
  let p := b.physCol c
  let seg := p / segCols
  let near := (List.range 7).map (fun (i : Nat) => (c : Int) - 8 + i) ++ (List.range 7).map fun (i : Nat) => (c : Int) + 2 + i
  let vs := near.filterMap fun x =>
    if x < 0 || (b.columns : Int) ≤ x then none
    else
      let px := b.physCol x.toNat
      if px + 4 < seg * segCols || (seg + 1) * segCols + 4 ≤ px then none
      else match b.inkCell gs x.toNat n with
        | some (g, _, v) => if g.item.lane = lane && v = inks then (b.pixel band x.toNat n k).map (·.1) else none
        | none => none
  match b.pixel band c n k with
  | some (v, false) =>
    let sum := vs.sum
    if vs.length < 8 || sum = 0 then none
    else
      let num : Int := (v * vs.length : Nat) - (sum : Int)
      some (clampI (-32767) 32767 ((8192 * num + sum) / (2 * sum)))
  | _ => none

/-- What a pixel adds: d of the four bands, the ink bytes and its registration cell. -/
def Bar.streakPixel (b : Bar) (mask k c n : Nat) : Option (List Int × List Nat × CmpGeom × CellReg) :=
  let gs := b.streakItems n
  match b.inkCell gs c n with
  | some (g, cell, inks) =>
    if inkUniform mask inks then
      let ds := (List.range 4).map fun band => b.streakD gs inks g.item.lane c n k band
      if ds.any (·.isNone) then none else some (ds.map (·.getD 0), inks, g, cell)
    else none
  | none => none

/-- The lines of a window that may contribute. -/
def Bar.streakLines (b : Bar) (w : NzWindow) (k : Nat) : List Nat :=
  (b.cap.lineLog.reverse.filter fun l =>
    decide (w.w0 ≤ l.n) && decide (l.n < w.w1) && l.ctx = k && !l.crawl && !l.us && !l.dropped && !b.istUsed l.n).map (·.n)

/-- Contributions of a column in a window, oldest first. -/
def Bar.streakOf (b : Bar) (w : NzWindow) (c : Nat) : List (List Int × List Nat × CmpGeom × CellReg) :=
  let st := b.setAt w.w0
  if b.pN st 0x2600 1 = 0 || b.columns ≤ c then []
  else
    let k := b.pN st 0x2600 3
    let seg := b.physCol c / segCols
    ((b.streakLines w k).filter fun n => match b.segRec? seg n with | some r => !r.streakVoid | none => false).filterMap fun n =>
      b.streakPixel (b.pN st 0x2600 4) k c n

/-- SD per band and SQ of ink k at a column (R207). R166 calls the codes 101 to 127 invalid and does not say what the bar does
with one: it is used as it stands (DESIGN CHOICE, log entry 112). -/
def inkSums (k : Nat) (xs : List (List Int × List Nat × CmpGeom × CellReg)) : List Int × Nat :=
  xs.foldl (fun (a : List Int × Nat) x =>
    let q : Nat := x.2.1.getD k 0 % 128
    ((List.range 4).map fun (band : Nat) => a.1.getD band 0 + (q : Int) * x.1.getD band 0, (a.2 + q * q) % 2 ^ 32)) ([0, 0, 0, 0], 0)

/-- A_k(c) of R209 in 2⁻¹⁶, exact to one unit; 0 where there are no sums. Also SQ. Coverage codes count as fractions in
both sums, as the worked track of chapter 7 has them. -/
def Bar.deficit (b : Bar) (w : NzWindow) (k : Nat) (c : Int) : Int × Nat :=
  if c < 0 then (0, 0)
  else
    let st := b.setAt w.w0
    let (sd, sq) := inkSums k (b.streakOf w c.toNat)
    let s (band : Nat) : Int := b.pN st 0x2601 (4 * k + band + 1)
    let num : Int := ((List.range 4).map fun (band : Nat) => s band * sd.getD band 0).foldl (· + ·) 0
    let den : Int := ((List.range 4).map fun (band : Nat) => s band * s band).foldl (· + ·) 0 * (sq : Int)
    let err : Nat := Config.deficitError w.number k c.toNat % 2
    if den = 0 then (0, sq) else (65536 * 100 * num / den + (err : Int), sq)

/-- Centroid of weighted columns in 1/64 column, towards minus infinity. -/
def centroid (ws : List (Int × Int)) : Int :=
  let s := (ws.map (·.2)).foldl (· + ·) 0
  if s ≤ 0 then 0 else 64 * ((ws.map fun x => x.1 * x.2).foldl (· + ·) 0) / s

/-- Columns c − r to c + r. -/
def around (c : Int) (r : Nat) : List Int := (List.range (2 * r + 1)).map fun (i : Nat) => c - r + i

/-- The position a track's drops land at in a window: COLUMN and the refined offset of the cell of the last line that
contributes at its column (R210), in 1/64 column. That column is the one nearest to COLUMN alone, and where no line contributed
there the offset is 0 (DESIGN CHOICE, log 71). -/
def Bar.landing (b : Bar) (w : NzWindow) (t : Track) : Int :=
  match (b.streakOf w ((t.column + 32) / 64).toNat).getLast? with
  | some (_, _, g, cell) => t.column + cell.fineX * 8 * g.w
  | none => t.column

/-- A content observation (R210): OUT, DEV, and the deficit centroid that drift takes, where A(c0) ≥ 0.30. The centroid weighs a
column by max(A, 0), against the landing position as the expected column (DESIGN CHOICE, log 179: R205 states neither). -/
def Bar.contentObs (b : Bar) (w : NzWindow) (i : Nat) (t : Track) : Option (Nat × Int × Bool × Option Int) :=
  let st := b.setAt w.w0
  let k := trackInk i
  if !t.mapped || b.pN st 0x2600 1 = 0 || !bit (b.pN st 0x2600 4) k then none
  else
    let pos := b.landing w t
    let c0 := (pos + 32) / 64
    let a (c : Int) : Int := (b.deficit w k c).1
    if (b.deficit w k c0).2 < b.pN st 0x2600 5 * 10000 then none
    else
      let f : Int := b.pN st 0x2602 (k + 1)
      let out := clampI 0 4095 ((2048 * f - 4 * (a (c0 - 1) + 2 * a c0 + a (c0 + 1))) / max 1 f)
      let strong := decide (3 * 65536 ≤ 10 * a c0)
      let exc := (around c0 8).map fun c => (c, max (-(a c)) 0)
      let valid := strong && decide (3 * 65536 ≤ 10 * (exc.map (·.2)).foldl (· + ·) 0)
      let dev := if valid then clampI (-127) 127 ((centroid exc - pos) / 8) else 0
      let shift := if strong then some (centroid ((around c0 2).map fun c => (c, max (a c) 0)) - pos) else none
      some (out.toNat, dev, valid, shift)

/-- The tracks that share a track's observations: itself, or, if it is ambiguous, every mapped track of its ink to which a chain of
ambiguous pairs leads, so that both tracks of every pair receive the same (R207). The flag is that of the close before, the distance
that live at this one (DESIGN CHOICE, log 180: after an apply point in the window R207 does not say which holds). -/
def Bar.observedWith (b : Bar) (i : Nat) (t : Track) : List Nat :=
  if t.ambiguous then
    let d := b.liveN 0x2600 0x0C
    let same := b.nz.tracks.filter fun x => x.2.mapped && trackInk x.1 = trackInk i
    let cols := (same.map (·.2.column)).mergeSort (· ≤ ·)
    let reach (x c : Int) : Int := if (c - x).natAbs < d then c else x
    let hi := (cols.filter fun c => decide (t.column ≤ c)).foldl reach t.column
    let lo := (cols.reverse.filter fun c => decide (c ≤ t.column)).foldl reach t.column
    (same.filter fun x => decide (lo ≤ x.2.column) && decide (x.2.column ≤ hi)).map (·.1)
  else [i]

/-- The lower middle value. -/
def median (xs : List Int) : Int := (xs.mergeSort (· ≤ ·)).getD ((xs.length - 1) / 2) 0

/-- A module's drift moved by d, within ±512 (R205). -/
def Bar.drift (b : Bar) (m : Nat) (d : Int) : Bar :=
  let v := b.nz.drift.getD m 0 + d
  let b := b.modNz fun z => { z with drift := updAt z.drift m fun _ => clampI (-512) 512 v }
  if 512 < v.natAbs then b.logEvent 0x6021 m else b

/-! ### Ladders (R211 to R213) -/

/-- Field of a ladder descriptor: 1 ink, 2 row, 3 j0, 4 count, 5 K, 6 h, 7 P_r. -/
def Bar.ladderField (b : Bar) (d sub : Nat) : Nat := b.liveN (0x2610 + d) sub

/-- A ladder cue (R211): the oldest handed on, if it is that of timestamp te. -/
def Bar.ladderCue (b : Bar) (te : Nat) : Bar :=
  match b.nz.ladderCues with
  | [] => b
  | t :: rest =>
    if t ≠ te then b
    else
    let b := b.modNz fun z => { z with ladderCues := rest }
    let len := b.liveN 0x2606 0
    if !b.ecat.session || b.liveN 0x2600 1 = 0 || b.liveN 0x2605 1 = 0xFF || len = 0 then b
    else if b.nz.ladder.isSome then (b.modNz fun z => { z with ladderIgnored := sat32 z.ladderIgnored }).logEvent 0x6023 0
    else
      let d := b.liveN 0x2606 (1 + b.nz.ladderNext % len)
      let (line, target) := b.cueLine t (b.cuePos t) (b.liveN 0x2605 2)
      b.modNz fun z => { z with ladder := some ⟨d % 16, line, some target⟩, ladderNext := (z.ladderNext + 1) % len }

/-- The context lines of the running ladder that have been triggered. -/
def Bar.ladderLines (b : Bar) (d first : Nat) : List Nat :=
  let k := b.liveN 0x2600 3
  ((b.cap.lineLog.reverse.filter fun l => decide (first ≤ l.n) && l.ctx = k).map (·.n)).take (b.ladderField d 5 * b.ladderField d 7)

/-- A line is left out of a ladder for a host column: one in an open item frame there, and a rung line that is void or crawl
(R213). -/
def Bar.ladderSkips (b : Bar) (rung : Bool) (n c : Nat) : Bool :=
  (rung && match b.line? n with | some l => l.crawl || l.us || l.dropped | none => true)
    || b.cap.items.any fun i => i.started && decide (i.s ≤ n) && (match i.f with | some f => decide (n < f) | none => true)
        && (let st := b.setAt i.s; decide (b.pN st 0x2500 (i.lane + 1) ≤ c) && decide (c < b.pN st 0x2501 (i.lane + 1)))

/-- Sum and count of a band at a column over context lines [lo, hi) of a ladder. -/
def Bar.ladderSum (b : Bar) (rung : Bool) (lines : List Nat) (k band c lo hi : Nat) : Nat × Nat :=
  let vs := ((lines.drop lo).take (hi - lo)).filterMap fun n =>
    if b.ladderSkips rung n c then none else (b.pixel band c n k).map (·.1)
  (vs.sum, vs.length)

/-- r(c) in 1/4,096 for rung u; none with too few lines (R212, R213). -/
def Bar.ladderR (b : Bar) (lines : List Nat) (d k band u : Nat) (c : Int) : Option Int :=
  if c < 0 || (b.columns : Int) ≤ c then none
  else
    let h := b.ladderField d 6
    let p := b.ladderField d 7
    let (v, nv) := b.ladderSum true lines k band c.toNat (u * p + 1) (u * p + h - 1)
    let (g, ng) := b.ladderSum false lines k band c.toNat (u * p + h + 1) (u * p + p - 1)
    if nv < 2 || ng < 2 then none
    else if g = 0 then some 0
    else some (4096 * ((g * nv : Nat) - (v * ng : Nat) : Int) / ((g * nv : Nat) : Int))

/-- What a ladder shows of one nozzle: track, module, expected column, and its peak (r, x_m) if it reaches R_min. -/
structure LadderNozzle where
  track : Nat
  module : Nat
  x : Int
  peak : Option (Int × Int)

/-- The column of a range with the largest r, the lowest of equals. -/
def ladderPeak (r : Int → Option Int) (cs : List Int) : Option (Int × Int) :=
  cs.foldl (fun (best : Option (Int × Int)) c => match r c, best with
    | some v, none => some (c, v)
    | some v, some (_, w) => if w < v then some (c, v) else best
    | none, _ => best) none

/-- A nozzle of the ladder; none without enough lines or a map module. -/
def Bar.ladderNozzle (b : Bar) (lines : List Nat) (d k band j : Nat) : Option (Option LadderNozzle) :=
  let i := trackIndex (b.ladderField d 1 % 8) (b.ladderField d 2 % 2) j
  match mapPlace b.nz.map i with
  | none => none
  | some (m, x0) =>
    let x := x0 + b.nz.drift.getD m 0
    let u := (j - b.ladderField d 3) % max 1 (b.ladderField d 5)
    let r := b.ladderR lines d k band u
    let w : Int := b.liveN 0x2605 3
    let lo := -((64 * w - x) / 64)
    let hi := (x + 64 * w) / 64
    if x < 0 || 64 * (b.columns : Int) ≤ x then none
    else if (r (x / 64)).isNone then some none
    else match ladderPeak r ((List.range (hi - lo + 1).toNat).map fun (a : Nat) => lo + a) with
      | none => some none
      | some (cp, v) =>
        if v < b.liveN 0x2605 4 then some (some ⟨i, m, x, none⟩)
        else some (some ⟨i, m, x, some (v, centroid ((around cp 2).map fun c => (c, max ((r c).getD 0) 0)))⟩)

/-- A ladder has ended (R205, R212, R213). -/
def Bar.ladderEnd (b : Bar) : Bar :=
  match b.nz.ladder with
  | none => b
  | some run =>
    let d := run.desc
    let lines := b.ladderLines d run.line
    let need := b.ladderField d 5 * b.ladderField d 7
    if lines.length < need || !(match lines.getLast? with | some n => b.lineComplete n | none => true) then b
    else
      let k := b.liveN 0x2600 3
      let ink := b.ladderField d 1 % 8
      let s (band : Nat) : Nat := b.liveN 0x2601 (4 * ink + band + 1)
      let band := (List.range 4).foldl (fun best x => if s best < s x then x else best) 0
      let found := (List.range (b.ladderField d 4)).map fun a => b.ladderNozzle lines d k band (b.ladderField d 3 + a)
      let partials := found.countP fun x => match x with | some none => true | _ => false
      let ns := found.filterMap fun x => x.bind id
      let peaks (m : Nat) : List (LadderNozzle × Int × Int) := ns.filterMap fun n => if n.module = m then n.peak.map fun p => (n, p) else none
      let b0 := b
      let b := (List.range b.nz.map.length).foldl (fun b m =>
        let ps := peaks m
        if 64 ≤ ps.length then b.drift m (median (ps.map fun p => p.2.2 - p.1.x)) else b) b
      let obs : List LadderObs := ns.map fun n => match n.peak with
        | none => ⟨n.track, 0, 0, false⟩
        | some (v, xm) =>
          let rho := median ((peaks n.module).map fun p => p.2.1)
          let dd := b.nz.drift.getD n.module 0 - b0.nz.drift.getD n.module 0
          ⟨n.track, (clampI 0 4095 (2048 * v / max 1 rho)).toNat, clampI (-127) 127 ((xm - n.x - dd) / 8), true⟩
      let b := b.modNz fun z => { z with ladder := none, ladderObs := z.ladderObs ++ obs }
      if partials = 0 then b else b.logEvent 0x6024 partials

/-! ### Deciding the state (R214, R215) -/

/-- The class of an observation (Table 7-6), by the thresholds of a window's parameter set. -/
def Bar.obsClass (b : Bar) (st : Store) (out : Nat) (dev : Int) (valid : Bool) : ObsClass :=
  let far := valid && decide (b.pN st 0x2600 8 ≤ dev.natAbs)
  if out < b.pN st 0x2600 7 then .m
  else if far then .d
  else if out < b.pN st 0x2600 6 then .w
  else if b.pN st 0x2600 6 + b.pN st 0x2600 0x0D ≤ out then .h
  else .neutral

/-- The evidence state after an observation (R215). -/
def evNext (kOn kOff : Nat) (ev : EvState) (ring : List Obs) : EvState :=
  let last4 := ring.drop (ring.length - 4)
  let count (p : ObsClass → Bool) : Nat := last4.countP fun o => p o.cls
  if kOn ≤ count (· = .m) then .missing
  else if kOn ≤ count (· = .d) then .deviated
  else if kOn ≤ count (fun c => c = .m || c = .w) then .weak
  else if ev = .unknown && decide (3 ≤ count (· = .h)) then .healthy
  else if (ev = .weak || ev = .missing || ev = .deviated) && decide (kOff ≤ ring.countP fun o => o.cls = .h) then .healthy
  else ev

/-- Does an observation agree with an evidence state? -/
def agrees (ev : EvState) (c : ObsClass) : Bool :=
  match ev with
  | .healthy => c = .h | .missing => c = .m | .deviated => c = .d | .weak => c = .m || c = .w | .unknown => false

def EvState.fault (e : EvState) : Bool := e = .weak || e = .missing || e = .deviated

/-- An observation enters a track's ring. -/
def Bar.observe (b : Bar) (st : Store) (t : Track) (o : Obs) : Track :=
  let ring := (t.ring ++ [o]).drop (t.ring.length + 1 - 8)
  let ev := evNext (b.pN st 0x2600 9) (b.pN st 0x2600 0x0A) t.ev ring
  { t with
    ring := ring, head := (t.head + 1) % 8, ev := ev, conf := min 255 (32 * ring.countP fun o => agrees ev o.cls)
    obsTotal := sat32 t.obsTotal
    toFault := if ev ≠ t.ev && ev.fault then min 255 (t.toFault + 1) else t.toFault
    toHealthy := if ev = .healthy && t.ev.fault then min 255 (t.toHealthy + 1) else t.toHealthy }

/-! ### Commands (R216) -/

/-- A command's effect on a track; none where it does not apply. -/
def TrackOp.run (op : TrackOp) (t : Track) : Option Track :=
  match op with
  | .mask => some { t with host := .masked }
  | .unmask => if t.host = .masked then some { t with host := .none } else none
  | .compensate => some { t with host := .compensated }
  | .uncompensate => if t.host = .compensated then some { t with host := .none } else none
  | .reset => some { t.forget with host := .none }

def TrackOp.ofCode : Nat → Option TrackOp
  | 1 => some .mask | 2 => some .unmask | 3 => some .compensate | 4 => some .uncompensate | 5 => some .reset | _ => none

/-- A command waits for the next window close. -/
def Bar.queueTrackCmd (b : Bar) (op : TrackOp) (first stop : Nat) (ack : Option (Nat × Nat)) : Bar :=
  b.modNz fun z => { z with cmds := z.cmds ++ [⟨op, first, stop, b.now, ack⟩] }

/-! ### Events (R218 to R223, R225) -/

/-- A track's event. -/
structure NzEvent where
  track : Nat
  prev : Nat
  t : Track
  mapChange : Bool
  host : Bool
  ineffective : Bool

/-- The last observation of a track. -/
def Track.last (t : Track) : Option Obs := t.ring.getLast?

/-- An EVENT or RESYNC record (Table 7-11). -/
def eventRecord (type late gen w1 tc : Nat) (e : NzEvent) : List Byte :=
  let o := e.t.last
  let dev := match o with | some o => if o.devValid then unsigned 8 o.dev else 0 | none => 0
  let ladder := match o with | some o => o.ladder | none => false
  let out := match o with | some o => o.out | none => 0
  leBytes 32 (type + e.track * 2 ^ 8 + e.t.state * 2 ^ 28 + e.prev * 2 ^ 32 + e.t.ev.code * 2 ^ 36 + e.t.conf * 2 ^ 40
    + b2n e.t.ambiguous * 2 ^ 48 + b2n ladder * 2 ^ 49 + b2n e.mapChange * 2 ^ 50 + b2n e.host * 2 ^ 51
    + b2n e.ineffective * 2 ^ 52 + late * 2 ^ 53 + dev * 2 ^ 56 + gen * 2 ^ 64 + unsigned 22 e.t.column * 2 ^ 80 + out * 2 ^ 102
    + w1 * 2 ^ 128 + tc * 2 ^ 192)

/-- A WINDOW_END record. -/
def windowEnd (count gen w1 tc : Nat) : List Byte := leBytes 32 (2 + count * 2 ^ 8 + gen * 2 ^ 64 + w1 * 2 ^ 128 + tc * 2 ^ 192)

/-- STATE1 of the Plitur dialect. -/
def state1 : Nat → Nat
  | 0 => 7 | 1 => 0 | 2 => 1 | 4 => 1 | 3 => 2 | _ => 3

def record1 (w1 tc : Nat) (e : NzEvent) : List Byte :=
  leBytes 12 (e.track + state1 e.t.state * 2 ^ 20 + e.t.conf * 2 ^ 24 + w1 % 2 ^ 32 * 2 ^ 32 + tc / 1000 % 2 ^ 32 * 2 ^ 64)

/-- Payload of a serial frame, bytes 2 to 9. -/
def serialPayload (late w1 : Nat) (e : NzEvent) : Nat :=
  e.track + e.t.state * 2 ^ 20 + e.t.conf * 2 ^ 24 + e.prev * 2 ^ 32 + b2n e.t.ambiguous * 2 ^ 36 + b2n e.host * 2 ^ 37
    + late * 2 ^ 38 + b2n e.ineffective * 2 ^ 39 + w1 % 2 ^ 24 * 2 ^ 40

/-- How a batch of records is sent: within its budget (class 6), beyond it (class 0, dropped without room), or, for the
record that ends such a window, behind those in class 0 (R219, R221). -/
inductive NzClass where
  | guaranteed
  | bestEffort
  | behind

/-- Records to a peer on the NOZZLE stream, as many whole ones to a datagram as fit: of a window [w0, w1), with its generation and
the subscriber, or of none. -/
def Bar.sendRecords (b : Bar) (k : Nat) (cls : NzClass) (w : Option (Nat × Nat × Nat × Nat)) (size : Nat) (recs : List (List Byte)) : Bar :=
  let be := match cls with | .bestEffort => true | _ => false
  let six := match cls with | .guaranteed => true | _ => false
  let v := match b.session? k with | some s => s.version | none => b.peerN k 7
  let per := max 1 (b.pMax k v 2 / size)
  let (w0, w1, gen, _) := w.getD (0, 0, 0, 0)
  (pieces (per * size) recs.length recs.flatten).foldl (fun b p =>
    b.sendUnit k { stream := 2, type := 1, cls := if six then 6 else 0, be := be, late := false, line0 := w0, line1 := w1
                   gen := gen, payload := p, window := if six then w.map fun x => (x.2.1, x.2.2.2, b.nz.tClose + 2000000) else none }) b

/-- Nothing is sent for an empty batch. -/
def Bar.sendRecordsIf (b : Bar) (k : Nat) (cls : NzClass) (w : Option (Nat × Nat × Nat × Nat)) (size : Nat) (recs : List (List Byte)) : Bar :=
  if recs.isEmpty then b else b.sendRecords k cls w size recs

/-- A window's events go to subscriber j (R219, R221, R223, R225). A KSP subscriber whose field is above 15 names no peer, and none
gets its events (DEDUCED, log 182). -/
def Bar.sendEvents (b : Bar) (w : NzWindow) (events : List NzEvent) (j : Nat) : Bar :=
  if !b.subOn j then b
  else
    let mine := events.filter fun e => decide (b.subN j 2 ≤ e.track) && decide (e.track < b.subN j 3)
    let budget := b.subN j 7
    let span := some (w.w0, w.w1, w.gen, j)
    if b.subN j 4 = 1 then
      let frame (be : Bool) (e : NzEvent) : SerialFrame := ⟨j, w.w1, serialPayload (b2n be) w.w1 e, b.nz.tClose + 2000000, !be⟩
      b.modNz fun z => { z with serial := z.serial ++ (mine.take budget).map (frame false) ++ (mine.drop budget).map (frame true) }
    else
      let k := b.subN j 6
      let d := b.nz.dialect[k % 16]'(Nat.mod_lt _ (by omega))
      if 16 ≤ k || ((b.session? k).isSome && d = 0) then b
      else if d = 1 then
        let mine := mine.filter fun e => state1 e.prev ≠ state1 e.t.state
        let b := b.sendRecordsIf k .guaranteed span 12 ((mine.take budget).map (record1 w.w1 b.nz.tClose))
        b.sendRecordsIf k .bestEffort span 12 ((mine.drop budget).map (record1 w.w1 b.nz.tClose))
      else
        let b := b.sendRecordsIf k .guaranteed span 32 ((mine.take budget).map (eventRecord 1 0 w.gen w.w1 b.nz.tClose))
        let b := b.sendRecordsIf k .bestEffort span 32 ((mine.drop budget).map (eventRecord 1 1 w.gen w.w1 b.nz.tClose))
        b.sendRecordsIf k (if mine.length ≤ budget then .guaranteed else .behind) span 32 [windowEnd mine.length w.gen w.w1 b.nz.tClose]

/-! ### The window's close (R208, R217, R218) -/

/-- Where the running window ends: the next multiple of W block frames, or an apply line before it. -/
def Bar.windowEndLine (b : Bar) : Nat :=
  let st := b.setAt b.nz.winStart
  let len := max 1 (b.pN st 0x2600 2) * 4096
  let next := (b.nz.winStart / len + 1) * len
  (b.cap.sets.map (·.line)).foldl (fun m a => if b.nz.winStart < a then min m a else m) next

/-- The running window ends at a line. -/
def Bar.endWindow (b : Bar) (w1 : Nat) : Bar :=
  if b.nz.winStart < w1 then
    b.modNz fun z =>
      { z with ended := z.ended ++ [⟨z.winNumber, z.winStart, w1, b.genAt z.winStart⟩], winNumber := z.winNumber + 1, winStart := w1 }
  else b

/-- An evidence window boundary has been reached. -/
def Bar.windowBoundary (b : Bar) : Bar :=
  if b.ecat.session && decide (b.windowEndLine ≤ b.lines) then b.endWindow b.windowEndLine else b

/-- The commands received before t_close, in order of receipt, an SDO before a head controller at one tick. -/
def Nozzle.dueCmds (z : Nozzle) (t : Nat) : List TrackCmd :=
  (z.cmds.filter fun c => decide (c.time < t)).mergeSort fun x y =>
    decide (x.time < y.time) || (x.time = y.time && (x.ack.isNone || y.ack.isSome))

/-- A command applied to its range: the bar, and how many tracks it changed. -/
def Bar.runTrackCmd (b : Bar) (c : TrackCmd) : Bar × Nat :=
  (List.range (c.stop - c.first)).foldl (fun (x : Bar × Nat) a =>
    match c.op.run (x.1.track (c.first + a)) with
    | some t => (x.1.setTrack (c.first + a) t, x.2 + 1)
    | none => x) (b, 0)

/-- An ACK record (R222). -/
def ackRecord (result changed tag : Nat) : List Byte := leBytes 16 (0x11 + result * 2 ^ 8 + changed * 2 ^ 16 + tag * 2 ^ 64)

/-- A command takes effect, and its sender learns how many tracks it changed (R216, R222). -/
def Bar.takeTrackCmd (b : Bar) (c : TrackCmd) : Bar :=
  let (b, changed) := b.runTrackCmd c
  let b := b.modNz fun z => { z with unchanged := c.stop - c.first - changed }
  match c.ack with
  | none => b
  | some (k, tag) => b.sendRecords k .guaranteed none 16 [ackRecord 0 changed tag]

/-- A track's observations enter, the content one first, then those of the ladders that ended in the window, in order. Tracks that
share theirs take the content observation of the first of them (DESIGN CHOICE, log 113), and the ladder ones of all. -/
def Bar.observeTrack (b : Bar) (w : NzWindow) (acc : Bar × List (Nat × Int)) (i : Nat) : Bar × List (Nat × Int) :=
  let st := b.setAt w.w0
  let t := b.track i
  let group := b.observedWith i t
  let first := group.headD i
  let c := b.contentObs w first (b.track first)
  let t := match c with
    | some (out, dev, valid, _) => b.observe st t ⟨out, dev, valid, false, b.obsClass st out dev valid, w.number % 256⟩
    | none => t
  let t := if t.mapped then
      (b.nz.ladderObs.filter fun o => decide (o.track ∈ group)).foldl (fun t o =>
        b.observe st t ⟨o.out, o.dev, o.devValid, true, b.obsClass st o.out o.dev o.devValid, w.number % 256⟩) t
    else t
  (acc.1.setTrack i t, match c with | some (_, _, _, some s) => acc.2 ++ [(t.module, s)] | _ => acc.2)

/-- The drift that content shows (R205). -/
def Bar.contentDrift (b : Bar) (shifts : List (Nat × Int)) : Bar :=
  (List.range b.nz.map.length).foldl (fun b m =>
    let vs := (shifts.filter (·.1 = m)).map (·.2)
    let d := median vs
    if 8 ≤ vs.length && decide (8 ≤ d.natAbs) then b.drift m (d / 2) else b) b

/-- The event decision of a track (R218): `s0` before the close, `s1` after the commands, `s2` after its observations,
`s3` at the end. Of a COMPENSATED track it is EVSTATE over the whole close that counts, so that causes cancel; a map reset that
leaves it UNKNOWN is the change to UNKNOWN of Table 7-8 (DEDUCED, log 182). -/
def eventOf (i : Nat) (s0 s1 s2 s3 : Track) (reset : Bool) : Option NzEvent :=
  let comp := s3.host = .compensated && s3.ev ≠ s0.ev
  if s3.state ≠ s3.evented || comp then
    some ⟨i, s3.evented, s3, reset && (s3.state ≠ s2.state || (comp && s3.ev ≠ s2.ev)), s1.state ≠ s0.state, comp && s3.ev.fault⟩
  else none

/-- A track's record after the decision. -/
def closeTrack (w1 : Nat) (s0 t : Track) (event : Bool) : Track :=
  let moved := t.state ≠ s0.state
  { t with
    lastChange := if moved then w1 % 2 ^ 32 else t.lastChange
    events := if moved then min 65535 (t.events + 1) else t.events
    evented := if event then t.state else t.evented }

/-- The hub holds the last streak word of a window from every segment: they are spread over the 256 lines that follow the
completion of its last line (R208). -/
def Bar.streakWordsHeld (b : Bar) (w1 : Nat) : Bool :=
  let last := w1 - 1 + b.completeAfter (b.setAt (w1 - 1)) + 256
  b.lineComplete (w1 - 1) && decide (last < b.lines) && b.heldTo last

/-- The evidence window that ended first closes (R217). -/
def Bar.windowClose (b : Bar) : Bar :=
  match b.nz.ended with
  | [] => b
  | w :: rest =>
    if b.ecat.session && !b.streakWordsHeld w.w1 then b
    else
      let t0 := b.nz.tracks
      let due := b.nz.dueCmds b.now
      let b := b.modNz fun z =>
        { z with ended := rest, tClose := b.now, nClose := w.w1, genClose := w.gen, closed := sat32 z.closed
                 cmds := z.cmds.filter fun c => decide (b.now ≤ c.time) }
      let b := due.foldl (fun b c => b.takeTrackCmd c) b
      let t1 := b.nz.tracks
      let seen := b.nz.tracks.filterMap fun e => if e.2.mapped then some e.1 else none
      let (b, shifts) := seen.foldl (b.observeTrack w) (b, [])
      let b := (b.modNz fun z => { z with ladderObs := [] }).contentDrift shifts
      let t2 := b.nz.tracks
      let (b, reset) := b.mapLive
      let keys := b.nz.tracks.map (·.1)
      let events := keys.filterMap fun i =>
        eventOf i (findTrack t0 i) (findTrack t1 i) (findTrack t2 i) (b.track i) (i ∈ reset)
      let b := keys.foldl (fun b i => b.setTrack i (closeTrack w.w1 (findTrack t0 i) (b.track i) (events.any (·.track = i)))) b
      (List.range 16).foldl (fun b j => b.sendEvents w events j) b

/-! ### Late events, serial frames and resynchronisation -/

/-- The late frames of a port's queue marked. -/
def Bar.markLate (b : Bar) (p : Fin 4) : Bar :=
  b.modPort p fun x => { x with queue := x.queue.map fun f => if lateDue b.now f then (b.marked f).1 else f }

/-- The late frames of the ports' queues, each datagram once though both its ports still hold it (R220, R304). -/
def Bar.lateFrames (b : Bar) : List Frame :=
  let all := (List.finRange 4).flatMap fun p => (b.dlv.ports[p]).queue.filter (lateDue b.now)
  all.foldl (fun fs f => if fs.any fun x => x.peer = f.peer && x.bytes = f.bytes then fs else fs ++ [f]) []

/-- Guaranteed events, of whichever window, that are still to be sent after D_nozzle (R220): they carry LATE and are counted,
and each window is logged once. The copies kept for REPLAY are of the datagrams as they go out (R313). -/
def Bar.nozzleLate (b : Bar) : Bar :=
  let frames := b.lateFrames
  let overdue (f : SerialFrame) : Bool := f.guaranteed && decide (f.due < b.now) && !bit f.payload 38
  let serial := b.nz.serial.filter overdue
  let events := (frames.map fun f => (b.marked f).2).sum
  let b' := frames.foldl (fun x f => x.renewHeld f (b.marked f).1.bytes) ((List.finRange 4).foldl (fun b p => b.markLate p) b)
  let b' := b'.modNz fun z => { z with serial := z.serial.map fun f => if overdue f then { f with payload := f.payload ||| 2 ^ 38 } else f }
  let b' := if frames.isEmpty then b' else b'.lateDatagrams frames.length
  b'.lateEvents (events + serial.length) (serial.map (fun f => (f.sub, f.w1)) ++ frames.flatMap fun f => f.windows (b.marked f).2)

/-- CRC-16 of a serial frame: polynomial 0x1021, most significant bit first. -/
def crc16Shift : Nat → Nat → Nat
  | 0, r => r
  | k + 1, r => crc16Shift k (if 0x8000 ≤ r then (r * 2 % 65536).xor 0x1021 else r * 2)
def crc16 (bs : List Byte) : Nat := bs.foldl (fun r x => crc16Shift 8 (r.xor (x.toNat * 256))) 0xFFFF

/-- The 12 bytes of a serial frame (R225). -/
def serialBytes (seq payload : Nat) : List Byte :=
  let body := [0xA5] ++ leBytes 1 seq ++ leBytes 8 payload
  body ++ beBytes 2 (crc16 body)

/-- A subscriber's oldest serial frame enters its channel's command queue when all three words have room (R225, R369). A
guaranteed event that is sent after its deadline carries LATE (R220). -/
def Bar.serialWrite (b : Bar) (j : Fin 16) : Bar :=
  match b.nz.serial.find? (·.sub = j.val) with
  | none => b
  | some f =>
    let k := pinAt (b.subN j.val 6)
    if b.rwN (0x2A10 + k.val) 3 = 2 && decide (3 ≤ b.cqRoom k) then
      let late := f.guaranteed && decide (f.due < b.now) && !bit f.payload 38
      let b := if late then b.lateEvents 1 [(j.val, f.w1)] else b
      let bytes := serialBytes (b.nz.serialSeq[j]) (if late then f.payload ||| 2 ^ 38 else f.payload)
      let words := (List.range 3).map fun i => BitVec.ofNat 32 (leAt bytes (4 * i) 4)
      (b.modNz fun z => { z with serial := z.serial.eraseP (·.sub = j.val), serialSeq := vmod z.serialSeq j fun q => (q + 1) % 256 }).pushCq k words
    else b

/-- RESYNC records of tracks [first, stop) to a peer, BEST_EFFORT (R221). -/
def Bar.resync (b : Bar) (k first stop : Nat) : Bar :=
  let recs := (List.range (stop - first)).map fun a =>
    let i := first + a
    let t := b.track i
    eventRecord 3 1 b.nz.genClose b.nz.nClose b.nz.tClose ⟨i, t.evented, t, false, false, false⟩
  b.sendRecordsIf k .bestEffort none 32 recs

/-- Enabled KSP subscribers that name a peer. -/
def Bar.peerSubs (b : Bar) (k : Nat) : List Nat := (List.range 16).filter fun j => b.subOn j && b.subN j 4 = 0 && b.subN j 6 = k

/-- The dialect negotiated with a peer (R224): 0 if none is common. -/
def Bar.negotiate (b : Bar) (k lo hi : Nat) : Nat :=
  let top := ((b.peerSubs k).map fun j => b.subN j 5).foldl min 2
  if lo ≤ 2 && 2 ≤ hi && 2 ≤ top then 2 else if lo ≤ 1 && 1 ≤ hi && 1 ≤ top then 1 else 0

/-- The dialect negotiated with a peer: every KSP subscriber of the peer gets it, whenever it was enabled (R224). -/
def Bar.setDialect (b : Bar) (k : Nat) (d : Nat) : Bar :=
  b.modNz fun z => { z with dialect := Vector.ofFn fun (j : Fin 16) => if j.val = k then d else z.dialect[j] }

/-- 0x263n:08 of a subscriber. -/
def Bar.subDialect (b : Bar) (j : Nat) : Nat :=
  if b.subOn j && b.subN j 4 = 0 && decide (b.subN j 6 < 16) then b.nz.dialect[b.subN j 6 % 16]'(Nat.mod_lt _ (by omega)) else 0

/-- A COMMAND record of a head controller at peer k (R222). SNAPSHOT asks for the tracks its record names (DEDUCED, log entry
114). -/
def Bar.commandRecord (b : Bar) (k : Nat) (r : List Byte) : Bar :=
  let code := leAt r 1 1
  let first := leAt r 2 3
  let stop := leAt r 5 3
  let tag := leAt r 8 8
  let answer (b : Bar) (res : Nat) : Bar := b.sendRecords k .guaranteed none 16 [ackRecord res 0 tag]
  let refuse (b : Bar) (res : Nat) : Bar := (answer b res).logEvent 0x6026 0
  let inside := (b.peerSubs k).any fun j => decide (b.subN j 2 ≤ first) && decide (first < stop) && decide (stop ≤ b.subN j 3)
  if code = 6 then (if inside then (answer b 0).resync k first stop else refuse b 1)
  else match TrackOp.ofCode code with
    | none => refuse b 2
    | some op => if inside then b.queueTrackCmd op first stop (some (k, tag)) else refuse b 1

/-- How many tracks are in each reported state, all 1,048,576 counted. -/
def Bar.trackCount (b : Bar) (state : Nat) : Nat :=
  let n := b.nz.tracks.countP fun e => e.2.state = state
  if state = 0 then n + (1048576 - b.nz.tracks.length) else n

end Sys2Proof.Machine
end

