-- ==== Sys2Proof/Machine/Thermal.lean ====
section
/-! DEFINITION. Temperature sensors, throttling, hardware shutdown, slack and the core supply (chapter 14, R20 to R22). -/

namespace Sys2Proof.Machine

def Bar.modThm (b : Bar) (f : Thermal → Thermal) : Bar := { b with thm := f b.thm }
def Bar.modSensor (b : Bar) (i : Fin 26) (f : Sensor → Sensor) : Bar := b.modThm fun t => { t with sensors := vmod t.sensors i f }

/-! ### Sensor configuration (Table 14-9) -/

/-- A sensor's configuration word as it is written. -/
def Bar.sensorCfg (b : Bar) (i : Nat) : Nat := b.rwN 0x2C02 (i + 1)
/-- A setting of 0x2C02 to 0x2C10 in force (R415): as it stood at the last filtered sample; before the first one, as it
stands. DESIGN CHOICE (log 142): the rule does not say whose next filtered sample puts a setting in force; any sensor's does. -/
def Bar.forceI (b : Bar) (index sub : Nat) : Int := (b.thm.inForce.getD b.par.rw).numAt b.segs index sub
/-- A sensor's configuration word in force. -/
def Bar.cfgNow (b : Bar) (i : Nat) : Nat := (b.forceI 0x2C02 (i + 1)).toNat
def cfgType (w : Nat) : Nat := bits w 1 0
def cfgInput (w : Nat) : Nat := bits w 5 2
def cfgRole (w : Nat) : Nat := bits w 7 6
def cfgSub (w : Nat) : Nat := bits w 20 16
def cfgSubEn (w : Nat) : Bool := bit w 21

/-- The part has the sensor's diode or input, and it is not off. -/
def Bar.sensorOn (b : Bar) (i : Nat) : Bool :=
  if i < 16 then decide (i / 2 < b.segs) else if i < 18 then true
  else decide (i < 26) && (cfgType (b.cfgNow i) = 1 || cfgType (b.cfgNow i) = 2)

/-- The part has the sensor, be it off: a remote one, or an on-die diode of a die that is there (R396). -/
def Bar.sensorThere (b : Bar) (i : Nat) : Bool := decide (16 ≤ i) || decide (i / 2 < b.segs)

/-- A threshold in force. -/
def Bar.threshold (b : Bar) (i level : Nat) : Int := b.forceI (0x2C03 + level) (i + 1)

/-- A filtered value within 5 K of a threshold, that bound included (R397). -/
def Bar.sensorFast (b : Bar) (i : Fin 26) : Bool :=
  match (b.thm.sensors[i]).filtered with
  | some x => (List.range 3).any fun l => decide ((x - b.threshold i.val l).natAbs ≤ 80)
  | none => false

/-- The sensor a failed one's classes are driven by (R407). -/
def Bar.substitute (b : Bar) (i : Fin 26) : Option (Fin 26) :=
  let w := b.cfgNow i.val
  if cfgSubEn w && (b.thm.sensors[i]).failed then
    if h : cfgSub w < 26 then some ⟨cfgSub w, h⟩ else none
  else none

/-- What a sensor drives its classes with. -/
def Bar.driveOf (b : Bar) (i : Fin 26) : Nat :=
  let s := b.thm.sensors[i]
  if !b.sensorOn i.val then 0
  else if s.failed then
    match b.substitute i with
    | some j => if (b.thm.sensors[j]).failed || !b.sensorOn j.val then 8 else s.demand
    | none => 8
  else s.demand

/-- The demanded step of a class (R403): control bit 8 is class B, 9 is class P. -/
def Bar.demanded (b : Bar) (ctl : Nat) : Nat :=
  ((List.finRange 26).map fun i => if bit (b.cfgNow i.val) ctl then b.driveOf i else 0).foldl max 0

/-- The class P step last decided. -/
def Bar.decidedP (b : Bar) : Nat := match b.cap.pstepDue.getLast? with | some p => p.2 | none => b.cap.pstep

/-- A new class P demand is decided at the live line, or takes effect at once outside a session (R403, R120). -/
def Bar.settleSteps (b : Bar) : Bar :=
  let p := b.demanded 9
  if p = b.decidedP then b
  else if b.ecat.session then
    b.modCap fun c => { c with pstepDue := c.pstepDue ++ [(ceilDiv (b.liveLine + 64) 4096 * 4096, p)] }
  else (b.modCap fun c => { c with pstepDue := [] }).applyPStep p true

/-- A class B step takes effect (R403, R405). -/
def Bar.settleB (b : Bar) : Bar :=
  let k := b.demanded 8
  if k = b.thm.bStep then b else (b.modThm fun t => { t with bStep := k }).logEvent 0xC026 (b.thm.bStep * 256 + k)

/-! ### Decisions on a filtered value -/

/-- The filtered value (R397): the mean of the two middle values of the last four raw samples, towards minus infinity. -/
def filterRaws (raws : List Int) : Option Int :=
  if raws.length < 4 then none
  else
    let s := (raws.take 4).mergeSort (· ≤ ·)
    some ((s.getD 1 0 + s.getD 2 0) / 2)

/-- The value nearest to two seconds ago, the earlier of two as near (R401); newest first. -/
def twoSecondsAgo (now : Nat) (hist : List (Nat × Int)) (x : Int) : Int :=
  let goal := now - 2000000000
  let dist (t : Nat) : Nat := if t < goal then goal - t else t - goal
  (hist.foldl (fun (best : Nat × Int) e => if dist e.1 ≤ dist best.1 then e else best) (now, x)).2

/-- The rate of rise that the rule compares, in 1/16 K/s: the rise over two seconds, halved. -/
def riseRate (now : Nat) (hist : List (Nat × Int)) (x : Int) : Int := (x - twoSecondsAgo now hist x) / 2

/-- ARG of a sensor's entries (Table 11-17): its index and an INTEGER16. -/
def sensorArg (i : Fin 26) (x : Int) : Nat := i.val * 65536 + unsigned 16 x

/-- History kept: 2 s and the newest sample older than that. -/
def pruneHist (now : Nat) (hist : List (Nat × Int)) : List (Nat × Int) :=
  hist.takeWhile (fun e => decide (now ≤ e.1 + 2000000000)) ++ (hist.dropWhile fun e => decide (now ≤ e.1 + 2000000000)).take 1

/-- Runs and levels after a filtered value. -/
def Bar.sensorLevels (b : Bar) (i : Fin 26) (x : Int) (s : Sensor) : Sensor :=
  let up := Vector.ofFn fun (l : Fin 3) => if b.threshold i.val l.val ≤ x then s.up[l] + 1 else 0
  let dn := Vector.ofFn fun (l : Fin 3) => if x < b.threshold i.val l.val - 48 then s.dn[l] + 1 else 0
  let inLevel := Vector.ofFn fun (l : Fin 3) => if 4 ≤ up[l] then true else if 4 ≤ dn[l] then false else s.inLevel[l]
  let above := decide (2 * b.forceI 0x2C06 (i.val + 1) < x - twoSecondsAgo b.now s.hist x)
  let rateUp := if above then s.rateUp + 1 else 0
  let rateDn := if above then 0 else s.rateDn + 1
  { s with up := up, dn := dn, inLevel := inLevel, rateUp := rateUp, rateDn := rateDn
           rate := if 4 ≤ rateUp then true else if 4 ≤ rateDn then false else s.rate
           hist := pruneHist b.now ((b.now, x) :: s.hist) }

/-- In THROTTLE or CRIT, or RATE set. -/
def Sensor.hot (s : Sensor) : Bool := s.inLevel[1] || s.inLevel[2] || s.rate

/-- The demand after the levels have been decided (R402): `s0` is the sensor before. -/
def Sensor.demandNext (now : Nat) (s0 s : Sensor) : Sensor :=
  let rises := b2n (s.inLevel[1] && !s0.inLevel[1]) + b2n (s.rate && !s0.rate)
  if s.inLevel[2] && !s0.inLevel[2] then { s with demand := 8, stepFrom := some now, leftAt := none }
  else if 0 < rises then { s with demand := min 8 (s.demand + rises), stepFrom := some now, leftAt := none }
  else if s.hot then { s with stepFrom := some (s.stepFrom.getD now), leftAt := none }
  else { s with stepFrom := none, leftAt := if s0.hot || s.leftAt.isNone then (if s.demand = 0 then none else some now) else s.leftAt }

/-- Some on-die sensor is in CRIT. -/
def Bar.dieCrit (b : Bar) : Bool := (List.finRange 26).any fun i => decide (i.val < 18) && (b.thm.sensors[i]).inLevel[2]

/-- Entry into CRIT of an on-die sensor (Table 14-2). -/
def Bar.dieCritical (b : Bar) (i : Fin 26) (x : Int) : Bar :=
  let b := b.logAt 0xC022 (sensorArg i x) 3
  let b := b.engage 0xC022 fun c => { c with crit := true }
  (b.modThm fun t => { t with critSealed := true, critClear := none }).startSealing

/-- A sensor decides on a filtered value, its own or its substitute's. -/
def Bar.decideSensor (b : Bar) (i : Fin 26) (x : Int) : Bar :=
  let s0 := b.thm.sensors[i]
  let s := (b.sensorLevels i x s0).demandNext b.now s0
  let before := b.dieCrit
  let b := b.modSensor i fun _ => s
  let b := if s.inLevel[0] && !s0.inLevel[0] then b.logEvent 0xC020 (sensorArg i x) else b
  let b := if s.inLevel[1] && !s0.inLevel[1] then b.logEvent 0xC021 (sensorArg i x) else b
  let b := if s.rate && !s0.rate then b.logEvent 0xC023 (sensorArg i (riseRate b.now s0.hist x)) else b
  let b := if s.inLevel[2] && !s0.inLevel[2] then (if i.val < 18 then b.dieCritical i x else b.logAt 0xC022 (sensorArg i x) 2) else b
  let b := if before && !b.dieCrit then
      (b.clearCause fun c => { c with crit := false }).modThm fun t => { t with critClear := some b.now }
    else b
  b.settleSteps

/-- A failed sensor that a substitute has been assigned to starts from demand 8 (R407). -/
def Bar.assigned (b : Bar) (i : Fin 26) (old : Nat) : Bar :=
  let w := b.cfgNow i.val
  if cfgSubEn w && (!cfgSubEn old || cfgSub old ≠ cfgSub w) && (b.thm.sensors[i]).failed then
    b.modSensor i fun s => { s with demand := 8, stepFrom := if s.hot then some b.now else none, leftAt := if s.hot then none else some b.now }
  else b

/-- Does an object take effect at the next filtered sample (R415): configuration, thresholds, rate limits, intervals? -/
def atFiltered (key : Nat) : Bool := decide (0x2C02 ≤ key / 256) && decide (key / 256 ≤ 0x2C06) || key / 256 = 0x2C10

/-- A filtered sample puts the settings in force as they are written. -/
def Bar.settingsInForce (b : Bar) : Bar :=
  let old := (List.finRange 26).map fun i => (i, b.cfgNow i.val)
  old.foldl (fun b o => b.assigned o.1 o.2) (b.modThm fun t => { t with inForce := some (b.par.rw.filter fun e => atFiltered e.1) })

/-- A filtered value of a sensor puts the settings in force and reaches the sensor and those it substitutes. -/
def Bar.filteredValue (b : Bar) (i : Fin 26) (x : Int) : Bar :=
  let b := b.settingsInForce.modSensor i fun s => { s with filtered := some x }
  let b := b.decideSensor i x
  (List.finRange 26).foldl (fun b j => if j ≠ i && b.substitute j = some i then b.decideSensor j x else b) b

/-- A sensor's rounds: of 1 ms while it is FAST, else of 8 ms (R397). -/
def Bar.sensorRound (b : Bar) (i : Fin 26) : Nat := if b.sensorFast i then 1000000 else 8000000

/-- Has the sensor been measured in its present round? -/
def Bar.measuredNow (b : Bar) (i : Fin 26) : Bool :=
  match (b.thm.sensors[i]).sampledAt with | some t => decide (b.now / b.sensorRound i ≤ t / b.sensorRound i) | none => false

/-- A conversion of the sensor is due: one in each of its rounds, the rounds of 8 ms in ascending index order, and one
conversion in a slot of 25 µs (R397). -/
def Bar.sensorDue (b : Bar) (i : Fin 26) : Bool :=
  !b.measuredNow i && (match b.thm.slotAt with | some t => decide (t / 25000 < b.now / 25000) | none => true)
    && (b.sensorFast i || (List.finRange 26).all fun j => decide (j ≤ i) || b.sensorFast j || !b.measuredNow j)

/-- The bits of a binary logarithm behind its point, by squaring: `x` in [2^63, 2^64) stands for x / 2^63. -/
def logBits : Nat → Nat → Nat → Nat
  | 0, _, acc => acc
  | n + 1, x, acc =>
    let y := x * x / 2 ^ 63
    if 2 ^ 64 ≤ y then logBits n (y / 2) (2 * acc + 1) else logBits n y (2 * acc)

/-- The binary logarithm of a positive number in units of 2^−48, rounded down. -/
def log2Fix (n : Nat) : Nat := logBits 48 (n * 2 ^ 63 / 2 ^ n.log2) n.log2

/-- The temperature of an NTC in 1/16 °C by the B equation, 1/T = 1/T25 + ln(R/R25)/B (R397), with T25 = 298.15 K = 5963/20 K
and ln 2 to 53 bits. PRESUMED (log 90): the equation's form and T25, which R397 does not write out. DESIGN CHOICE (log 90): the
logarithm to 2^−48, rounding down, and the top of INTEGER16 where the equation gives no temperature or more. -/
def ntcTemperature (r25 beta ohms : Nat) : Int :=
  let l := ((log2Fix ohms : Int) - log2Fix r25) * 6243314768165359 / 2 ^ 53
  let den := 20 * 2 ^ 48 * (beta : Int) + 5963 * l
  if ohms = 0 ∨ den ≤ 0 then 32767
  else min 32767 ((160 * (5963 * 2 ^ 48 * (beta : Int)) - 43704 * den) / (10 * den))

/-- The raw sample of a reading, in 1/16 °C (R397). A diode's reading is the ΔV_BE of the two currents as the absolute
temperature in 1/16 K that it shows at ideality 1, divided by the ideality (the die's fused one, or 0x2C07); an NTC's is its
resistance in Ω, taken through the B equation. DESIGN CHOICE (log 90): the reading's unit, and rounding down to 1/16 °C. -/
def Bar.sensorTemp (b : Bar) (i : Fin 26) (reading : Nat) : Int :=
  let kelvin (ideality : Nat) : Int := (((reading * 100000 / max 1 ideality : Nat) : Int) - 43704) / 10
  if i.val < 16 then kelvin (Config.fusedIdeality (i.val / 2))
  else if i.val < 18 then kelvin (Config.fusedIdeality 8)
  else if cfgType (b.cfgNow i.val) = 2 then ntcTemperature (b.rwN 0x2C08 (i.val - 17)) (b.rwN 0x2C09 (i.val - 17)) reading
  else kelvin (b.rwN 0x2C07 (i.val - 17))

/-- Since when a sensor of a shut-down bar has read below 95 °C, after one more such reading: the readings follow each other
in neighbouring milliseconds, and a millisecond without one ends the run (R409). -/
def coolSince (now : Nat) : Option (Nat × Nat) → Nat
  | some (since, last) => if now / 1000000 ≤ last / 1000000 + 1 then since else now
  | none => now

/-- In a shutdown the thermal domain measures an on-die sensor once in every millisecond: it notes since when the sensor has
read below 95 °C without interruption, and when it was last read so (R409). -/
def Bar.coolSample (b : Bar) (i : Fin 26) (raw : Int) (flagged : Bool) : Bar :=
  if decide (18 ≤ i.val) then b
  else b.modSensor i fun s =>
    { s with cool := if flagged || decide (1520 ≤ raw) then none else some (coolSince b.now s.cool, b.now) }

/-- A conversion slot measures a sensor (R397, R399): a reading, or one the converter flags. A sample out of range takes part
in the filter until the sensor is FAILED (DEDUCED, log 90). A sensor that is off raises its levels too, and drives no class
(R402). -/
def Bar.sensorSample (b : Bar) (i : Fin 26) (reading : Nat) (flagged : Bool) : Bar :=
  let raw := b.sensorTemp i reading
  if !b.sensorThere i.val then b
  else if b.saf.power = .shutdown then b.coolSample i raw flagged
  else if !b.sensorDue i then b
  else
    let bad := flagged || decide (raw < -640) || decide (2400 < raw)
    let b := b.modThm fun t => { t with slotAt := some b.now }
    let s0 := b.thm.sensors[i]
    let s := { s0 with raws := (raw :: s0.raws).take 4, sampledAt := some b.now, badRun := if bad then s0.badRun + 1 else 0, goodRun := if bad then 0 else s0.goodRun + 1 }
    if s0.failed then
      if 16 ≤ s.goodRun then
        let b := (b.modSensor i fun _ => { s with failed := false, up := Vector.replicate 3 0, dn := Vector.replicate 3 0 }).logEvent 0xC025 (i.val * 65536)
        match filterRaws s.raws with
        | some x => b.filteredValue i x
        | none => b
      else b.modSensor i fun _ => s
    else if 4 ≤ s.badRun then ((b.modSensor i fun _ => { s with failed := true }).logEvent 0xC024 (i.val * 65536)).settleSteps
    else
      let b := b.modSensor i fun _ => s
      match filterRaws s.raws with
      | some x => b.filteredValue i x
      | none => b

/-- Step-up and step-down intervals in ns. -/
def Bar.stepUp (b : Bar) : Nat := (b.forceI 0x2C10 1).toNat * 1000000
def Bar.stepDown (b : Bar) : Nat := (b.forceI 0x2C10 2).toNat * 1000000

/-- A step-up interval spent hot raises the demand (R402). -/
def Bar.demandUp (b : Bar) (i : Fin 26) : Bar :=
  let s := b.thm.sensors[i]
  match s.stepFrom with
  | some t =>
    if s.hot && decide (t + b.stepUp ≤ b.now) then
      (b.modSensor i fun s => { s with demand := min 8 (s.demand + 1), stepFrom := some (t + b.stepUp) }).settleSteps
    else b
  | none => b

/-- A step-down interval after leaving THROTTLE lowers the demand (R402). -/
def Bar.demandDown (b : Bar) (i : Fin 26) : Bar :=
  let s := b.thm.sensors[i]
  match s.leftAt with
  | some t =>
    if !s.hot && decide (0 < s.demand) && decide (t + b.stepDown ≤ b.now) then
      (b.modSensor i fun s => { s with demand := s.demand - 1, leftAt := if s.demand ≤ 1 then none else some (t + b.stepDown) }).settleSteps
    else b
  | none => b

/-! ### Writes of sensor objects -/

/-- Whether a configuration word is refused, and with which code (R398, R407). -/
def Bar.sensorCfgRefused (b : Bar) (i : Fin 26) (w : Nat) : Option Nat :=
  let old := b.sensorCfg i.val
  let die := decide (i.val < 18)
  let on (w : Nat) : Bool := cfgType w ≠ 0
  if cfgType w = 3 || bits w 15 10 ≠ 0 || (die && cfgInput w ≠ 0) || (!die && cfgRole w = 0) then some 0xC001
  else if die && (cfgType w ≠ cfgType old || cfgRole w ≠ cfgRole old) then some 0xC004
  else if !die && decide (b.segs ≤ cfgInput w / 2) then some 0xC004
  else if !die && on w && (List.range 8).any fun j => 18 + j ≠ i.val && on (b.sensorCfg (18 + j)) && cfgInput (b.sensorCfg (18 + j)) = cfgInput w
    then some 0xC004
  else if cfgSubEn w then
    if h : cfgSub w < 26 then
      let j : Fin 26 := ⟨cfgSub w, h⟩
      if j = i || (b.thm.sensors[j]).failed || !b.sensorOn j.val || cfgSubEn (b.sensorCfg j.val) then some 0xC005 else none
    else some 0xC005
  else none

/-- WARN < THROTTLE < CRIT would break (R400). -/
def Bar.thresholdBroken (b : Bar) (i level : Nat) (v : Int) : Bool :=
  let t (l : Nat) : Int := if l = level then v else b.rwI (0x2C03 + l) (i + 1)
  !(decide (t 0 < t 1) && decide (t 1 < t 2))

/-- The status word (Table 14-8). -/
def Bar.sensorStatus (b : Bar) (i : Fin 26) : Nat :=
  let s := b.thm.sensors[i]
  (if s.inLevel[2] then 3 else if s.inLevel[1] then 2 else b2n s.inLevel[0]) + b2n s.rate * 4 + b2n (b.sensorFast i) * 8
    + b2n s.failed * 16 + b2n (b.substitute i).isSome * 32 + b2n (!b.sensorOn i.val) * 64 + s.demand * 256

/-- The hottest sensor, none before a filtered value. -/
def Bar.hottest (b : Bar) : Option (Nat × Int) :=
  (List.finRange 26).foldl (fun (best : Option (Nat × Int)) i =>
    match (if b.sensorOn i.val then (b.thm.sensors[i]).filtered else none), best with
    | some x, some (_, y) => if y < x then some (i.val, x) else best
    | some x, none => some (i.val, x)
    | none, _ => best) none

/-- The hottest value of the sensors of role FLASH; a failed one without a substitute counts as at CRIT (R407). -/
def Bar.flashHottest (b : Bar) : Int :=
  (List.finRange 26).foldl (fun (m : Int) i =>
    if b.sensorOn i.val && cfgRole (b.cfgNow i.val) = 2 then
      let s := b.thm.sensors[i]
      max m (if s.failed then match b.substitute i with
          | some j => (b.thm.sensors[j]).filtered.getD (-640)
          | none => b.threshold i.val 2
        else s.filtered.getD (-640))
    else m) (-640)

/-- Storage sealed for an on-die CRIT resumes (Table 14-2), unless PFAIL_N keeps it sealed. -/
def Bar.critSealResume (b : Bar) : Bar :=
  match b.thm.critClear with
  | some t =>
    if b.thm.critSealed && decide (t + 100000000 ≤ b.now) && b.saf.resetAt.isNone then
      let b := b.modThm fun t => { t with critSealed := false, critClear := none }
      if b.sto.pfail then b else b.reopen
    else b
  | none => b

/-! ### Slack (R20, R21) -/

def locIx (l : Nat) : Fin 9 := ⟨if l < 8 then l else 8, by split <;> omega⟩

/-- Slack in 0.1 % of a replica's cycle time, against the one the live, admitted workload needs of the class (R20), both in
ps; rounded down (DESIGN CHOICE, log 92: R20 states no rounding). -/
def slackOf (need rep : Nat) : Int := ((need : Int) - rep) * 1000 / (max 1 need : Nat)

/-- T_need of a class (R20): a FREE VALUE of the live set; the spec gives no formula for it. -/
def Bar.cycleNeed (b : Bar) (loc cls : Nat) : Nat := Config.cycleNeed b.par.live loc cls

/-- One measurement of the Tightrope: (segment or 8 for the hub, class, T_rep in ps) of every stage class. R21's 8 consecutive
measurements at or below 0 % may be each of another class that carries GUARANTEED work (DESIGN CHOICE, log 92). -/
def Bar.slackMeasure (b : Bar) (ms : List (Nat × Nat × Nat)) : Bar :=
  let xs : List (Nat × Nat × Int) := ms.map fun m => (m.1, m.2.1, slackOf (b.cycleNeed m.1 m.2.1) m.2.2)
  let low := xs.foldl (fun (x : Int) m => min x m.2.2) 1000
  let b := xs.foldl (fun b m => let l := locIx m.1
    if m.2.2 < b.thm.slack[l] then
      b.modThm fun t => { t with slack := vmod t.slack l fun _ => m.2.2, slackCls := vmod t.slackCls l fun _ => m.2.1 }
    else b) b
  let bad := b.withheld = 8 && xs.any fun m => Config.carriesGuaranteed b.par.live m.1 m.2.1 && decide (m.2.2 ≤ 0)
  b.modThm fun t => { t with slackPeak := if ms = [] then t.slackPeak else some (max (t.slackPeak.getD low) low)
                             slackBad := if bad then t.slackBad + 1 else 0 }

/-! ### PMBus (R410 to R412) -/

/-- A transaction goes to the regulator's address, with a PEC byte where 0x2C20:04 = 1 (R410). -/
def Bar.pmbusSend (b : Bar) (cmd : Nat) (data : Option Nat) : Bar :=
  b.modThm fun t => { t with sent := ⟨b.rwN 0x2C20 2, cmd, data, b.rwN 0x2C20 4 = 1⟩ :: t.sent }

/-- A transaction's outcome, its PEC checked where 0x2C20:04 = 1 (R410, R412). -/
def Bar.pecChecked (b : Bar) (reply : PmbusReply) : Option Nat :=
  if b.rwN 0x2C20 4 = 1 && !reply.pec then none else reply.value

/-- Is a write taken: acknowledged, its PEC byte included? -/
def Bar.writeTaken (b : Bar) (ack pec : Bool) : Bool := ack && (b.rwN 0x2C20 4 ≠ 1 || pec)

/-- VOUT_COMMAND of a voltage in mV: V · 2^(−N), rounded to the nearest (R411). -/
def voutCommand (mv : Nat) (n : Int) : Nat :=
  if n ≤ 0 then (2 * mv * 2 ^ n.natAbs + 1000) / 2000 else (2 * mv + 1000 * 2 ^ n.natAbs) / (2000 * 2 ^ n.natAbs)

/-- Two transactions are the same one: a voltage request takes the place of one that waits. -/
def PmbusOp.same : PmbusOp → PmbusOp → Bool
  | .voutMode, .voutMode => true
  | .vout _, .vout _ => true
  | .readVout, .readVout => true
  | .readStatus, .readStatus => true
  | .clearFaults, .clearFaults => true
  | _, _ => false

/-- The retry a transaction waits for. -/
def Thermal.waiting (t : Thermal) (op : PmbusOp) : Option PmbusRetry := t.retries.find? fun r => r.op.same op

def Thermal.notWaiting (t : Thermal) (op : PmbusOp) : List PmbusRetry := t.retries.filter fun r => !r.op.same op

/-- A transaction fails: retried twice, and the third failure is a fault, which leaves VCORE where it is (R21, R412). -/
def Bar.pmbusFail (b : Bar) (op : PmbusOp) : Bar :=
  let n := match b.thm.waiting op with | some r => r.tries + 1 | none => 1
  if 3 ≤ n then
    (b.modThm fun t => { t with retries := t.notWaiting op, pmbusFaults := sat32 t.pmbusFaults
                                avs := if t.avs = .disabled then .disabled else .fault }).logEvent 0xC031 0
  else b.modThm fun t => { t with retries := t.notWaiting op ++ [⟨op, n, b.now⟩] }

/-- A transaction succeeds: it waits no longer, and a FAULT is over (R412). -/
def Bar.pmbusDone (b : Bar) (op : PmbusOp) : Bar :=
  b.modThm fun t => { t with retries := t.notWaiting op, avs := if t.avs = .fault then .active else t.avs }

/-- VOUT_COMMAND is sent; `ok`: the regulator takes it. Without an exponent there is none to send (R411). -/
def Bar.sendVcore (b : Bar) (v : Nat) (ok : Bool) : Bar :=
  match b.thm.vexp with
  | none => b
  | some n =>
    let b := b.pmbusSend 0x21 (some (voutCommand v n))
    if ok then (b.pmbusDone (.vout v)).modThm fun t => { t with vcore := v } else b.pmbusFail (.vout v)

/-- A failed transaction is tried again 1 ms after it failed (R412). -/
def Bar.retryDue (b : Bar) (r : PmbusRetry) : Bool := decide (r.at_ + 1000000 ≤ b.now)

/-- Another VCORE is requested, within 550 to 850 mV (R410, R411). While a request waits for its retry, the new one is that
retry: it is sent when the retry is due, and takes its voltage along until then. -/
def Bar.requestVcore (b : Bar) (mv : Nat) (ok : Bool) : Bar :=
  let v := max 550 (min 850 mv)
  if b.thm.avs = .disabled || b.thm.avs = .fault then b
  else match b.thm.waiting (.vout v) with
    | some r =>
      if b.retryDue r then b.sendVcore v ok else b.modThm fun t => { t with retries := t.notWaiting (.vout v) ++ [{ r with op := .vout v }] }
    | none => b.sendVcore v ok

/-- More VCORE is asked for, or the limit is marked (R21, R412). -/
def Bar.raiseVcore (b : Bar) (ok : Bool) : Bar :=
  if b.thm.vcore < 850 then b.requestVcore (b.thm.vcore + 10) ok
  else if b.thm.avs = .active then (b.modThm fun t => { t with avs := .atLimit }).logEvent 0xC033 0 else b

/-- The Tightrope's own withheld tokens move by an eighth (R21). -/
def Bar.moveTokens (b : Bar) (low : Int) : Bar :=
  let hold := decide (low < 50) || (b.thm.withholding && decide (low < 100))
  let w := b.thm.withheld
  let b := b.modThm fun t => { t with withholding := hold, withheld := if hold then min 8 (w + 1) else w - 1 }
  if hold && w = 0 then b.logEvent 0xC034 0 else b

/-- A 1 ms interval of the Tightrope ends. One without a measurement decides nothing (DESIGN CHOICE, log 92: the Tightrope
measures every microsecond). `ok`: the regulator takes a request the interval makes. -/
def Bar.slackInterval (b : Bar) (ok : Bool) : Bar :=
  match b.thm.slackPeak with
  | none => b
  | some peak =>
    let t := b.thm
    let floor : Int := b.rwI 0x2C20 1 * 10
    let (low, loc) := (List.finRange 9).foldl (fun (x : Int × Fin 9) l => if t.slack[l] < x.1 then (t.slack[l], l) else x) (t.slack[8], 8)
    let start := b.now - 1000000
    let high := if floor + 100 < low then some (t.highSince.getD start) else none
    let okSince := if floor ≤ low then some (t.okSince.getD start) else none
    let below := decide (peak < floor)
    let b := b.modThm fun t =>
      { t with lastSlack := t.slack, lastLoc := (if loc.val = 8 then 0xFF else loc.val) + t.slackCls[loc] * 256
               slack := Vector.replicate 9 1000, slackCls := Vector.replicate 9 0, slackPeak := none, highSince := high, okSince := okSince
               avs := if !below && t.avs = .atLimit then .active else t.avs }
    let b := b.moveTokens low
    let b := if below then b.raiseVcore ok else b
    match okSince with
    | some t0 => if t0 + 100000000 ≤ b.now then b.clearCause fun c => { c with slack := false } else b
    | none => b

/-- Slack has stood high for 100 ms: 5 mV less (R21). -/
def Bar.vcoreLower (b : Bar) (ok : Bool) : Bar :=
  match b.thm.highSince with
  | some t =>
    if t + 100000000 ≤ b.now && decide (550 < b.thm.vcore) then
      (b.modThm fun t => { t with highSince := some b.now }).requestVcore (b.thm.vcore - 5) ok
    else b
  | none => b

/-- Slack engages the Safety Net (R21, R413). -/
def Bar.slackNet (b : Bar) : Bar :=
  if 8 ≤ b.thm.slackBad then
    ((b.modThm fun t => { t with slackBad := 0 }).engage 0xC035 fun c => { c with slack := true }).logEvent 0xC035 0
  else b

/-! ### The PMBus at start, polls and retries (R410 to R412) -/

/-- VOUT_MODE has been read: linear mode, and the start voltage is written; or another mode (R411). -/
def Bar.voutModeRead (b : Bar) (mode : Nat) (ok : Bool) : Bar :=
  let b := b.pmbusDone .voutMode
  if bits mode 7 5 = 0 then
    (b.modThm fun t => { t with vexp := some (signed 5 mode) }).requestVcore (b.rwN 0x2C20 3) ok
  else (b.modThm fun t => { t with avs := .disabled, vcore := b.rwN 0x2C20 3 }).logEvent 0xC030 0

/-- VOUT_MODE is read, at start and in a retry of that read; `ok`: the regulator takes the start voltage that follows. -/
def Bar.readVoutMode (b : Bar) (mode : Option Nat) (ok : Bool) : Bar :=
  let b := b.pmbusSend 0x20 none
  match mode with
  | some m => b.voutModeRead m ok
  | none => b.pmbusFail .voutMode

/-- CLEAR_FAULTS is written. -/
def Bar.clearFaults (b : Bar) (ok : Bool) : Bar :=
  let b := b.pmbusSend 0x03 none
  if ok then b.pmbusDone .clearFaults else b.pmbusFail .clearFaults

/-- READ_VOUT is read: three in a row off the request by more than 20 mV are logged (R412). -/
def Bar.readVout (b : Bar) (answer : Option Nat) : Bar :=
  let b := b.pmbusSend 0x8B none
  match answer with
  | some v =>
    let n := if 20 < absDiff v b.thm.vcore then b.thm.mismatch + 1 else 0
    let b := (b.pmbusDone .readVout).modThm fun t => { t with vread := v, mismatch := n }
    if n = 3 then b.logEvent 0xC032 0 else b
  | none => b.pmbusFail .readVout

/-- STATUS_WORD is read; CLEAR_FAULTS follows one that shows a fault (R410). -/
def Bar.readStatus (b : Bar) (answer : Option Nat) (clear : Bool) : Bar :=
  let b := b.pmbusSend 0x79 none
  match answer with
  | some w =>
    let b := (b.pmbusDone .readStatus).modThm fun t => { t with statusWord := w }
    if w ≠ 0 then b.clearFaults clear else b
  | none => b.pmbusFail .readStatus

/-- 100 ms have passed since READ_VOUT and STATUS_WORD were last read (R410). -/
def Bar.pollDue (b : Bar) : Bool := match b.thm.polledAt with | some t => decide (t + 100000000 ≤ b.now) | none => true

/-- The poll of every 100 ms: READ_VOUT in mV and then STATUS_WORD, each answered or not. A read that waits for its retry is
that read. -/
def Bar.pmbusPoll (b : Bar) (vout status : Option Nat) (clear : Bool) : Bar :=
  if b.pollDue then ((b.modThm fun t => { t with polledAt := some b.now }).readVout vout).readStatus status clear else b

/-- The oldest transaction whose retry is due is tried again; to a write an answer only acknowledges it. -/
def Bar.pmbusRetry (b : Bar) (answer : Option Nat) (clear : Bool) : Bar :=
  match b.thm.retries.find? b.retryDue with
  | none => b
  | some r => match r.op with
    | .voutMode => b.readVoutMode answer clear
    | .vout v => b.sendVcore v answer.isSome
    | .readVout => b.readVout answer
    | .readStatus => b.readStatus answer clear
    | .clearFaults => b.clearFaults answer.isSome

end Sys2Proof.Machine
end

