-- ==== Sys2Proof/Machine/Admission.lean ====
section
/-! DEFINITION. The Ticket Booth (R316 to R322, R278, R279): the demand of a set on every resource of Table 10-8 and its
capacity, as exact fractions of the resource's unit. -/

namespace Sys2Proof.Machine

/-! ### SEGMENT (Table 10-9) -/

/-- Lane steps of a converted tile per line; tiles count in host columns. -/
def Bar.tileSteps (b : Bar) (st : Store) (lanes : List AdmLane) (t : Nat) : Nat :=
  let a := 256 * t
  let m := b.binM st
  let here := lanes.filter fun l => decide (0 < overlap a (a + 256) l.c0 l.c1)
  let on (s : Nat) : Bool := !(b.routedShares st s).isEmpty &&
    decide (0 < overlap a (a + 256) (b.pN st (streamObj s) 4) (b.pN st (streamObj s) 5))
  let ress := (([0, 1, 2].filter on).map (b.streamRes st) ++ here.map (·.res)).eraseDups
  let ncp (l : AdmLane) : Nat := ceilDiv (overlap a (a + 256) l.c0 l.c1) l.w
  let reg := (here.map fun l => ceilDiv (ncp l * (2 * l.hx + 1) * (2 * l.hy + 1)) (16 * l.span)).sum
  let diff := (here.map fun l => ceilDiv (ncp l * (2 + 8 * l.t)) (16 * l.span)).sum
  let streak := if b.admTracking st && !here.isEmpty then
      ((b.share st fun c => c = b.pN st 0x2600 3).scale (16 * (4 + b.admInks st) : Nat) 1).ceil else 0
  let f := b.fx st (b.streamRes st 2)
  let coding := if on 2 then
      ((Frac.sum ((b.routedShares st 2).map (·.2))).scale (8 * b.pN st 0x2432 3 * 256 : Nat) (16 * m * f * 4 * b.fy (b.streamRes st 2))).ceil
    else 0
  let conv := ((List.range 4).map fun band => modeConversions (b.pN st 0x2201 (1 + band))).sum
  16 * conv + 64 + ress.length * ceilDiv 64 m + reg + diff + streak + coding

/-! ### DOWNBUS (Table 10-10) -/

/-- A lane's reference in a segment of host columns [lo, hi): its blocks with margins, and ink-map cells per row of cells
(R176). -/
def AdmLane.refPart (l : AdmLane) (lo hi : Nat) : Nat × Nat :=
  let x0 := max lo l.c0
  let x1 := min hi l.c1
  if x1 ≤ x0 then (0, 0)
  else
    let width := (l.c1 - l.c0) / l.w
    let p0 := (x0 - 80 - l.c0) / (16 * l.w)
    let p1 := min (ceilDiv width 16) (ceilDiv (x1 + 80 - l.c0) (16 * l.w))
    let q := max 1 (l.res / 75)
    (p1 - p0, ceilDiv (min width (16 * p1)) q - 16 * p0 / q)

def Bar.downWords (b : Bar) (st : Store) (lanes : List AdmLane) (s : Nat) : Nat :=
  let (lo, hi) := b.hostSpan s
  let ref := (Frac.sum (lanes.map fun l => ratio (4 * 64 * (l.refPart lo hi).1) (4 * l.span * 64))).ceil
  let cells := if b.admTracking st then
      (lanes.map fun l => ceilDiv (8 * 8 * (l.refPart lo hi).2) (max 1 (l.res / 75) * l.span * 64)).sum else 0
  ref + cells + 6 * b.neighbours s + 5

/-! ### Reference reads, storage and wear (R266, R271, R278, R279) -/

/-- Bytes of a SPOOL band of a lane's reference: two block rows with their summaries and the rows of eight ink maps,
padded to 64; and the bytes of it that go down to the segments. -/
def AdmLane.band (l : AdmLane) (tracking : Bool) : Nat × Nat :=
  let width := (l.c1 - l.c0) / l.w
  let blocks := ceilDiv width 16
  let q := max 1 (l.res / 75)
  let ink := 8 * (8 / q) * ceilDiv width q
  (ceilDiv (2 * 4 * blocks * 8 + 2 * 4 * ceilDiv blocks 16 * 2 + ink) 64 * 64, 2 * 4 * blocks * 8 + (if tracking then ink else 0))

/-- Bytes per second of something of n bytes in every `lines` lines. -/
def perLines (fMax n lines : Nat) : Frac := ratio (n * fMax) lines

/-- Bytes of a chunk (R271). -/
def Bar.chunkBytes (b : Bar) (st : Store) : Nat :=
  64 + 128 + ((List.range b.segs).map fun s =>
    let (blocks, groups) := b.codingBlocks st s
    if blocks = 0 then 0
    else b.pN st 0x2432 3 * (blocks * (64 * b.pN st 0x2432 6 / max 1 (b.pN st 0x2700 1) / 8) + (if b.pN st 0x2700 2 = 1 then 4 else 2 * groups))).sum

/-- Chunks per second. -/
def Bar.chunkRate (b : Bar) (st : Store) (fMax : Nat) : Frac :=
  (Frac.sum ((b.routedShares st 2).map (·.2))).scale fMax (4 * b.fy (b.streamRes st 2))

def mega (x : Frac) : Frac := x.scale 1 1000000

/-- The staged write rate: ARCHIVE, the evidence quota and LEDGER (MB/s). -/
def Bar.stagedRate (b : Bar) (st : Store) (fMax : Nat) : Frac :=
  mega (((b.chunkRate st fMax).scale (b.chunkBytes st : Nat) 1).add (Frac.ofInt (b.pN st 0x2900 8 + 384 * b.pN st 0x2900 7 : Nat)))

/-! ### Ports (R318, R303) -/

/-- Overhead O of a datagram to a peer, and the payload it may carry, under a set; `copied`: one that goes to a replica port, too. -/
def Bar.admOverhead (b : Bar) (st : Store) (k : Nat) : Nat :=
  let a := padTo 16 (st.rawAt (0x2920 + k) 2)
  38 + (if b.portN (b.pN st (0x2920 + k) 4) 4 = 0xFFFF then 0 else 4) + ipHeader a + 8 + kspHeader (b.pN st (0x2920 + k) 7)
def Bar.admPMax (b : Bar) (st : Store) (k : Nat) (copied : Bool) : Nat :=
  let mtu := b.portN (b.pN st (0x2920 + k) 4) 3
  let rep := b.pN st (0x2920 + k) 5
  max 1 ((if copied && decide (rep < 4) then min mtu (b.portN rep 3) else mtu) - ipHeader (padTo 16 (st.rawAt (0x2920 + k) 2)) - 8 - kspHeader (b.pN st (0x2920 + k) 7))

/-- A unit with its datagrams' overhead. -/
def Bar.unitBytes (b : Bar) (st : Store) (k payload : Nat) (copied : Bool := false) : Nat :=
  payload + max 1 (ceilDiv payload (b.admPMax st k copied)) * b.admOverhead st k

def Bar.admPeers (b : Bar) (st : Store) : List Nat := (List.range 16).filter fun k => b.pN st (0x2920 + k) 1 = 1
/-- A peer's data and replica ports. -/
def Bar.admPorts (b : Bar) (st : Store) (k : Nat) : List Nat :=
  let r := b.pN st (0x2920 + k) 5
  b.pN st (0x2920 + k) 4 :: (if r = 0xFF then [] else [r])

/-- Verdicts per second: one per minimum item spacing of every lane that announces. -/
def Bar.verdictRate (b : Bar) (st : Store) (fMax : Nat) : Frac :=
  Frac.sum (((List.range 32).filter fun l => bit (b.pN st 0x2502 0) l).map fun l => ratio fMax (b.pN st 0x2506 (l + 1)))

/-- Bytes of one window's guaranteed events of the subscribers of a peer: B + 1 records each, whole ones per datagram. -/
def Bar.nozzleBytes (b : Bar) (st : Store) (k : Nat) : Nat :=
  ((List.range 16).map fun n =>
    let o := 0x2630 + n
    if b.pN st o 1 = 1 && b.pN st o 4 = 0 && b.pN st o 6 = k then
      let size := if b.pN st o 5 = 1 then 12 else 32
      let count := b.pN st o 7 + 1
      count * size + ceilDiv count (max 1 (b.admPMax st k true / size)) * b.admOverhead st k
    else 0).sum

/-- Payload of a stream line of context k: its descriptor and pixels. -/
def Bar.linePayload (b : Bar) (st : Store) (s k : Nat) : Nat :=
  let w := b.binM st * b.fx st (b.streamRes st s)
  32 + ceilDiv ((b.pN st (streamObj s) 5 / w - b.pN st (streamObj s) 4 / w) * b.pixelBits st s k) 8

/-- Bytes per second of a stream's lines to a peer. -/
def Bar.lineRate (b : Bar) (st : Store) (fMax s k : Nat) : Frac :=
  Frac.sum ((b.routedShares st s).map fun c => c.2.scale (fMax * b.unitBytes st k (b.linePayload st s c.1) : Nat) (b.fy (b.streamRes st s)))

/-- Bytes per second that a port sends: (GUARANTEED, BEST_EFFORT). Evidence counts in full datagrams at the quota; the raw tap
sends 2 bytes of each band for every column of a converted tile, each line, on the VISION stream (R161). -/
def Bar.portRate (b : Bar) (st : Store) (fMax p : Nat) : Frac × Frac :=
  let per (k : Nat) : Frac × Frac :=
    let mask := b.pN st (0x2920 + k) 6
    let copies := (b.admPorts st k).countP (· = p)
    let data := b.pN st (0x2920 + k) 4 = p
    let if_ (c : Bool) (x : Frac) : Frac := if c then x else ⟨0, 1⟩
    let window := b.pN st 0x2600 2 * 4096 * b.tLmin st      -- ns (R220)
    (Frac.sum [
      if_ (bit mask 1) ((b.verdictRate st fMax).scale (copies * b.unitBytes st k 576 true : Nat) 1),
      (ratio 1000000000 window).scale (copies * b.nozzleBytes st k : Nat) 1,
      if_ (data && bit mask 4) (b.lineRate st fMax 0 k),
      if_ (data && bit mask 5) ((b.chunkRate st fMax).scale (b.unitBytes st k (b.chunkBytes st) : Nat) 1),
      if_ (data && bit mask 6) (ratio (b.pN st 0x2900 8 * (b.admPMax st k false + b.admOverhead st k)) (b.admPMax st k false))],
     (if_ (data && bit mask 3) (b.lineRate st fMax 1 k)).add
       (if_ (data && bit mask 4 && b.pN st 0x2400 5 = 1) (Frac.ofInt (fMax * b.unitBytes st k (32 + 2048 * (b.convTiles st).length) : Nat))))
  let all := (b.admPeers st).map per
  (Frac.sum (all.map (·.1)), Frac.sum (all.map (·.2)))

/-- The gate entries of a port under a set. -/
def Bar.gateList (b : Bar) (st : Store) (p : Nat) : List Nat :=
  (List.range (b.pN st (0x2918 + p) 3)).map fun i => b.pN st (0x2918 + p) (4 + i)

/-- Open time of a class within one cycle. -/
def openTime (c : Nat) (gates : List Nat) : Nat := ((gates.filter fun e => bit (gateMask e) c).map gateDur).sum

/-- Open time of a class in the first t ns of a cycle. -/
def openUntil (c : Nat) : Nat → List Nat → Nat
  | _, [] => 0
  | t, e :: rest => (if bit (gateMask e) c then min t (gateDur e) else 0) + openUntil c (t - gateDur e) rest

/-- Open time from the start of the schedule to t, the schedule repeating. -/
def openSince (c : Nat) (gates : List Nat) (cycle t : Nat) : Nat :=
  t / max 1 cycle * openTime c gates + openUntil c (t % max 1 cycle) gates

/-- The least class 6 open time of any 250 µs (R303): the extremes start or end where an entry starts. -/
def leastOpen (gates : List Nat) (cycle : Nat) : Nat :=
  let starts := (List.range (gates.length + 1)).map fun i => ((gates.take i).map gateDur).sum
  let whole := 250000 + 250000 / max 1 cycle * max 1 cycle + max 1 cycle
  let from_ (s : Nat) : Nat := openSince 6 gates cycle (s + 250000) - openSince 6 gates cycle s
  let all := starts.flatMap fun s => [from_ s, from_ (s + whole / max 1 cycle * max 1 cycle - 250000)]
  all.foldl min (all.headD 0)

/-- NOZZLE bytes of one shortest window on a port. -/
def Bar.portNozzle (b : Bar) (st : Store) (p : Nat) : Nat :=
  ((b.admPeers st).map fun k => (b.admPorts st k).countP (· = p) * b.nozzleBytes st k).sum

/-! ### The decision -/

/-- Demands of resources 1 to 16 in their units. -/
def Bar.demands (b : Bar) (st : Store) : List Frac :=
  let fMax := b.pN st 0x2301 3
  let lanes := b.admLanes st
  let segs := List.range b.segs
  let up := segs.map fun s => 128 * b.upWords st lanes s
  let down := segs.map fun s => 64 * b.downWords st lanes s
  let tracking := b.admTracking st
  let spool := mega (Frac.sum (lanes.map fun l => perLines fMax (l.band tracking).1 (8 * l.span)))
  let refOut := mega (Frac.sum (lanes.map fun l => perLines fMax (l.band tracking).2 (8 * l.span)))
  let allowance := ratio b.spoolAllowance 1000000
  let read := (spool.scale 8 7).add (Frac.ofInt 64)
  let staged := b.stagedRate st fMax
  let write := staged.add (allowance.scale 8 7)
  let ports := (List.range 4).map (b.portRate st fMax)
  let mbit (x : Frac) : Frac := x.scale 8 1000000
  let egress := mbit (Frac.sum (ports.map fun p => p.1.add p.2))
  let bus := ratio ((up.sum + down.sum) * fMax) 1000000
  let crossbar := Frac.sum [bus, read.scale 8 1, write.scale 8 1, egress, allowance.scale 8 1]
  let burst := if tracking then ratio (128 * 131072 * b.admInks st) 1100 else ⟨0, 1⟩
  let dram := Frac.sum [staged.scale 2 1, spool, refOut, egress.scale 2 8, burst]
  let core := Frac.sum [ratio (2 * b.pN st 0x2900 7) 1000, ratio (2 * (b.admPeers st).length) 10, ratio (5 * b.spoolAllowance) 100000000]
  [Frac.ofInt (((b.convTiles st).map (b.tileSteps st lanes)).foldl max 0 : Nat), Frac.ofInt (up.foldl max 0 : Nat),
   Frac.ofInt (down.foldl max 0 : Nat), crossbar, dram, read, write, staged.add allowance, staged]
  ++ ports.map (fun p => mbit p.1) ++ [core, ratio (2 * b.pN st 0x2900 8) 1000000, allowance.scale 8 1]

/-- Capacities of resources 1 to 16 in their units. -/
def Bar.capacities (b : Bar) (st : Store) : List Frac :=
  let fMax := max 1 (b.pN st 0x2301 3)
  let md := b.sto.media
  let read := ratio (4 * md.rate * md.pageData) (md.pageData + md.spare)
  let write := ratio (nProgram 8 * mediaPage md) b.sto.tProg
  let port (p : Nat) : Frac := ratio (24000 * openTime 5 (b.gateList st p)) (b.pN st (0x2918 + p) 1)
  [ratio 700000000 fMax, ratio 89600000000 fMax, ratio 44800000000 fMax, Frac.ofInt 1024000, Frac.ofInt 160000, read,
   if write.lt read then write else read, ratio b.rAllow 1000000, Frac.ofInt 384, port 0, port 1, port 2, port 3, Frac.ofInt 100,
   ratio (400 * 32) (max 32 (b.rwN 0x2710 1)), Frac.ofInt 1000]

/-- Is headroom / capacity of the first smaller? A resource without capacity or demand counts as free. -/
def tighter (x y : Frac × Frac) : Bool :=
  let rel (z : Frac × Frac) : Frac :=
    let d := z.1
    let c := z.2
    if c.num = 0 then (if d.num = 0 then ⟨1, 1⟩ else ⟨-(2 ^ 200 : Nat), 1⟩)
    else (c.sub d).scale (c.den : Nat) c.num.toNat
  (rel x).lt (rel y)

structure Admission where
  demand : List Frac
  capacity : List Frac
  failing : Nat            -- bit = code
  named : Nat

/-- The Ticket Booth's computation for a set as it will be live. -/
def Bar.admission (b : Bar) (st : Store) : Admission :=
  let ds := b.demands st
  let cs := b.capacities st
  let pairs := ds.zip cs
  let failing := ((List.range 16).map fun i => match pairs[i]? with
    | some (d, c) => b2n (c.lt d) * 2 ^ (i + 1) | none => 0).sum
  let named := (List.range 16).foldl (fun best i => match pairs[i]?, pairs[best]? with
    | some x, some y => if tighter x y then i else best | _, _ => best) 0
  ⟨ds, cs, failing, named + 1⟩

/-- The result goes to 0x2900 to 0x2902 (R321); a refusal logs the bottleneck. -/
def Bar.recordAdmission (b : Bar) (a : Admission) : Bar :=
  let refused := decide (a.failing ≠ 0)
  let b := { b with dlv := { b.dlv with admState := if refused then 2 else 1, admNamed := a.named, admFailing := a.failing
                                        admDemand := a.demand.map Frac.milli, admCapacity := a.capacity.map Frac.milli } }
  if refused then b.logEvent (0x9040 + a.named) 0 else b

end Sys2Proof.Machine
end

