-- ==== Sys2Proof/Machine/Validate.lean ====
section
/-! DEFINITION. Step 1 of an ARM (R36): every check of one staged object against others, with the object it is attributed
to and its detail code. A check involves the staged objects whose values enter its comparison (DEDUCED, log 12). -/

namespace Sys2Proof.Machine

/-- A failing check: the key of the object it is attributed to, and its code. -/
abbrev Failing := List (Nat × Nat)

/-- One check: fails with a code at an object. -/
def failIf (c : Bool) (index sub code : Nat) : Failing := if c then [(objKey index sub, code)] else []

def Bar.stagedLanes (b : Bar) : List Nat := (List.range 32).filter fun l => bit (b.stagedN 0x2502 0) l

/-- Contexts of the staged pattern, ascending. -/
def Bar.stagedContexts (b : Bar) : List Nat := (List.range 4).filter fun k => k ∈ b.patContexts b.par.staged

/-- Pacing lane, resolution, rate and row modes (R42, R58, R65, R108). -/
def Bar.checkRows (b : Bar) : Failing :=
  let fMax := b.stagedN 0x2301 3
  let src := b.rwN 0x2200 3
  failIf (b.rwN 0x2010 2 = 2 && b.rwN 0x2010 4 ∉ b.stagedLanes) 0x2010 4 0x0108
  ++ failIf ((src = 2 || src = 3) && decide (fMax < b.stagedN 0x2200 4)) 0x2200 4 0x3005
  ++ failIf (b.dpi600 && b.stagedN 0x2200 6 = 1) 0x2200 6 0x2004
  ++ (List.range 4).flatMap fun band =>
    let mode := b.stagedN 0x2201 (band + 1)
    failIf (decide (500000 < modeConversions mode * fMax)) 0x2201 (band + 1) 0x2001
    ++ failIf (b.dpi600 && (mode = 2 || (mode = 4 && decide (2 < b.patLen b.par.staged)))) 0x2201 (band + 1) 0x2002

/-- Windows (R67). -/
def Bar.checkWindows (b : Bar) : Failing :=
  let m := b.binM b.par.staged
  ((List.range 16).filter fun w => bit (b.stagedN 0x2209 0) w).flatMap fun w =>
    let c0 := b.stagedN 0x2205 (w + 1)
    let c1 := b.stagedN 0x2206 (w + 1)
    failIf (decide (b.columns < c1)) 0x2206 (w + 1) 0x2005
    ++ failIf (decide (c1 < c0 + 16)) 0x2205 (w + 1) 0x2005
    ++ failIf (decide (b.stagedN 0x2208 (w + 1) ≤ b.stagedN 0x2207 (w + 1))) 0x2207 (w + 1) 0x2005
    ++ failIf (c0 % m ≠ 0 || c1 % m ≠ 0) 0x2200 6 0x2006

/-- Exposures and strobes of the contexts in the pattern, and the pattern (R62, R63, R111, R113, R114). -/
def Bar.checkExposure (b : Bar) : Failing :=
  let st := b.par.staged
  let tl := b.tLmin st
  let p := b.stagedN 0x2214 1
  let mode (band : Nat) : Nat := b.stagedN 0x2201 (band + 1)
  (b.stagedContexts.flatMap fun k =>
    let o := 0x2210 + k
    let ek := ((List.range 4).map fun band => b.stagedN o (band + 1)).foldl max 0
    ((List.range 4).flatMap fun band =>
      let e := b.stagedN o (band + 1)
      failIf (decide (e < 100) || decide (tl < e + 200)) o (band + 1) 0x2003
      ++ failIf (mode band = 3 && decide (e / max 1 (b.stagedN 0x2202 (band + 1)) < 100)) 0x2202 (band + 1) 0x2003)
    ++ failIf (decide (ek < b.stagedN o 6) || decide (ek < b.stagedN o 8)) o 1 0x200B)
  ++ failIf (p = 0 || decide (4 < p)) 0x2214 1 0x2009
  ++ if (List.range 4).any fun band => mode band = 4 then
      (List.range (b.patLen st)).flatMap fun j =>
        failIf ((List.range (b.patLen st)).any fun i => decide (j < i) && b.patCtx st i = b.patCtx st j) 0x2214 (2 + j) 0x200A
    else []

/-- Line timing (R94, R109): the three ratio checks hold with trigger source ENCODER only. L is M/N, or 2M/N at 600 dpi. -/
def Bar.checkTiming (b : Bar) : Failing :=
  let n := b.stagedN 0x2301 1
  let m := b.stagedN 0x2301 2 * (if b.dpi600 then 2 else 1)
  let fMax := b.stagedN 0x2301 3
  let filter := b.rwN (0x2302 + b.feeding.val) 2
  (if b.usesEncoder then
      failIf (decide (16 * b.stagedN 0x2301 2 < n)) 0x2301 1 0x3001 ++ failIf (decide (20000000 * n < fMax * m)) 0x2301 1 0x3002
      ++ failIf (decide (4000000000 * n < 5 * filter * fMax * m)) 0x2301 1 0x3003
    else [])
  ++ failIf (b.stagedN 0x2301 5 = 1 && b.stagedN 0x2301 6 ∉ b.stagedLanes) 0x2301 6 0x3004

/-- A user table set is loaded (R136, R143). -/
def Bar.userTables (b : Bar) : Bool := b.calStore ≠ [] && bit (calFlags b.calStore) 1

/-- Pipeline and streams (R136, R140, R151, R156, R161, R229). The resolution of a disabled stream is not checked (DESIGN CHOICE, log
53). -/
def Bar.checkPipeline (b : Bar) : Failing :=
  let m := b.binM b.par.staged
  failIf (b.stagedN 0x2400 5 = 1 && decide (175000 < b.stagedN 0x2301 3)) 0x2301 3 0x4006
  ++ ((List.range 4).flatMap fun k => failIf (b.stagedN (0x2410 + k) 1 = 1 && !b.userTables) (0x2410 + k) 1 0x4001)
  ++ (b.stagedContexts.flatMap fun k =>
    let o := 0x2410 + k
    let route := b.stagedN o 9
    failIf (b.stagedN o 2 = 0 || decide (b.stagedN o 3 ≤ b.stagedN o 2) || decide (1040000 < b.stagedN o 3)) o 2 0x4002
    ++ failIf ((b.stagedN 0x2431 1 = 1 && bit route 1 && decide (b.stagedN o 8 < 3))
        || (b.stagedN 0x2432 1 = 1 && b.stagedN 0x2432 3 = 4 && bit route 2 && decide (b.stagedN o 8 < 4))) o 8 0x4005)
  ++ (((List.range 3).filter fun s => b.stagedN (streamObj s) 1 = 1).flatMap fun s =>
    let o := streamObj s
    let res := max 1 (b.stagedN o 2)
    let c0 := b.stagedN o 4
    let c1 := b.stagedN o 5
    let align := (if s = 2 then 16 else 1) * m * max 1 (1200 / (m * res))
    failIf (1200 % (m * res) ≠ 0) 0x2200 6 0x4003 ++ failIf (b.lineRes % res ≠ 0) o 2 0x4003
    ++ failIf (1200 % (m * res) = 0 && (c0 % align ≠ 0 || c1 % align ≠ 0)) 0x2200 6 0x4004
    ++ failIf (decide (c1 < c0 + 16)) o 4 0x4004 ++ failIf (decide (b.columns < c1)) o 5 0x4004)
  ++ failIf ((b.stagedN 0x2432 6, b.stagedN 0x2700 1) ∉ sbfPairs) 0x2432 6 0x7001

/-- Context k sits in the pattern at positions a constant g apart, with g dividing P (R177). -/
def Bar.evenlySpaced (b : Bar) (k : Nat) : Bool :=
  let st := b.par.staged
  let p := b.patLen st
  let at_ := (List.range p).filter fun j => b.patCtx st j = k
  at_ ≠ [] && p % at_.length = 0 && (List.range at_.length).all fun i => at_.getD i 0 = at_.headD 0 + i * (p / at_.length)

/-- Lanes and inspection (R29, R123, R133, R177, R197). -/
def Bar.checkLanes (b : Bar) : Failing :=
  let m := b.binM b.par.staged
  let lanes := b.stagedLanes
  (lanes.flatMap fun l =>
    let c0 := b.stagedN 0x2500 (l + 1)
    let c1 := b.stagedN 0x2501 (l + 1)
    let src := b.stagedN 0x2503 (l + 1)
    let lead := src - 0x40
    let k := b.stagedN 0x2510 (l + 1)
    let res := max 1 (b.stagedN 0x2511 (l + 1))
    let g := b.patSpacing b.par.staged k
    failIf (lanes.any fun o => decide (l < o) && decide (c0 < b.stagedN 0x2501 (o + 1)) && decide (b.stagedN 0x2500 (o + 1) < c1)) 0x2500 (l + 1) 0x5001
    ++ failIf (decide (c1 < c0 + 16)) 0x2500 (l + 1) 0x5002 ++ failIf (decide (b.columns < c1)) 0x2501 (l + 1) 0x5002
    ++ failIf (c0 % m ≠ 0 || c1 % m ≠ 0) 0x2200 6 0x5002
    ++ failIf (decide (0x40 ≤ src) && lead ∉ lanes) 0x2502 0 0x5003
    ++ failIf (decide (0x40 ≤ src) && lead ∈ lanes && decide (0x40 ≤ b.stagedN 0x2503 (lead + 1))) 0x2503 (min l lead + 1) 0x5003
    ++ if k = 0xFF then [] else
      failIf (!b.evenlySpaced k) 0x2214 1 0x5049
      ++ failIf (1200 % (m * res) ≠ 0) 0x2200 6 0x504A
      ++ failIf (b.evenlySpaced k && b.lineRes % (g * res) ≠ 0) 0x2214 1 0x504A)
  ++ b.stagedContexts.flatMap fun k => failIf (decide (b.stagedN (0x2520 + k) 6 ≤ b.stagedN (0x2520 + k) 5)) (0x2520 + k) 5 0x504B

/-- A ladder descriptor (R211). -/
def Bar.checkLadder (b : Bar) (d : Nat) : Failing :=
  let o := 0x2610 + d
  let f (i : Nat) : Nat := b.stagedN o i
  failIf (decide (7 < f 1)) o 1 0x6003 ++ failIf (decide (1 < f 2)) o 2 0x6003 ++ failIf (decide (65536 < f 3 + f 4)) o 3 0x6003
  ++ failIf (f 4 = 0) o 4 0x6003 ++ failIf (decide (f 5 < 2) || decide (64 < f 5)) o 5 0x6003
  ++ failIf (decide (f 6 < 4) || decide (64 < f 6) || decide (f 7 < f 6 + 3)) o 6 0x6003

/-- Nozzle tracks (R209, R211, R214, R219, R225) and queue producers (R369). -/
def Bar.checkNozzle (b : Bar) : Failing :=
  let tracking := b.stagedN 0x2600 1 = 1
  let subs := (List.range 16).filter fun n => b.stagedN (0x2630 + n) 1 = 1
  let serial := subs.filter fun n => b.stagedN (0x2630 + n) 4 = 1
  failIf (decide (b.stagedN 0x2600 6 ≤ b.stagedN 0x2600 7) || decide (4095 < b.stagedN 0x2600 6 + b.stagedN 0x2600 0x0D)) 0x2600 6 0x6006
  ++ (if tracking then (List.range 8).flatMap fun k => failIf (bit (b.stagedN 0x2600 4) k
      && (List.range 4).all fun band => b.stagedN 0x2601 (4 * k + band + 1) = 0) 0x2601 (4 * k + 1) 0x6002 else [])
  ++ (if tracking && b.stagedN 0x2605 1 ≠ 0xFF then
      (((List.range (b.stagedN 0x2606 0)).map fun i => b.stagedN 0x2606 (i + 1)).eraseDups).flatMap b.checkLadder else [])
  ++ ((List.range 16).flatMap fun n =>
    let o := 0x2630 + n
    failIf (decide (b.stagedN o 3 ≤ b.stagedN o 2)) o 2 0x6004 ++ failIf (decide (1048576 < b.stagedN o 3)) o 3 0x6004)
  ++ (serial.flatMap fun n =>
    let o := 0x2630 + n
    failIf (decide (1500000 < b.stagedN o 7 * b.stagedN o 0x0A * b.stagedN o 9)) o 7 0x6005
    ++ failIf (b.rwN (0x2A10 + b.stagedN o 6) 3 ≠ 2 || serial.any fun i => decide (n < i) && b.stagedN (0x2630 + i) 6 = b.stagedN o 6) o 6 0xA008)
  ++ (List.range 64).flatMap fun c => failIf (b.stagedN (0x2A10 + c) 4 ≠ 0 && b.rwN (0x2A10 + c) 3 ≠ 1) (0x2A10 + c) 4 0xA008

/-- Does a port have an address of a peer address's family (R298)? -/
def Bar.familyOk (b : Bar) (p : Nat) (a : List Byte) : Bool := if isV4 a then b.portN p 5 ≠ 0 else true

/-- Peers and gate lists (R301, R303, R304, R322, R325). The IPv6 link-local address is always there. -/
def Bar.checkDelivery (b : Bar) : Failing :=
  let st := b.par.staged
  ((b.admPeers st).flatMap fun k =>
    let o := 0x2920 + k
    let a := padTo 16 (st.rawAt o 2)
    let d := b.stagedN o 4
    let r := b.stagedN o 5
    failIf (a = zeros 16 || a = zeros 10 ++ [0xFF, 0xFF] ++ zeros 4) o 2 0x9003 ++ failIf (b.stagedN o 3 = 0) o 3 0x9003
    ++ failIf (b.portN d 1 ≠ 1 || r = d) o 4 0x9003
    ++ failIf (r ≠ 0xFF && b.portN r 1 ≠ 1) o 5 0x9003
    ++ failIf (!b.familyOk d a || (r ≠ 0xFF && !b.familyOk r a)) o 2 0x9003)
  ++ (List.range 4).flatMap fun p =>
    let gates := b.gateList st p
    let cycle := b.stagedN (0x2918 + p) 1
    let users := (List.range 16).filter fun n => b.stagedN (0x2630 + n) 1 = 1 && b.stagedN (0x2630 + n) 4 = 0
      && p ∈ b.admPorts st (b.stagedN (0x2630 + n) 6)
    failIf ((gates.map gateDur).sum ≠ cycle) (0x2918 + p) 1 0x9004
    ++ failIf (decide (1000 * b.portNozzle st p > 3125 * leastOpen gates cycle))
        (match users.head? with | some n => 0x2630 + n | none => 0x2918 + p) (if users = [] then 1 else 7) 0x9004

/-- All checks of step 1. -/
def Bar.checks (b : Bar) : Failing :=
  b.checkRows ++ b.checkWindows ++ b.checkExposure ++ b.checkTiming ++ b.checkPipeline ++ b.checkLanes ++ b.checkNozzle ++ b.checkDelivery

/-- The lowest object with a failing check, and the codes that fail there: the owning subsystem's first, in the order of
its code table. -/
def firstFailing (fs : Failing) : Option (Nat × List Nat) :=
  match fs with
  | [] => none
  | f :: rest =>
    let key := rest.foldl (fun m x => min m x.1) f.1
    let owner := key / 0x10000 % 16
    let codes := ((fs.filter fun x => x.1 = key).map (·.2)).eraseDups
    let rank (c : Nat) : Nat := if c / 0x1000 = owner then c else 0x10000 + c
    some (key, codes.mergeSort fun x y => decide (rank x ≤ rank y))

end Sys2Proof.Machine
end

