-- ==== Sys2Proof/Machine/Objects.lean ====
section
/-! DEFINITION. What the objects of the dictionary read as (the object tables of every chapter; R24, R33 to R35, R333). -/

namespace Sys2Proof.Machine

/-- A value of the part that the spec names without giving it. -/
def openValue (index sub : Nat) : Int := (Config.openObject (index * 256 + sub) : Nat)

/-! ### Codes of states -/

def ArmedState.code : ArmedState → Nat
  | .empty => 0 | .validating => 1 | .armed => 2
def AlState.code : AlState → Nat
  | .init => 1 | .preop => 2 | .safeop => 4 | .op => 8
def SynState.code : SynState → Nat
  | .stopped => 0 | .position => 1 | .locked => 2 | .flywheel => 3 | .unsync => 4 | .overspeed => 5
def StState.code : StState → Nat
  | .absent => 0 | .unformatted => 1 | .formatting => 2 | .mounting => 3 | .mounted => 4 | .sealing => 5 | .sealed => 6 | .failed => 7
def RefState.code : RefState → Nat
  | .absent => 0 | .ingesting => 1 | .ready => 2 | .failed => 3
def EngineState.code : EngineState → Nat
  | .halted => 0 | .running => 1 | .halting => 2
def AvsState.code : AvsState → Nat
  | .active => 0 | .atLimit => 1 | .fault => 2 | .disabled => 3

/-- 0x2300:07: FREE with source NONE and in DIVSYNC mode, else the servo's state; HOLDOVER and INTERNAL come before it
(R79). -/
def Bar.tbCode (b : Bar) : Nat :=
  let t := b.cap.tb
  match t.mode, (if b.rwN 0x2300 1 = 3 || b.rwN 0x2300 2 = 1 then DiscState.free else t.disc) with
  | .holdover, _ => 3 | .internal, _ => 4 | .pll, .locked => 0 | .pll, .tracking => 1 | .pll, .free => 2

/-- A natural number or a Boolean as the value of an entry. -/
def vn (n : Nat) : Int := (n : Int)
def vb (x : Bool) : Int := (b2n x : Nat)

/-! ### Communication and device management -/

/-- Bits of the fields of the RxPDO and the TxPDO (Tables 11-5 and 11-7). -/
def rxFieldBits : List Nat := [16, 16, 8, 8, 16, 64, 128, 128, 128, 128]
def txFieldBits : List Nat := [32, 16, 8, 8, 64, 64, 16, 16, 4, 4, 2, 5, 16, 16, 16, 8] ++ List.replicate 8 128

/-- A mapping entry: index, subindex and bit length (PRESUMED, log 23: the layout of CiA 301). -/
def mappingEntry (index sub bits_ : Nat) : Nat := index * 65536 + sub * 256 + bits_

/-- The feature word, 0 where the FEATURE group takes its default: the part number and the grade follow (DESIGN CHOICE, log 116). -/
def Bar.featureWord (b : Bar) : Nat := if bit b.sec.groupsDefault 1 then 0 else b.hubRow 2

def Bar.roDevice (b : Bar) (ch : Channel) (index sub : Nat) : Int :=
  let c := match ch with | .mailbox => b.sdoM | .bench => b.sdoB
  match index with
  | 0x1001 => vn b.errorRegister
  | 0x1010 => 1
  | 0x1011 => 1
  | 0x1018 => if sub = 1 then 0x0B7A else if sub = 2 then 0x4800 else if sub = 4 then vn (b.uid % 2 ^ 32) else openValue 0x1018 3
  | 0x1600 => vn (mappingEntry 0x2020 sub (rxFieldBits.getD (sub - 1) 0))
  | 0x1A00 => vn (mappingEntry 0x2021 sub (txFieldBits.getD (sub - 1) 0))
  | 0x1C00 => vn sub
  | 0x1C12 => 0x1600
  | 0x1C13 => 0x1A00
  | 0x1C32 | 0x1C33 => if sub = 4 then 6 else 62500
  | 0x2000 =>
    if sub = 2 then vn b.segs else if sub = 3 then vb (bit b.featureWord 8) else if sub = 4 then vn b.uid else vn b.featureWord
  | 0x2001 =>
    if sub = 1 then vn (imgVersion b.runningImage)
    else if sub = 2 then (match b.sec.running with | some s => vb s | none => 0xFF) else vn b.sec.romVersion
  | 0x2010 =>
    let p := b.par
    if sub = 5 then vn p.armedState.code else if sub = 6 then vn p.liveGen else if sub = 7 then vn p.armedGen
    else if sub = 8 then vn p.lastApply else if sub = 9 then vn p.refused else vn c.readView
  | 0x2011 => if sub = 1 then vn b.persist.state else vn b.persist.stores
  | 0x2012 =>
    let e := b.ecat
    match sub with
    | 1 => vn e.cycles | 2 => vn e.sampleTime | 3 => vn e.annCount | 4 => vn e.checkins6 | 5 => vn e.checkins7
    | 6 => vn e.vackIgnored | 7 => vn e.slotsLost | 8 => vn e.annGaps | 9 => vn e.ctrlCycles | _ => vn e.pdExpiries
  | 0x2020 => vn (b.ecat.rx.getD (sub - 1) 0)
  | 0x2021 => vn (b.ecat.tx.getD (sub - 1) 0)
  | 0x2101 =>
    let a := b.sec.segOtp[(sub - 1) % 8]'(Nat.mod_lt _ (by omega))
    vn ((fuseRead segRedir a 1).elim 0 (·.1))
  | 0x2F00 =>
    match sub with
    | 1 => vn b.log.next | 2 => vn (b.log.next - b.log.entries.length) | 3 => vn c.logPtr
    | 5 => vn b.log.overwritten | _ => vn b.log.emergDropped
  | 0x2F01 =>
    match sub with | 1 => vn c.lastDetail | 2 => vn c.lastAbort | 3 => vn c.lastEntry | _ => vn b.foeDetail
  | _ => 0

/-! ### Capture, timing, pipeline, lanes, inspection -/

/-- Segment status word (Table 2-7). -/
def Bar.segStatusWord (b : Bar) (s : Fin 8) : Nat :=
  let x := b.cap.segs[s]
  b2n x.present + b2n (x.seamCal || s.val = 0) * 2 + b2n b.cap.syn.crawling * 4 + b2n x.darkOk * 8 + min 255 x.adcOvr * 256
    + min 255 x.rowVoid * 65536

/-- Encoder status 0x2302:0A. -/
def Encoder.status (e : Encoder) : Nat := e.wires % 8 + b2n e.overspeed * 8 + b2n e.zero * 16 + b2n e.reverse * 32

def Bar.roEncoder (b : Bar) (e : Fin 2) (sub : Nat) : Int :=
  let x := b.cap.enc[e]
  match sub with | 7 => x.zPos | 8 => vn x.zTime | 9 => vn x.quadErrors | _ => vn x.status

/-- The reference named by 0x2540:01. -/
def Bar.queriedRef (b : Bar) : Reference :=
  (b.ref? (b.rwN 0x2540 1)).getD { Reference.ofHeader 0 0 0 0 0 0 with state := .absent }

def Bar.roCapture (b : Bar) (index sub : Nat) : Int :=
  let s := b.cap.syn
  let tb := b.cap.tb
  match index with
  | 0x220A => vn (b.segStatusWord (segIx (sub - 1)))
  | 0x220B => vn s.burstIgnored
  | 0x2210 | 0x2211 | 0x2212 | 0x2213 => vn (b.compState (index - 0x2210))
  | 0x2217 => vn b.cap.pstep
  | 0x2300 =>
    match sub with
    | 4 => vn b.now | 5 => tb.offset | 6 => tb.corr | 7 => vn b.tbCode | 8 => vn tb.syncLatch | 9 => vn tb.holdoverEntries | _ => vn b.disciplinePort
  | 0x2301 => vn s.state.code
  | 0x2302 => b.roEncoder 0 sub
  | 0x2303 => b.roEncoder 1 sub
  | 0x2304 =>
    match sub with
    | 1 => vn s.delayed | 2 => vn s.dropped | 3 => vn s.drLines | 4 => vn s.usLines | 5 => vn s.deferred | _ => vn tb.syncIgnored
  | 0x2400 =>
    -- with no valid store the spec gives :04 no value: a free value (R164, log 118)
    match sub with
    | 2 => vn b.pedestal | 3 => vb b.sec.uncalibrated
    | _ => if b.sec.uncalibrated then openValue 0x2400 4 else vn (calGeneration b.calStore)
  | 0x2440 => if sub = 9 then vn b.cap.lastMalformed else vn (b.cap.segs[segIx (sub - 1)]).malformed
  | 0x250A => vn (b.laneStatus (laneIx (sub - 1)))
  | 0x250B => vn b.inFlight
  | 0x2540 =>
    let r := b.queriedRef
    match sub with
    | 2 => vn r.state.code | 3 => vn r.detail | 4 => vn r.width | 5 => vn r.height | 6 => vn r.res | 7 => vn r.inkMask
    | 8 => vn r.maxW | 0x0A => vn (b.cap.refs.countP fun x => x.state = .ready) | _ => vn b.refCharges
  | 0x2550 =>
    let i := b.cap.insp
    match sub with
    | 1 => vn i.published | 6 => vn i.refLate | 7 => vn i.small | 8 => vn i.late
    | n => vn (i.byVerdict[(n - 2) % 4]'(Nat.mod_lt _ (by omega)))
  | _ => 0

/-! ### Nozzle tracks, coding, storage -/

def Bar.roNozzle (b : Bar) (index sub : Nat) : Int :=
  let z := b.nz
  match index with
  | 0x2620 => vn z.unchanged
  | 0x2640 =>
    match sub with
    | 1 => vn (z.tracks.countP (·.2.mapped)) | 2 => vn z.offBar | 0x0A => vn z.closed | 0x0B => vn z.lateEvents
    | 0x0C => vn z.tClose | n => vn (b.trackCount (n - 3))
  | 0x2600 => 0
  | _ => vn (b.subDialect ((index - 0x2630) % 16))

def Bar.roStorage (b : Bar) (index sub : Nat) : Int :=
  let s := b.sto
  let c := b.cod
  let m := s.media
  match index with
  | 0x2700 => match sub with | 3 => vn c.selfFaults | 4 => vn c.malformed | _ => vn c.maxErr
  | 0x2710 =>
    match sub with
    | 2 => vn c.inflateDone | 3 => vn c.inflateErrors | 4 => vn c.lastError | 5 => vn c.lastOffset | 6 => vn c.deflateDone
    | 7 => vn c.noGain | 8 => vn c.exhausted | _ => vn c.cropsSbf
  | 0x2800 =>
    match sub with
    | 1 => vn s.state.code | 4 => vn s.lastShutdown | 5 => vn s.mountMs | 7 => vn s.staged | 8 => vn s.high | 9 => vn s.fCover
    | 0x0A => (match s.lastChunk with | some n => vn n | none => openValue 0x2800 0x0A) | _ => vn s.gaps
  | 0x2801 => vn s.quotaArchive
  | 0x2802 =>
    match sub with
    | 1 => vn m.luns | 2 => vn m.planes | 3 => vn m.pageData | 4 => vn m.spare | 5 => vn m.pages | 6 => vn m.rate
    | 7 => vn s.usable | 8 => vn s.reserve.length | 9 => vn s.retired | _ => vn s.profState
  | 0x2803 => match sub with | 5 => vn b.poweredHours | 6 => vn s.mean16 | 7 => vn s.highest | _ => vn b.rAllow
  | 0x2804 => match sub with | 3 => vn s.patrolPass | 4 => vn s.refreshed | 5 => vn s.rereads | _ => vn s.uncorrectable
  | 0x2805 => vn s.pinnedBytes
  | 0x2806 =>
    match sub with
    | 1 => vn s.nextIndex | 3 => (match s.lastSeal with | some n => vn n | none => openValue 0x2806 3)
    | 4 => vn s.oldest | _ => vn s.session
  | 0x2807 => match sub with | 1 => vn s.stripesRead | 2 => vn s.rebuilt | 3 => vn s.untimely | _ => vn s.lost
  | _ => 0

/-! ### Delivery -/

def Bar.roDelivery (b : Bar) (index sub : Nat) : Int :=
  let d := b.dlv
  let named (l : List Int) : Int := if d.admNamed = 0 then 0 else l.getD (d.admNamed - 1) 0
  if index = 0x2900 then
    match sub with
    | 1 => vn d.admState | 2 => vn d.admNamed | 3 => named d.admDemand | 4 => named d.admCapacity
    | 5 => named d.admCapacity - named d.admDemand | _ => vn d.admFailing
  else if index = 0x2901 then d.admDemand.getD (sub - 1) 0
  else if index = 0x2902 then d.admCapacity.getD (sub - 1) 0
  else if 0x2910 ≤ index && index ≤ 0x2913 then vb (b.portUp (portIx (index - 0x2910)))
  else if 0x2920 ≤ index && index ≤ 0x292F then
    match b.session? (index - 0x2920) with
    | none => 0
    | some s => if sub = 9 then 1 else if sub = 0x0A then vn s.version else vn s.ksid
  else if index = 0x2940 then vn (d.sent[(sub - 1) % 9]'(Nat.mod_lt _ (by omega)))
  else if index = 0x2941 then vn (d.beDropped[(sub - 1) % 9]'(Nat.mod_lt _ (by omega)))
  else match sub with
    | 1 => vn d.late | 2 => vn d.discarded | 3 => vn d.rxDropped | 4 => vn d.helloRefused | _ => vn d.withheld

/-! ### Carousel and timers -/

def Bar.roIo (b : Bar) (index sub : Nat) : Int :=
  if 0x2A00 ≤ index && index ≤ 0x2A03 then
    let e := b.io.engines[(index - 0x2A00) % 4]'(Nat.mod_lt _ (by omega))
    match sub with
    | 2 => vn e.state.code
    | 6 => vn (2 * (List.range 16).countP fun c => bit (b.rwN index 5) c)
    | _ => vn e.faults
  else if 0x2A10 ≤ index && index ≤ 0x2A4F then
    let c := b.io.chans[(index - 0x2A10) % 64]'(Nat.mod_lt _ (by omega))
    match sub with
    | 7 => vn (c.cq.length + 256 * c.rq.length) | 8 => vn c.status | 9 => vn c.evPosted | 0x0A => vn c.lateCount
    | _ => vn c.feedLostCount
  else if 0x2B20 ≤ index && index ≤ 0x2B2F then
    let i : Fin 16 := ⟨(index - 0x2B20) % 16, Nat.mod_lt _ (by omega)⟩
    let u := b.io.timers[i]
    match sub with
    | 1 => vn (b.tmrStatus i) | 3 => vn u.landing | 4 => vn u.matchesA | _ => vn u.matchesB
  else if 0x2B30 ≤ index && index ≤ 0x2B37 then vn (b.pairCount ⟨(index - 0x2B30) % 8, Nat.mod_lt _ (by omega)⟩)
  else if index = 0x2B40 then (b.io.pos[(sub - 1) % 2]'(Nat.mod_lt _ (by omega))).toInt
  else vn (((List.finRange 16).map fun i => if (b.io.timers[i]).running then 2 ^ i.val else 0).sum)

/-! ### Thermal, safety, security -/

def Bar.roSafety (b : Bar) (index sub : Nat) : Int :=
  let t := b.thm
  let sn := b.saf.sn
  match index with
  | 0x2C00 => match (t.sensors[(sub - 1) % 26]'(Nat.mod_lt _ (by omega))).filtered with | some x => x | none => openValue 0x2C00 sub
  | 0x2C01 => vn (b.sensorStatus ⟨(sub - 1) % 26, Nat.mod_lt _ (by omega)⟩)
  | 0x2C10 =>
    match sub with
    | 3 => vn (b.demanded 9) | 4 => vn b.cap.pstep | 5 => vn t.bStep | 6 => vn b.withheld | 7 => vn t.advice
    | _ => match b.hottest with | some x => vn x.1 | none => openValue 0x2C10 8
  | 0x2C20 =>
    match sub with | 5 => vn t.vcore | 6 => vn t.vread | 7 => vn t.avs.code | 8 => vn t.pmbusFaults | _ => vn t.statusWord
  | 0x2C21 => t.lastSlack[(sub - 1) % 9]'(Nat.mod_lt _ (by omega))
  | 0x2C22 => if sub = 1 then t.lastSlack[8] else vn t.lastLoc
  | 0x2C30 => match sub with | 1 => 1760 | 2 => 1520 | 3 => vn t.tripSensor | _ => t.tripPeak
  | 0x2D00 =>
    match sub with
    | 1 => vb sn.engaged | 2 => vn sn.since | 3 => vn sn.causes.bits | 4 => vn sn.engagements | 5 => vn sn.lastEngaged
    | 6 => vn sn.lastCode | 7 => vn sn.lastRelease | _ => vn b.safetySignature
  | 0x2D01 => if sub = 6 then vn b.saf.wdg.k else vn b.saf.wdg.tk
  | 0x2D02 => vn (b.slotStatus ⟨(sub - 1) % 8, Nat.mod_lt _ (by omega)⟩)
  | 0x2D10 =>
    let i := b.saf.ist
    match sub with
    | 2 => vn i.lastDuration | 3 => vn i.passes | 4 => vn i.lastFail | 5 => vn i.lookback | _ => vn i.stolen
  | 0x2E00 =>
    match sub with
    | 1 => vn b.sec.groupsDefault | 2 => vn b.sec.redirected | 3 => vb b.fieldClosed | 4 => vn b.fieldBits | 5 => vn b.svnCounter
    | 6 => vn b.calGenCounter | 7 => vn b.keyRevCounter | 8 => vn b.spareCounter | _ => vn b.sec.driftRow
  | 0x2E10 => vb b.sec.recovery
  | 0x2E11 =>
    let slotB : Bool := sub % 2 = 0
    let i := b.slot slotB
    match sub with
    | 1 | 2 => if b.sec.running = some slotB then 2 else vb (b.imgCheck i).isNone
    | 3 | 4 => vn (imgVersion i)
    | 5 | 6 => vn (imgSvn i)
    | 7 => if b.sec.anchor.trial then 1 else if b.sec.fellBack then 2 else 0
    | _ => vn b.sec.anchor.tries
  | 0x2E20 => vb (!b.idAvailable)
  | _ => 0

/-- A read-only entry of a numeric type as it stands now. -/
def Bar.roNow (b : Bar) (ch : Channel) (index sub : Nat) : Int :=
  match index / 256 with
  | 0x22 | 0x23 | 0x24 | 0x25 => b.roCapture index sub
  | 0x26 => b.roNozzle index sub
  | 0x27 | 0x28 => b.roStorage index sub
  | 0x29 => b.roDelivery index sub
  | 0x2A | 0x2B => b.roIo index sub
  | 0x2C | 0x2D | 0x2E => b.roSafety index sub
  | _ => b.roDevice ch index sub

/-- Entries that show data-plane state: live statistics, counters, slack and queue levels of the lines, by index and their
subindices (R24). The Carousel's engines, timers and the clock, which no line paces, are none; its queues' levels and counts are
(DESIGN CHOICE, log 115). -/
def dataPlane : List (Nat × List Nat) :=
  let upTo (n : Nat) : List Nat := (List.range n).map (· + 1)
  [(0x220A, upTo 8), (0x220B, [0]), (0x2302, [9]), (0x2303, [9]), (0x2304, upTo 6), (0x2440, upTo 9), (0x250A, upTo 32), (0x250B, [0]), (0x2550, upTo 8),
   (0x2640, upTo 12), (0x2700, [3, 4, 5]), (0x2710, upTo 9), (0x2800, [7, 8, 11]), (0x2804, [3, 4, 5, 6]), (0x2807, upTo 4),
   (0x2940, upTo 9), (0x2941, upTo 9), (0x2942, upTo 5), (0x2C21, upTo 8), (0x2C22, [1, 2]), (0x2D10, [3, 6])]
  ++ (List.range 64).map fun q => (0x2A10 + q, [7, 9, 10, 11])

/-- The snapshot of a line boundary is taken, once for each (R24). -/
def Bar.snapLine (b : Bar) : Bar :=
  if b.ecat.session && (b.cap.snap.isEmpty || b.cap.snapAt ≠ b.lines) then
    { b with cap := { b.cap with
      snap := dataPlane.flatMap fun e => e.2.map fun s => ((e.1, s), b.roNow .mailbox e.1 s), snapAt := b.lines } }
  else b

/-- The value of a read-only entry of a numeric type: in a session, that of data-plane state at the last line boundary (R24). -/
def Bar.roNum (b : Bar) (ch : Channel) (index sub : Nat) : Int :=
  match (if b.ecat.session then b.cap.snap.find? fun x => x.1 = (index, sub) else none) with
  | some x => x.2
  | none => b.roNow ch index sub

/-- Part number, for example "RDX4806-E" (R4). -/
def Bar.partNumber (b : Bar) : List Byte :=
  asciiBytes "RDX480" ++ [BitVec.ofNat 8 (48 + b.featureWord % 256 % 10)] ++ (if bit b.featureWord 8 then asciiBytes "-E" else [])

/-- The value of a read-only entry of a string or DOMAIN type. -/
def Bar.roRaw (b : Bar) (index sub : Nat) : List Byte :=
  match index with
  | 0x1008 => asciiBytes "Roldavex RDX48"
  | 0x1009 => (Config.openString 0).take 64
  | 0x100A => (Config.openString 1).take 64
  | 0x2000 => b.partNumber
  | 0x2020 => leBytes 16 (b.ecat.rx.getD (sub - 1) 0)
  | 0x2021 => leBytes 16 (b.ecat.tx.getD (sub - 1) 0)
  | 0x2620 => (b.track (b.rwN 0x2620 1)).bytes
  | 0x2D30 => b.saf.ret.bytes
  | 0x2E01 =>
    if sub = 1 then (if bit b.sec.groupsDefault 2 then zeros 64 else (List.range 8).flatMap fun i => leBytes 8 (b.hubRow (4 + i)))
    else (if bit b.sec.groupsDefault 4 then zeros 64 else (List.range 8).flatMap fun i => leBytes 8 (b.hubRow (18 + i)))
  | 0x2E11 => if b.sec.running.isSome then (Config.sha512 b.runningImage).toList else zeros 64
  | 0x2E20 => if b.idAvailable then (if sub = 2 then (Config.publicKey b.idKey).toList else b.keyId) else zeros (if sub = 2 then 133 else 16)
  | _ => if 0x2910 ≤ index && index ≤ 0x2913 then b.macAddr (index - 0x2910) else []

/-! ### Stored entries -/

/-- The default of a stored string or DOMAIN. -/
def rawDefault (index : Nat) : List Byte :=
  if 0x2420 ≤ index && index ≤ 0x2423 then (List.range 961).flatMap fun i => leBytes 2 (srgbNode i)
  else if index = 0x2E30 then zeros 64 else if index = 0x2E40 then zeros 32 else zeros 16

/-- An index and subindex as the stores hold them: 0x1C33 is 0x1C32 (R328). -/
def storedIndex (index : Nat) : Nat := if index = 0x1C33 then 0x1C32 else index

/-- The copy of a STAGED entry that a channel reads (R35). -/
def Bar.viewStore (b : Bar) (ch : Channel) : Store :=
  match (match ch with | .mailbox => b.sdoM.readView | .bench => b.sdoB.readView) with
  | 0 => b.par.staged
  | 1 => if b.par.armedState = .armed then b.par.armed else b.par.live
  | _ => b.par.live

/-- The number an RW or RW_PREOP entry reads as. -/
def Bar.rwNum (b : Bar) (ch : Channel) (index sub : Nat) : Int :=
  let c := match ch with | .mailbox => b.sdoM | .bench => b.sdoB
  if index = 0x1010 || index = 0x1011 then 1
  else if index = 0x2010 && sub = 0x0A then vn c.readView
  else if index = 0x2F00 then vn c.logPtr
  else if index = 0x2803 && sub = 1 then vn b.endurance
  else if 0x2B30 ≤ index && index ≤ 0x2B37 then
    let i := 2 * (index - 0x2B30)
    match sub with
    | 2 => vn (b.rwN (0x2B00 + i) 1 + 2 ^ 32 * b.pairHigh i 0x2B00 1 0)
    | 3 => vn (b.rwN (0x2B00 + i) 2 + 2 ^ 32 * b.pairHigh i 0x2B00 2 0xFFFFFFFF)
    | 4 => vn (b.rwN (0x2B00 + i) 3 + 2 ^ 32 * b.pairHigh i 0x2B00 3 0xFFFFFFFF)
    | _ => vn (b.rwN (0x2B10 + i) 3 + 2 ^ 32 * b.pairHigh i 0x2B10 3 0)
  else b.rwI (storedIndex index) sub

/-- Does a row of the dictionary hold an entry on a part of S segments (R4, R396)? -/
def Entry.has (e : Entry) (S index sub : Nat) : Bool :=
  decide (e.lo ≤ index) && decide (index ≤ e.hi) && decide (e.sub ≤ sub) && decide (sub ≤ e.subHi)
    && match e.span with
       | .all => !(decide (0x2C00 ≤ index) && decide (index ≤ 0x2C06) && decide (sub ≤ 16)) || decide (sub ≤ 2 * S)
       | .segments => decide (sub - e.sub < S) | .twoPerSegment => decide (sub - e.sub < 2 * S)

/-- Indices that recovery mode still serves (R446). -/
def recoveryServes (index : Nat) : Bool :=
  (decide (0x1000 ≤ index) && decide (index ≤ 0x1FFF)) || index = 0x2000 || index = 0x2001 || index / 256 = 0x2E || index = 0x2F00
    || index = 0x2F01

def Bar.indexExists (b : Bar) (index : Nat) : Bool :=
  (!b.sec.recovery || recoveryServes index) && dictionary.any fun e => decide (e.lo ≤ index) && decide (index ≤ e.hi)
def Bar.entry? (b : Bar) (index sub : Nat) : Option Entry := dictionary.find? fun e => e.has b.segs index sub

/-- The subindices an object has beside 0x00, rising. -/
def Bar.subs (b : Bar) (index : Nat) : List Nat := (List.range 256).filter fun s => (b.entry? index s).isSome
/-- Is the object a record or an array, with its highest subindex at 0x00? -/
def Bar.isRecord (b : Bar) (index : Nat) : Bool := (b.entry? index 0).isNone
def Bar.highestSub (b : Bar) (index : Nat) : Nat := (b.subs index).foldl max 0

/-- The value of an entry as a read without side effects gives it. -/
def Bar.valueOf (b : Bar) (ch : Channel) (e : Entry) (index sub : Nat) : List Byte :=
  match e.ty.size with
  | some w =>
    let n := match e.acc with
      | .ro => b.roNum ch index sub
      | .rw | .rwPreop => b.rwNum ch index sub
      | .staged => (b.viewStore ch).numAt b.segs index sub
      | .wo => 0
    leBytes w (unsigned (8 * w) n)
  | none =>
    match e.acc with
    | .ro => b.roRaw index sub
    | .rw | .rwPreop =>
      if 0x2A04 ≤ index && index ≤ 0x2A07 then
        ((b.io.engines[(index - 0x2A04) % 4]'(Nat.mod_lt _ (by omega))).program.toList).flatMap fun w => leBytes 2 w.toNat
      else match b.par.rw.rawAt index sub with | [] => rawDefault index | bs => bs
    | .staged => match (b.viewStore ch).rawAt index sub with | [] => rawDefault index | bs => bs
    | .wo => []

end Sys2Proof.Machine
end

