-- ==== Sys2Proof/Machine/ParamCtl.lean ====
section
/-! DEFINITION. Answers of the SDO server (R338, R347) and parameter control: ARM, COPY_TO_ARMED, DISARM (R33 to R43), store
and restore (R339, R340). -/

namespace Sys2Proof.Machine

/-- How a transaction ended: the bar after it, the abort code (0: none), its detail code, the bytes an upload returns,
and whether the detail code is in the event log already. -/
structure Done where
  bar : Bar
  abort : Nat
  detail : Nat
  value : List Byte
  logged : Bool

def Bar.accept (b : Bar) : Done := ⟨b, 0, 0, [], false⟩
def Bar.answer (b : Bar) (v : List Byte) : Done := ⟨b, 0, 0, v, false⟩
def Bar.refuse (b : Bar) (abort detail : Nat) : Done := ⟨b, abort, detail, [], false⟩
def Bar.refuseLogged (b : Bar) (abort detail : Nat) : Done := ⟨b, abort, detail, [], true⟩

def Bar.channel? (b : Bar) (ch : Channel) : SdoChannel := match ch with | .mailbox => b.sdoM | .bench => b.sdoB
def Bar.modChannel (b : Bar) (ch : Channel) (f : SdoChannel → SdoChannel) : Bar :=
  match ch with | .mailbox => { b with sdoM := f b.sdoM } | .bench => { b with sdoB := f b.sdoB }

/-- OP of a bench payload (Table 11-10). -/
def SdoOp.code : SdoOp → Nat
  | .upload => 1 | .download => 2 | .uploadCa => 3 | .downloadCa => 4 | .unknown c => c

/-- index[31:16] : subindex[15:8]. -/
def entryName (index sub : Nat) : Nat := index * 65536 + sub * 256

/-- The line boundary of an answered upload's snapshot (R24): the index of the session's next line when it was taken. Other
transactions, and aborts, carry none. -/
def Bar.snapshotLine (b : Bar) (op : SdoOp) (abort : Nat) : Nat :=
  if abort = 0 && (op = .upload || op = .uploadCa) then (if b.ecat.session then b.cap.snapAt else b.lines) else 0

/-- The answer leaves: to SM1, or as BENCH_RSP on the CONTROL stream, BEST_EFFORT. DESIGN CHOICE (log 115): R24 does not
say where the line index n of a snapshot travels; it stands in LINE_FIRST and LINE_END of a BENCH_RSP, and beside the CoE
answer in the mailbox. -/
def Bar.sendAnswer (b : Bar) (r : SdoRequest) (abort detail : Nat) (value : List Byte) : Bar :=
  if r.lost then b
  else match r.ch with
  | .mailbox => { b with sm1 := b.sm1 ++ [.sdoResponse r.index r.sub abort value (b.snapshotLine r.op abort)] }
  | .bench => match b.ksidPeer r.session with
    | none => b
    | some p => b.sendUnit p
        { stream := 0, type := 9, cls := 0, be := true, late := false, line0 := b.snapshotLine r.op abort, line1 := b.snapshotLine r.op abort, gen := 0
          payload := leBytes 4 r.tag ++ leBytes 1 r.op.code ++ leBytes 1 r.sub ++ leBytes 2 r.index ++ leBytes 4 abort
            ++ leBytes 2 detail ++ zeros 2 ++ leBytes 4 value.length ++ value }

/-- A transaction ends: an abort is held in the channel's 0x2F01 and logged (R338), and what it has done stands, answered or not. -/
def Bar.finish (r : SdoRequest) (d : Done) : Bar :=
  if d.abort = 0 then d.bar.sendAnswer r 0 0 d.value
  else
    let b := d.bar.modChannel r.ch fun c =>
      { c with lastDetail := d.detail, lastAbort := d.abort, lastEntry := entryName r.index r.sub }
    let b := if d.logged then b else b.logEvent d.detail (entryName r.index r.sub)
    b.sendAnswer r d.abort d.detail []

def Bar.modPar (b : Bar) (f : Params → Params) : Bar := { b with par := f b.par }

/-! ### ARM and DISARM (R36 to R43) -/

/-- The abort code of an ARM whose check failed: PACING_LANE_UNDEFINED has one of its own (Table 1-8). -/
def validationAbort (codes : List Nat) : Nat × Nat := if codes.head? = some 0x0108 then (0x06090030, 0x0108) else (0x08000020, 0x0104)

/-- Steps 1 and 2 of an ARM: refused, or the set is being validated until COPY_TO_ARMED. -/
def Bar.armBegin (b : Bar) (r : SdoRequest) : Bar :=
  if b.par.armedState = .armed then
    Bar.finish r ((b.modPar fun p => { p with refused := 0 }).refuse 0x08000022 0x0101)
  else match firstFailing b.checks with
    | some (key, codes) =>
      let b := b.modPar fun p => { p with refused := key * 256 }
      let b := (if codes.head? = some 0x0108 then codes.drop 1 else codes).foldl (fun b c => b.logEvent c (key * 256)) b
      let (abort, detail) := validationAbort codes
      Bar.finish r (b.refuse abort detail)
    | none =>
      let a := b.admission b.par.staged
      let b := b.recordAdmission a
      if a.failing ≠ 0 then Bar.finish r ((b.modPar fun p => { p with refused := 0 }).refuse 0x08000020 0x0105)
      else b.modPar fun p => { p with armedState := .validating, armRequest := some r }

/-- Where the apply line of a LINE mode set must lie (R38). -/
def applyBounds (n line : Nat) : Option Nat :=
  if line < n + 64 then some 0x0102 else if n + 2 ^ 31 < line then some 0x0103 else none

/-- Steps 3 and 4 of the ARM that is being validated. In PRE-OP the set goes live at once (R37, R43). -/
def Bar.armComplete (b : Bar) (r : SdoRequest) : Bar :=
  let b := b.modPar fun p => { p with armRequest := none, armedState := .empty }
  if b.ecat.session then
    let n := b.liveLine
    let line := b.rwN 0x2010 3
    match (if b.rwN 0x2010 2 = 1 then applyBounds n line else none) with
    | some code => Bar.finish r ((b.modPar fun p => { p with refused := 0x20100300 }).refuse 0x06090030 code)
    | none =>
      let b := b.modPar fun p =>
        { p with armed := p.staged, armedState := .armed, armedMode := b.rwN 0x2010 2, armedLine := line, armedLane := b.rwN 0x2010 4
                 armedAt := n, armedGen := nextGen p.liveGen }
      Bar.finish r b.accept
  else Bar.finish r (b.modPar fun p => { p with armed := p.staged }).goLiveIdle.accept

/-- DISARM (R41). Where the armed set is due, the line that makes it live may be triggered before the DISARM is processed: the
set was ARMED when the DISARM arrived and is so no longer. Whether it is, the spec leaves open: a free value. -/
def Bar.disarm (b : Bar) : Done :=
  if b.par.armedState = .armed then
    let (line, b) := if b.applyDue b.lines then b.draw 2 else (0, b)
    let c := if line = 1 then b.settleApply b.lines else b
    if c.par.armedState = .armed then ({ c with par := { c.par with armed := [], armedState := .empty, armedGen := 0 } } : Bar).accept
    else c.refuse 0x08000022 0x0107
  else b.refuse 0x08000022 0x0106

/-! ### Store and restore (R339, R340, R375, R393) -/

/-- Is a stored key persisted: an RW_PREOP entry, or an RW entry its chapter names? -/
def persisted (key : Nat) : Bool :=
  let index := key / 256
  let sub := key % 256
  match findEntry index sub with
  | some e => e.acc = .rwPreop
      || (decide (0x2A00 ≤ index) && decide (index ≤ 0x2A03) && (sub = 3 || sub = 4 || sub = 5))
      || (decide (0x2A10 ≤ index) && decide (index ≤ 0x2A4F) && decide (1 ≤ sub) && decide (sub ≤ 3))
      || (decide (0x2B00 ≤ index) && decide (index ≤ 0x2B1F))
  | none => false

/-- The program memories as entries of an image. -/
def Bar.programEntries (b : Bar) : Store :=
  (List.finRange 4).map fun e => (objKey (0x2A04 + e.val) 0, .raw ((b.engine e).program.toList.flatMap fun w => leBytes 2 w.toNat))

/-- The persisted parameters: live STAGED values, RW_PREOP values, and what chapters add. -/
def Bar.persistedValues (b : Bar) : Store :=
  (b.par.rw.filter (fun e => persisted e.1) ++ b.programEntries).foldl (fun st e => st.put e.1 e.2) b.par.live

/-- A store writes the older image and switches the anchor. -/
def Bar.storeParams (b : Bar) : Bar :=
  let p := b.persist
  let image : ParamImage := ⟨b.persistedValues, p.stores + 1, true⟩
  let p := { p with refused := false }
  { b with persist :=
      if p.anchor = 0 ∧ p.image0.isSome then { p with image1 := some image, anchor := 1, restoreMark := false, stores := sat32 p.stores }
      else { p with image0 := some image, anchor := 0, restoreMark := false, stores := sat32 p.stores } }

/-- 0x1010:01 written. -/
def Bar.storeCommand (b : Bar) (n : Nat) : Done := if n = 0x65766173 then b.storeParams.accept else b.refuse 0x08000020 0x0018

/-- 0x1011:01 written. -/
def Bar.restoreCommand (b : Bar) (n : Nat) : Done :=
  if n = 0x64616F6C then ({ b with persist := { b.persist with restoreMark := true } } : Bar).accept else b.refuse 0x08000020 0x0018

end Sys2Proof.Machine
end

