-- ==== Sys2Proof/Machine/Sdo.lean ====
section
/-! DEFINITION. The SDO server (R333 to R340, R347, R348, R352, R497): the checks of a transaction in their order, and what
reads and writes of the dictionary do. -/

namespace Sys2Proof.Machine

/-! ### Codes by subsystem (R14, R356) -/

/-- Value-range code of the subsystem that owns an index. -/
def rangeCode (index : Nat) : Nat :=
  match index / 256 with
  | 0x21 => 0x1001 | 0x22 => 0x2007 | 0x23 => 0x3006 | 0x24 => 0x4007 | 0x25 => 0x5004 | 0x26 => 0x6001 | 0x27 => 0x7002
  | 0x28 => 0x8001 | 0x29 => 0x9001 | 0x2A => 0xA001 | 0x2B => 0xB001 | 0x2C => 0xC001 | 0x2D => 0xD001 | 0x2E => 0xE001
  | 0x2F => 0xF002 | _ => 0x0001

/-- NOT_PREOP code of the subsystem that owns an index. -/
def preopCode (index : Nat) : Nat :=
  match index / 256 with
  | 0x21 => 0x1002 | 0x22 => 0x2008 | 0x23 => 0x3007 | 0x27 => 0x7003 | 0x28 => 0x8002 | 0x29 => 0x9002 | 0x2A => 0xA002
  | 0x2B => 0xB002 | 0x2C => 0xC002 | 0x2D => 0xD002 | 0x2E => 0xE002 | _ => 0x0002

def between (lo hi x : Nat) : Bool := decide (lo ≤ x) && decide (x ≤ hi)
def engIx (e : Nat) : Fin 4 := ⟨e % 4, by omega⟩
def chanIx (k : Nat) : Fin 64 := ⟨k % 64, by omega⟩
def tmrIx (i : Nat) : Fin 16 := ⟨i % 16, by omega⟩
def sensorIx (i : Nat) : Fin 26 := ⟨i % 26, by omega⟩

/-! ### Reads -/

/-- The entry at a channel's read pointer of the event log, 32 bytes (Table 11-14). -/
def LogEntry.bytes (e : LogEntry) : List Byte :=
  leBytes 8 e.time ++ leBytes 8 e.line ++ leBytes 2 e.code ++ leBytes 1 e.severity ++ leBytes 1 (b2n e.sent + b2n e.dropped * 2)
    ++ leBytes 4 e.number ++ leBytes 8 e.arg

/-- A read of 0x2F00:04 (R352). -/
def Bar.readLog (b : Bar) (ch : Channel) : Done :=
  let p := max (b.channel? ch).logPtr (b.log.next - b.log.entries.length)
  match (if p < b.log.next then b.log.entries[b.log.next - 1 - p]? else none) with
  | some e => (b.modChannel ch fun c => { c with logPtr := p + 1 }).answer e.bytes
  | none => (b.modChannel ch fun c => { c with logPtr := p }).refuse 0x08000020 0xF001

/-- A read of a channel's report queue (R369). -/
def Bar.readReport (b : Bar) (k : Fin 64) : Done :=
  match (b.chan k).rq with
  | w :: rest => (b.modChan k fun c => { c with rq := rest }).answer (leBytes 4 w.toNat)
  | [] => b.refuse 0x08000020 0xA007

/-- Which shadow a channel reads through. -/
def shadowBase (ch : Channel) : Nat := match ch with | .mailbox => 0 | .bench => 1

/-- A read of a timer's count; the halves of a linked pair follow the shadow rule (R390). -/
def Bar.readCount (b : Bar) (ch : Channel) (i : Fin 16) : Done :=
  if b.tmrLinked i.val then
    let j : Fin 8 := ⟨i.val / 2, by omega⟩
    let ix : Fin 16 := tmrIx (8 * shadowBase ch + j.val)
    let (v, s) := shadowRead (i.val % 2 = 1) (b.pairCount j) b.io.sdoPairShadow[ix]
    ({ b with io := { b.io with sdoPairShadow := vmod b.io.sdoPairShadow ix fun _ => s } } : Bar).answer (leBytes 4 v.toNat)
  else b.answer (leBytes 4 (b.io.timers[i]).count)

/-- A read of a half of position counter 0 (R390). -/
def Bar.readPosHalf (b : Bar) (ch : Channel) (high : Bool) : Done :=
  let ix : Fin 2 := ⟨shadowBase ch % 2, by omega⟩
  let (v, s) := shadowRead high (b.io.pos[0]).toNat b.io.sdoPosShadow[ix]
  ({ b with io := { b.io with sdoPosShadow := vmod b.io.sdoPosShadow ix fun _ => s } } : Bar).answer (leBytes 4 v.toNat)

/-- A read of an entry that may be read. -/
def Bar.readEntry (b : Bar) (ch : Channel) (e : Entry) (index sub : Nat) : Done :=
  if index = 0x2F00 && sub = 4 then b.readLog ch
  else if between 0x2A10 0x2A4F index && sub = 6 then b.readReport (chanIx (index - 0x2A10))
  else if between 0x2B20 0x2B2F index && sub = 2 then b.readCount ch (tmrIx (index - 0x2B20))
  else if index = 0x2B40 && (sub = 3 || sub = 4) then b.readPosHalf ch (sub = 4)
  else b.answer (b.valueOf ch e index sub)

/-- Bytes an entry takes in Complete Access; strings and DOMAINs at their largest. -/
def Ty.caSize : Ty → Nat
  | .str n | .oct n | .dom _ n => n | .u8 => 1 | .i8 => 1 | .u16 => 2 | .i16 => 2 | .u32 => 4 | .i32 => 4 | .u64 => 8 | .i64 => 8

/-- The value that a read of an entry would give now, without the read's effects; none where it would give none. -/
def Bar.peek (b : Bar) (ch : Channel) (e : Entry) (index sub : Nat) : List Byte :=
  if index = 0x2F00 && sub = 4 then (b.readLog ch).value
  else if between 0x2A10 0x2A4F index && sub = 6 then (b.readReport (chanIx (index - 0x2A10))).value
  else if between 0x2B20 0x2B2F index && sub = 2 then
    let i := tmrIx (index - 0x2B20)
    if b.tmrLinked i.val then
      leBytes 4 (b.pairCount ⟨i.val / 2, by omega⟩ / 2 ^ (32 * (i.val % 2)))
    else leBytes 4 (b.io.timers[i]).count
  else if index = 0x2B40 && (sub = 3 || sub = 4) then leBytes 4 ((b.io.pos[0]).toNat / 2 ^ (32 * (sub - 3)))
  else b.valueOf ch e index sub

/-- Entries of a Complete Access upload from a list of subindices on, each with its own effect on the bar. -/
def Bar.readAll (b : Bar) (ch : Channel) (index : Nat) : List Nat → Done
  | [] => b.answer []
  | sub :: rest =>
    match b.entry? index sub with
    | none => b.readAll ch index rest
    | some e =>
      let one := if e.acc = .wo then b.answer (zeros e.ty.caSize) else b.readEntry ch e index sub
      if one.abort ≠ 0 then one
      else
        let d := one.bar.readAll ch index rest
        if d.abort ≠ 0 then d else { d with value := padTo e.ty.caSize one.value ++ d.value }

/-! ### Checks of a download, in the order of R497 -/

/-- Step 4: what the bench channel may not write (R348). -/
def Bar.benchDenied (b : Bar) (ch : Channel) (index sub : Nat) : Option (Nat × Nat) :=
  let denied := between 0x1000 0x1FFF index || between 0x2C 0x2E (index / 256) || (index = 0x2800 && (sub = 2 || sub = 3))
    || (index = 0x2010 && sub = 1 && b.ecat.al ≠ .preop)
  if ch = .bench && denied then some (0x08000021, 0x0015) else none

/-- The entry is one of a timer's that only a stopped timer accepts (R385, R389). -/
def Bar.timerBusy (b : Bar) (index sub : Nat) (v : List Byte) : Bool :=
  if between 0x2B10 0x2B1F index then
    let i := tmrIx (index - 0x2B10)
    let other : Fin 16 := ⟨(i.val / 2 * 2 + 1) % 16, by omega⟩
    b.tmrRuns i || (sub = 1 && bit (leNat v) 2 && b.tmrRuns other)
  else between 0x2B30 0x2B37 index && sub = 5
    && (b.tmrRuns (tmrIx (2 * (index - 0x2B30))) || b.tmrRuns (tmrIx (2 * (index - 0x2B30) + 1)))

/-- The entry needs a HALTED engine that runs (R372, R374). -/
def Bar.engineBusy (b : Bar) (index sub : Nat) (v : List Byte) : Bool :=
  let runs (e : Nat) : Bool := (b.engine (engIx e)).state ≠ .halted
  if between 0x2A00 0x2A03 index then
    runs (index - 0x2A00) && ((sub = 1 && (v = leBytes 1 1 || v = leBytes 1 2)) || sub = 4 || sub = 5)
  else if between 0x2A04 0x2A07 index then runs (index - 0x2A04)
  else between 0x2A10 0x2A4F index && decide (sub ≤ 3) && runs ((index - 0x2A10) / 16)

/-- Step 5. -/
def Bar.stateDenied (b : Bar) (ch : Channel) (e : Entry) (index sub : Nat) (v : List Byte) : Option (Nat × Nat) :=
  if ch = .bench && b.ecat.al = .init then some (0x08000022, 0x001A)
  else if (e.acc = .rwPreop || (index = 0x2800 && sub = 2) || (index = 0x2E10 && sub = 1)) && b.ecat.al ≠ .preop then
    some (0x08000022, preopCode index)
  else if b.engineBusy index sub v then some (0x08000022, 0xA003)
  else if b.timerBusy index sub v then some (0x08000022, 0xB003)
  else none

/-- Step 6. A program's length has a code of its own, and a tone curve of another length counts as out of range. DEDUCED (log 184):
an OCTET_STRING shorter than its length is a mismatch, since Table 11-4 has 0x0607_0013 for a DOMAIN only. -/
def lengthDenied (e : Entry) (index n : Nat) : Option (Nat × Nat) :=
  match e.ty.size with
  | some w => if n ≠ w then some (0x06070010, 0x0014) else none
  | none =>
    if between 0x2A04 0x2A07 index then (if n % 2 = 1 || n = 0 || decide (512 < n) then some (0x06070010, 0xA004) else none)
    else match e.ty with
      | .dom lo hi =>
        if between 0x2420 0x2423 index then (if n ≠ hi then some (0x06090030, 0x4007) else none)
        else if hi < n then some (0x06070012, 0x0014) else if n < lo then some (0x06070013, 0x0014) else none
      | .oct len => if len < n then some (0x06070012, 0x0014) else if n < len then some (0x06070010, 0x0014) else none
      | .str len => if len < n then some (0x06070012, 0x0014) else none
      | _ => none

/-- The number written. -/
def Entry.number (e : Entry) (v : List Byte) : Int :=
  match e.ty.size with
  | some w => if e.ty.isSigned then signed (8 * w) (leNat v) else (leNat v : Nat)
  | none => 0

/-- A preset lies within the period (Table 13-4); that of a unit of a linked pair, as the 64-bit value it makes: DESIGN CHOICE (log 98). -/
def Bar.presetFits (b : Bar) (i u : Nat) : Bool :=
  let even := i / 2 * 2
  let own (j : Nat) : Nat := if j = i then u else if j % 2 = 0 then b.rwN (0x2B10 + j) 3 else b.pairHigh even 0x2B10 3 0
  if b.tmrLinked i then decide (own even + 2 ^ 32 * own (even + 1) ≤ b.tmrPer even) else decide (u ≤ b.rwN (0x2B00 + i) 1)

/-- Does a value lie in an entry's range, its reserved bits 0? -/
def Bar.inRange (b : Bar) (e : Entry) (index sub : Nat) (n : Int) : Bool :=
  let u := n.toNat
  decide (e.min ≤ n) && decide (n ≤ e.max) && (e.allowed = [] || n ∈ e.allowed)
    && (if index = 0x2A50 then bits u 1 0 ≠ 3 && bits u 7 5 = 0
        else if between 0x2B10 0x2B1F index && sub = 1 then index % 2 = 0 || !bit u 2
        else if between 0x2B10 0x2B1F index && sub = 3 then b.presetFits (index - 0x2B10) u
        else if between 0x2B30 0x2B37 index && sub = 5 then
          decide (u ≤ b.rwN (0x2B00 + 2 * (index - 0x2B30)) 1 + 2 ^ 32 * b.pairHigh (2 * (index - 0x2B30)) 0x2B00 1 0)
        else if between 0x2B10 0x2B1F index && (sub = 4 || sub = 5) then decide (u < 64) || u = 0xFF
        else if index = 0x2C02 then b.sensorCfgRefused (sensorIx (sub - 1)) u ≠ some 0xC001
        else if index = 0x2F00 then decide (u ≤ b.log.next)
        else true)

/-- Step 7. -/
def Bar.rangeDenied (b : Bar) (e : Entry) (index sub : Nat) (v : List Byte) : Option (Nat × Nat) :=
  if e.ty.size.isSome && !(index = 0x1010 || index = 0x1011) && !b.inRange e index sub (e.number v) then
    some (0x06090030, rangeCode index)
  else none

/-- Steps 4 to 7 of a write to an entry that may be written. -/
def Bar.writeDenied (b : Bar) (ch : Channel) (e : Entry) (index sub : Nat) (v : List Byte) : Option (Nat × Nat) :=
  (b.benchDenied ch index sub).or ((b.stateDenied ch e index sub v).or ((lengthDenied e index v.length).or (b.rangeDenied e index sub v)))

/-! ### Effects of writes -/

/-- Entries that enter admission (R316). -/
def admissionInput (index sub : Nat) : Bool :=
  (index = 0x2803 && (sub = 9 || between 1 4 sub)) || (index = 0x2710 && sub = 1) || between 0x2910 0x2913 index
    || (index = 0x2200 && between 1 3 sub) || (index = 0x2301 && sub = 9)

/-- A value stored: in the staged copy, or at once. -/
def Bar.storeValue (b : Bar) (e : Entry) (index sub : Nat) (v : List Byte) : Bar :=
  let val : Val := match e.ty.size with | some _ => .num (e.number v) | none => .raw v
  if e.acc = .staged then b.modPar fun p => { p with staged := p.staged.put (objKey index sub) val }
  else
    let b := (if index = 0x2803 then b.settleBuckets else b).putRw (storedIndex index) sub val
    -- with no source, and in DIVSYNC, the timebase follows REFCLK: no correction applies (R78, R81)
    let b := if (index = 0x2300 && sub = 1 && e.number v = 3) || (index = 0x2300 && sub = 2 && e.number v = 1) then
      b.modTb fun t => { t with corr := 0 } else b
    if admissionInput index sub then { b with dlv := { b.dlv with admState := 0 } } else b

/-- Security commands (R467, R468). -/
def Bar.securityDo (b : Bar) (r : SdoRequest) (code : Nat) : Done :=
  let key := b.rwN 0x2E10 2 = securityKey
  let b := b.putRw 0x2E10 2 (.num 0)
  if code = 1 then ({ b with seg := none, foe := none } : Bar).decideReset 0xE02C |>.accept
  else if 3 ≤ code && !key then b.refuse 0x08000020 0xE003
  else
    let (b, detail) := b.securityCommand code ⟨r.stuck, r.stuckMask⟩ (calGeneration b.calStore)
    if detail = 0 then b.accept
    else if detail = 0xE005 then b.refuseLogged 0x08000020 detail
    else b.refuse (if detail = 0xE004 then 0x08000022 else 0x08000020) detail

/-- Engine command (R373, R374). -/
def Bar.engineCommand (b : Bar) (e : Fin 4) (code : Nat) : Bar := if code = 3 then b.haltEngine e else b.startEngine e (code = 2)

/-- A program memory written from address 0 upwards (R372). -/
def Bar.writeProgram (b : Bar) (e : Fin 4) (v : List Byte) : Bar :=
  b.modEngine e fun g => { g with program := Vector.ofFn fun (i : Fin 256) =>
    if 2 * i.val < v.length then BitVec.ofNat 16 (leAt v (2 * i.val) 2) else g.program[i] }

/-- A word for a channel's command queue from the host (R369). -/
def Bar.hostQueue (b : Bar) (k : Fin 64) (v : List Byte) : Done :=
  if b.rwN (0x2A10 + k.val) 3 ≠ 0 then b.refuse 0x08000020 0xA005
  else if b.cqRoom k = 0 then b.refuse 0x08000020 0xA006
  else (b.pushCq k [BitVec.ofNat 32 (leNat v)]).accept

/-- A pin configured anew takes the level of a timer that runs and names it, and else rests at its HALT_LEVEL while nothing runs
that drives it (Table 12-6, R383). -/
def Bar.pinConfigured (b : Bar) (i : Fin 64) : Bar :=
  if b.timerPin i.val then
    (List.range 16).foldl (fun b t =>
      let u := b.io.timers[tmrIx t]
      let level (sub : Nat) (out : Bool) : Bar := if u.running then b.tmrPin t sub out b.now else b.tmrPinHalt t sub
      if b.rwN (0x2B10 + t) 4 = i.val then level 4 u.outA else if b.rwN (0x2B10 + t) 5 = i.val then level 5 u.outB else b) b
  else if (b.chan (chanIx (b.pinOwner i))).active then b else b.haltPin i

/-- A write through a pair's object (R389): the low half to the even unit, the high half to the odd one, at one tick
boundary. -/
def Bar.writePair (b : Bar) (j sub : Nat) (n : Nat) : Bar :=
  let i := 2 * j
  let put (base s : Nat) (b : Bar) : Bar :=
    (b.putRw (base + i) s (.num (n % 2 ^ 32 : Nat))).putRw (base + i + 1) s (.num (n / 2 ^ 32 : Nat))
  if sub = 5 then put 0x2B10 3 b else b.tmrWrite (tmrIx i) (put 0x2B00 (sub - 1))

/-- The pin command (R273). -/
def Bar.pinCommand (b : Bar) (code : Nat) : Done :=
  let session := b.rwN 0x2805 1
  let seq := b.rwN 0x2805 2
  match b.sto.pinKnown session seq with
  | none => b.refuse 0x06090030 0x8005
  | some cs =>
    if code = 1 then
      let (b, taken) := b.pinItem session seq cs
      if taken then b.accept else b.refuseLogged 0x08000020 0x8030
    else (b.unpinItem session seq).accept

/-- FORMAT (R264, R265). -/
def Bar.formatCommand (b : Bar) : Done :=
  if b.rwN 0x2800 3 ≠ 0x464F524D then b.refuse 0x08000020 0x8003
  else if b.quotaInvalid then b.refuse 0x08000020 0x8004
  else b.format.accept

/-- A track command over SDO (R216). -/
def Bar.trackCommand (b : Bar) (code : Nat) : Done :=
  let first := b.rwN 0x2620 1
  let stop := b.rwN 0x2620 2
  match (if first < stop then TrackOp.ofCode code else none) with
  | some op => (b.queueTrackCmd op first stop none).accept
  | none => b.refuse 0x06090030 0x6001

/-- Delete of a reference (R172). -/
def Bar.deleteCommand (b : Bar) (handle : Nat) : Done :=
  let code := b.deleteRefused handle
  if code = 0 then (b.deleteRef handle).accept else b.refuse (if code = 0x5047 then 0x08000022 else 0x06090030) code

/-- Commands: entries of class WO, and the two signatures. -/
def Bar.command (b : Bar) (r : SdoRequest) (index sub n : Nat) (v : List Byte) : Option Done :=
  match index with
  | 0x1010 => some (b.storeCommand n)
  | 0x1011 => some (b.restoreCommand n)
  | 0x2010 => if sub = 1 then some b.disarm else none
  | 0x2540 => if sub = 9 then some (b.deleteCommand n) else none
  | 0x2620 => if sub = 3 then some (b.trackCommand n) else none
  | 0x2800 => if sub = 2 then some b.formatCommand else none
  | 0x2805 => if sub = 3 then some (b.pinCommand n) else none
  | 0x2B48 => some (if sub = 1 then (match b.startRefused n with | some c => b.refuse 0x08000020 c | none => (b.startTimers n).accept)
      else match b.stopRefused n with | some c => b.refuse 0x08000020 c | none => (b.stopTimers n).accept)
  | 0x2E10 => if sub = 1 then some (b.securityDo r n) else none
  | _ =>
    if between 0x2A00 0x2A03 index && sub = 1 then some (b.engineCommand (engIx (index - 0x2A00)) n).accept
    else if between 0x2A04 0x2A07 index then some (b.writeProgram (engIx (index - 0x2A04)) v).accept
    else if between 0x2A10 0x2A4F index && sub = 5 then some (b.hostQueue (chanIx (index - 0x2A10)) v)
    else none

/-- Writes of settings with a check or an effect of their own (step 8). -/
def Bar.setting (b : Bar) (ch : Channel) (e : Entry) (index sub : Nat) (v : List Byte) : Done :=
  let n := e.number v
  let u := n.toNat
  let stored := b.storeValue e index sub v
  if index = 0x2010 && sub = 0x0A then (b.modChannel ch fun c => { c with readView := u }).accept
  else if index = 0x2F00 then (b.modChannel ch fun c => { c with logPtr := u }).accept
  else if between 0x2910 0x2913 index && sub = 1 && u = 1 && bit b.sec.groupsDefault 10 then b.refuse 0x08000020 0xE008
  else if index = 0x2A50 then ((b.resample fun b => b.storeValue e index sub v).pinConfigured (chanIx (sub - 1))).accept
  else if index = 0x2A58 then
    (if b.rwN 0x2A58 sub = u then stored
      else stored.resample fun b =>
        { b with io := { b.io with bankHold := vmod b.io.bankHold ⟨(sub - 1) % 8, by omega⟩ fun _ => some (b.now + 1000000) } }).accept
  else if between 0x2B00 0x2B0F index then (b.tmrWrite (tmrIx (index - 0x2B00)) fun b => b.storeValue e index sub v).accept
  else if between 0x2B10 0x2B1F index && (sub = 4 || sub = 5) then
    let i := index - 0x2B10
    if u ≠ 0xFF && b.pinTaken i sub u then b.refuse 0x08000020 0xB004 else (stored.tmrPinHalt i sub).accept
  else if between 0x2B30 0x2B37 index then (b.writePair (index - 0x2B30) sub u).accept
  else if index = 0x2B40 then (stored.loadPos ⟨(sub - 5) % 2, Nat.mod_lt _ (by omega)⟩ n).accept
  else if index = 0x2C02 then
    let i := sensorIx (sub - 1)
    match b.sensorCfgRefused i u with
    | some c => b.refuse 0x08000020 c
    | none => stored.accept
  else if between 0x2C03 0x2C05 index then
    if b.thresholdBroken (sub - 1) (index - 0x2C03) n then b.refuse 0x08000020 0xC003 else stored.accept
  else if index = 0x2D01 then (if stored.wdgSettings.valid then stored.accept else b.refuse 0x08000020 0xD003)
  else stored.accept

/-- Step 8 and the effect of a single write. -/
def Bar.writeEntry (b : Bar) (r : SdoRequest) (e : Entry) (index sub : Nat) (v : List Byte) : Done :=
  match b.command r index sub (leNat v) v with
  | some d => d
  | none => b.setting r.ch e index sub v

/-! ### Complete Access (R337) -/

/-- The effect of one entry of a Complete Access download; objects whose entries take effect together are left for the
end. -/
def Bar.caWrite (b : Bar) (ch : Channel) (e : Entry) (index sub : Nat) (v : List Byte) : Done :=
  if index = 0x1010 then b.storeCommand (leNat v)
  else if index = 0x1011 then b.restoreCommand (leNat v)
  else if index = 0x2D01 || between 0x2B00 0x2B0F index then (b.storeValue e index sub v).accept else b.setting ch e index sub v

/-- Entries of a Complete Access download in subindex order, each checked in the order of R497; the first failing check
ends it. An RO entry's current value is the one `before` the download. -/
def Bar.caEntries (b before : Bar) (ch : Channel) (index : Nat) : List Nat → List Byte → Done
  | [], rest => if rest = [] then b.accept else b.refuse 0x06070010 0x0014
  | sub :: subs, bs =>
    match b.entry? index sub with
    | none => b.caEntries before ch index subs bs
    | some e =>
      let v := bs.take e.ty.caSize
      if e.acc = .ro then
        if v ≠ padTo e.ty.caSize (before.peek ch e index sub) then b.refuse 0x06010002 0x0012
        else match (b.benchDenied ch index sub).or (b.stateDenied ch e index sub v) with
          | some (a, c) => b.refuse a c
          | none => b.caEntries before ch index subs (bs.drop e.ty.caSize)
      else match b.writeDenied ch e index sub v with
        | some (a, c) => b.refuse a c
        | none =>
          let d := b.caWrite ch e index sub v
          if d.abort ≠ 0 then d else d.bar.caEntries before ch index subs (bs.drop e.ty.caSize)

/-- A Complete Access download: all its entries or none. `b` is the bar it falls back to. -/
def Bar.caDownload (b : Bar) (ch : Channel) (index start : Nat) (v : List Byte) : Done :=
  let subs := b.subs index
  if (1 < start) || !b.isRecord index || subs.any (fun s => match b.entry? index s with | some e => e.acc = .wo | none => false) then
    b.refuse 0x06010000 0x0017
  else if start = 0 && v.head? ≠ some (BitVec.ofNat 8 (b.highestSub index)) then b.refuse 0x06090030 (rangeCode index)
  else
    let run (x : Bar) : Done := x.caEntries b ch index subs (if start = 0 then v.drop 1 else v)
    if between 0x2B00 0x2B0F index then
      let d := run b
      if d.abort ≠ 0 then b.refuse d.abort d.detail
      else (b.tmrWrite (tmrIx (index - 0x2B00)) fun x => (run x).bar).accept
    else
      let d := run b
      if d.abort ≠ 0 then b.refuse d.abort d.detail
      else if index = 0x2D01 && !d.bar.wdgSettings.valid then b.refuse 0x08000020 0xD003
      else d

/-! ### Transactions -/

/-- Steps 2 and 3 of a single transaction, then the entry. -/
def Bar.locate (b : Bar) (index sub : Nat) : (Nat × Nat) ⊕ Option Entry :=
  if !b.indexExists index then .inl (0x06020000, 0x0010)
  else match b.entry? index sub with
    | some e => .inr (some e)
    | none => if sub = 0 && b.isRecord index then .inr none else .inl (0x06090011, 0x0011)

/-- Which writes are the ARM command. -/
def isArm (r : SdoRequest) : Bool := r.op = .download && r.index = 0x2010 && r.sub = 1 && r.value = leBytes 1 1

/-- A security command refused with NOT_PREOP clears the key too (R467). -/
def Bar.keySpent (b : Bar) (index sub code : Nat) : Bar :=
  if index = 0x2E10 && sub = 1 && code = 0xE002 then b.putRw 0x2E10 2 (.num 0) else b

/-- A transaction other than an ARM that passes its checks. -/
def Bar.sdoDo (b : Bar) (r : SdoRequest) : Done :=
  match r.op with
  | .unknown _ => b.refuse 0x05040001 0x0016
  | .upload => match b.locate r.index r.sub with
    | .inl (a, c) => b.refuse a c
    | .inr none => b.answer (leBytes 1 (b.highestSub r.index))
    | .inr (some e) => if e.acc = .wo then b.refuse 0x06010001 0x0013 else b.readEntry r.ch e r.index r.sub
  | .download => match b.locate r.index r.sub with
    | .inl (a, c) => b.refuse a c
    | .inr none => b.refuse 0x06010002 0x0012
    | .inr (some e) =>
      if e.acc = .ro then b.refuse 0x06010002 0x0012
      else match b.writeDenied r.ch e r.index r.sub r.value with
        | some (a, c) => (b.keySpent r.index r.sub c).refuse a c
        | none => b.writeEntry r e r.index r.sub r.value
  | .uploadCa =>
    if !b.indexExists r.index then b.refuse 0x06020000 0x0010
    else if 1 < r.sub || !b.isRecord r.index then b.refuse 0x06010000 0x0017
    else
      let d := b.readAll r.ch r.index (b.subs r.index)
      if d.abort = 0 && r.sub = 0 then { d with value := leBytes 1 (b.highestSub r.index) ++ d.value } else d
  | .downloadCa =>
    if !b.indexExists r.index then b.refuse 0x06020000 0x0010 else b.caDownload r.ch r.index r.sub r.value

/-- Does an ARM pass the checks a write of its command has? -/
def Bar.armTaken (b : Bar) (r : SdoRequest) : Bool :=
  match b.locate r.index r.sub with
  | .inr (some e) => (b.writeDenied r.ch e r.index r.sub r.value).isNone
  | _ => false

/-- A transaction that the server takes up. -/
def Bar.sdoRun (b : Bar) (r : SdoRequest) : Bar :=
  if r.ch = .bench && decide (16384 < r.value.length) then Bar.finish r (b.refuse 0x05040005 0x0019)
  else if isArm r && b.armTaken r then b.armBegin r
  else Bar.finish r (b.sdoDo r)

/-- A transaction has arrived in full. One that arrives during validation waits for its end (R36, R336); the mailbox
takes none in INIT (R333). -/
def Bar.sdoArrive (b : Bar) (r : SdoRequest) : Bar :=
  if r.ch = .mailbox && b.ecat.al = .init then b
  else if b.par.armedState = .validating then b.modPar fun p => { p with waiting := p.waiting ++ [r] }
  else b.sdoRun r

/-- What waited for the end of a validation runs, in order of arrival; an ARM among it makes the rest wait again. -/
def Bar.drain (b : Bar) : List SdoRequest → Bar
  | [] => b
  | r :: rest =>
    if b.par.armedState = .validating then b.modPar fun p => { p with waiting := p.waiting ++ r :: rest }
    else (b.sdoRun r).drain rest

/-- COPY_TO_ARMED (R36 to R38): the validation that runs ends. -/
def Bar.copyToArmed (b : Bar) : Bar :=
  if b.par.armedState = .validating then
    match b.par.armRequest with
    | some r =>
      let ws := b.par.waiting
      ((b.modPar fun p => { p with waiting := [] }).armComplete r).drain ws
    | none => b
  else b

/-! ### Transfers (R335) -/

/-- Access bits of an entry description (R334); bits 6 and 7 mark the PDO images (bit 6 RxPDO, bit 7 TxPDO: PRESUMED, log 11). -/
def Entry.accessBits (e : Entry) (index : Nat) : Nat :=
  (match e.acc with | .ro => 7 | .rw => 0x3F | .rwPreop => 0x0F | .staged => 0x13F | .wo => 0x38)
    + (if index = 0x2020 then 0x40 else if index = 0x2021 then 0x80 else 0)

/-- Data types of CiA 301 (PRESUMED, log 11). -/
def Ty.code : Ty → Nat
  | .i8 => 2 | .i16 => 3 | .i32 => 4 | .u8 => 5 | .u16 => 6 | .u32 => 7 | .str _ => 9 | .oct _ => 0x0A | .dom _ _ => 0x0F | .i64 => 0x15 | .u64 => 0x1B

/-- The objects that are there, rising. -/
def Bar.objects (b : Bar) : List Nat := (List.range' 0x1000 0x2000).filter b.indexExists

/-- Has an object an entry with this bit in its access word? -/
def Bar.hasAccess (b : Bar) (index i : Nat) : Bool :=
  (b.subs index).any fun s => match b.entry? index s with | some e => bit (e.accessBits index) i | none => false

/-- The lists of objects: all, those that an RxPDO or a TxPDO maps, those with an entry of bit 8, and the settings, of which there
are none. -/
def Bar.objectList (b : Bar) (kind : Nat) : List Nat :=
  match kind with
  | 1 => b.objects
  | 2 => b.objects.filter fun i => b.hasAccess i 6
  | 3 => b.objects.filter fun i => b.hasAccess i 7
  | 4 => b.objects.filter fun i => b.hasAccess i 8
  | _ => []

/-- A response of SDO Information: PRESUMED (log 11), the layouts of IEC 61158, which R327 names and does not print; the names are
free. -/
def Bar.sdoInfo (b : Bar) (opcode : Nat) (bytes : List Byte) : Bar := { b with sm1 := b.sm1 ++ [.sdoInfo opcode bytes] }

/-- A refusal of SDO Information, with its abort code. -/
def Bar.sdoInfoError (b : Bar) (abort : Nat) : Bar := b.sdoInfo 7 (leBytes 4 abort)

/-- A list of objects, or the lengths of the five lists. -/
def Bar.sdoList (b : Bar) (kind : Nat) : Bar :=
  if 5 < kind then b.sdoInfoError 0x06090030
  else b.sdoInfo 2 (leBytes 2 kind ++ ((if kind = 0 then [1, 2, 3, 4, 5].map fun k => (b.objectList k).length
    else b.objectList kind).flatMap (leBytes 2)))

/-- An object's description: type, highest subindex, object code (7 one value, 9 a record) and name. -/
def Bar.describeObject (b : Bar) (index : Nat) : Bar :=
  if !b.indexExists index then b.sdoInfoError 0x06020000
  else b.sdoInfo 4 (leBytes 2 index ++ leBytes 2 ((b.entry? index 0).elim 0 fun e => e.ty.code)
    ++ leBytes 1 (if b.isRecord index then b.highestSub index else 0) ++ leBytes 1 (if b.isRecord index then 9 else 7)
    ++ Config.objectName index)

/-- An entry's description: type, length in bits, access word (R334) and name. -/
def Bar.describeEntry (b : Bar) (index sub : Nat) : Bar :=
  let info (type length access : Nat) : Bar := b.sdoInfo 6 (leBytes 2 index ++ leBytes 1 sub ++ leBytes 1 0 ++ leBytes 2 type
    ++ leBytes 2 length ++ leBytes 2 access ++ Config.entryName index sub)
  match b.locate index sub with
  | .inl (a, _) => b.sdoInfoError a
  | .inr none => info Ty.u8.code 8 7
  | .inr (some e) => info e.ty.code (8 * e.ty.caSize) (e.accessBits index)

/-- An SDO protocol error ends the transfer (R497 step 1). -/
def Bar.sdoProtocol (b : Bar) (index sub abort : Nat) : Bar :=
  Bar.finish { ch := .mailbox, op := .download, index := index, sub := sub, value := [] } (({ b with seg := none } : Bar).refuse abort 0x0016)

/-- A mailbox SDO message. -/
def Bar.sdoFrame (b : Bar) (f : SdoFrame) : Bar :=
  if b.ecat.al = .init then b
  else match f with
    | .request r => ({ b with seg := none } : Bar).sdoArrive { r with ch := .mailbox, lost := false }
    | .segment i s => { b with seg := some ⟨i, s, b.now⟩ }
    | .toggleError i s => b.sdoProtocol i s 0x05030000
    | .unknownCommand i s => b.sdoProtocol i s 0x05040001
    | .odList kind => b.sdoList kind
    | .objectInfo i => b.describeObject i
    | .describe i s => b.describeEntry i s

/-- 1 s between two segments of a transfer. -/
def Bar.segmentTimeout (b : Bar) : Bar :=
  match b.seg with
  | some s => if s.since + 1000000000 ≤ b.now then b.sdoProtocol s.index s.sub 0x05040000 else b
  | none => b

end Sys2Proof.Machine
end

