-- ==== Sys2Proof/Machine/Ecat.lean ====
section
/-! DEFINITION. The EtherCAT slave (R26, R43, R327 to R346): state changes, sessions, process data and the mailbox. -/

namespace Sys2Proof.Machine

/-! ### What a sampled cycle brought (R343 to R346) -/

/-- The process data run. -/
def Bar.cyclic (b : Bar) : Bool := b.ecat.al = .safeop || b.ecat.al = .op

/-- The fields of a process data image, given the widths in bits. -/
def pdoFields : List Nat → Nat → List Nat
  | [], _ => []
  | w :: rest, n => n % 2 ^ w :: pdoFields rest (n / 2 ^ w)

/-- A field of the sampled RxPDO. -/
def Ecat.rxField (e : Ecat) (i : Nat) : Nat := e.rx.getD i 0

/-- EXPECTED_LENGTH of an announcement slot (Table 4-2). -/
def annLength (slot : Nat) : Nat := bits slot 87 64

/-- The scan of the slots from k on with ANN_TAKEN: does it stop at a slot that is ahead? -/
def scanGap (annNo : Nat) : Nat → List Nat → Nat → Bool
  | _, [], _ => false
  | k, slot :: rest, taken =>
    if annLength slot = 0 then false
    else
      let d := behind ((annNo + k) % 65536) taken
      if d = 0 then scanGap annNo (k + 1) rest ((taken + 1) % 65536)
      else if d ≤ 32768 then scanGap annNo (k + 1) rest taken
      else true

/-- The next new announcement of the sampled cycle is taken; repeats on the way are passed over, an empty slot or one
that is ahead ends the scan (R343). -/
def Bar.scanAnnouncement (b : Bar) : Nat → Bar
  | 0 => b
  | fuel + 1 =>
    let e := b.ecat
    if 4 ≤ e.annSlot then b
    else
      let slot := e.rxField (6 + e.annSlot)
      let d := behind ((e.rxField 1 + e.annSlot) % 65536) e.annTaken
      if annLength slot = 0 || decide (32768 < d) then b.modEcat fun e => { e with annSlot := 4 }
      else if d = 0 then
        (b.modEcat fun e => { e with annSlot := e.annSlot + 1, annTaken := (e.annTaken + 1) % 65536, annCount := (e.annCount + 1) % 2 ^ 32 }).takeAnnouncement
          slot e.sampleTime
      else (b.modEcat fun e => { e with annSlot := e.annSlot + 1 }).scanAnnouncement fuel

/-- A release request of the cycle takes effect at its sampling time, before its announcements (R426). -/
def Bar.announcement (b : Bar) : Bar := b.snRelease.scanAnnouncement 4

/-- The apply-line command of the sampled cycle (R40, R346). One without a set ARMED in LINE mode is logged as NOTHING_ARMED, whatever
else is armed (DESIGN CHOICE, log 15: Table 1-8 has no code for it). -/
def Bar.applyLineCommand (b : Bar) : Bar :=
  if b.ecat.applyPend then
    let line := b.ecat.rxField 5
    let denied := if b.par.armedState = .armed && b.par.armedMode = 1 then applyBounds b.ecat.sampleLine line else some 0x0106
    let b := b.modEcat fun e =>
      { e with applyPend := false, applyEchoNext := bit (e.rxField 0) 1, applyRefusedNext := denied.isSome }
    match denied with
    | some code => b.logEvent code 0
    | none => b.modPar fun p => { p with armedLine := line }
  else b

/-- What the last sampled cycle brought and has not been taken yet. -/
def Bar.settleCycle (b : Bar) : Bar :=
  (((b.announcement.announcement.announcement.announcement).hostCheckin false).hostCheckin true).applyLineCommand

/-! ### Sessions (R26, R331) -/

/-- Storage, delivery and statistics at a session start: what counts per session restarts. So does the ladder sequence, at its first
entry (DESIGN CHOICE, log 177: R211 only says that it runs cyclically). -/
def Bar.restartCounts (b : Bar) : Bar :=
  let b := b.modCap fun c =>
    { c with insp := .reset
             segs := c.segs.map fun (s : SegStatus) => { s with adcOvr := 0, rowVoid := 0, malformed := 0, runBad := 0, frameBad := 0, frameNo := 0 } }
  let b := b.modIst fun i => { i with passed := [], stolen := 0, stolenReady := 0, lastSteal := none, claimed := false }
  let b := b.modNz fun z =>
    { z with winNumber := 0, winStart := 0, ended := [], ladder := none, ladderNext := 0, ladderObs := [], ladderCues := [], closed := 0
             lateLogged := [] }
  let b := b.modCod fun c => { c with maxErr := 0 }
  b.modSto fun s => { s with high := s.staged, chunks := [] }

/-- The process data of a session that begins (R343 to R345). -/
def Ecat.begin (e : Ecat) : Ecat :=
  { e with session := true, rxSeen := false, sampled := false, annSlot := 4, annTaken := 0, annGap := false, ctrlReserved := false
           checkin6 := false, checkin7 := false, applyPend := false, releasePend := false, applyEcho := false, applyRefused := false
           applyEchoNext := false, applyRefusedNext := false, vack := 0, vackEn := false, vq := [], vqNext := 0, vqP := 0, vqBase := 0
           vqLost := 0, latches := 0, cycles := 0, annCount := 0, checkins6 := 0, checkins7 := 0 }

/-- Capture at the start of a session: no line yet, the live set from line 0 on. 0x220B keeps its count (DEDUCED, log 138:
R72 gives it no restart). -/
def Bar.beginCapture (b : Bar) : Bar :=
  { b with
    lines := 0
    par := { b.par with laneSets := Vector.replicate 32 (b.par.live, b.par.liveGen) }
    cap := { b.cap with
      tb := { b.cap.tb with syncFirst := false, syncIgnored := 0 }
      syn := { Synth.reset with highest := b.feedPos, chkStart := (b.io.pos[(1 : Fin 2)]).toInt, overAt := b.cap.syn.overAt
                                burstIgnored := b.cap.syn.burstIgnored }
      lineLog := [], segLog := [], darkLevel := [], sets := [⟨0, b.par.liveGen, b.par.live⟩], patAnchor := 0, boxes := [], codRows := []
      ended := false, outLine := 0, lanes := Vector.replicate 32 .reset, cues := [], items := [], nextSeq := 0, pstepDue := [], snap := [], snapAt := 0 } }

/-- Trigger source FREE: the first line's phase is left open; it comes within one period (R71). -/
def Bar.placeFree (b : Bar) : Bar :=
  if b.rwN 0x2200 3 = 2 then
    let (d, b) := b.draw b.freePeriod
    let at_ := b.now + d
    b.modSyn fun s => { s with freeNext := some at_ }
  else b

/-- The dark pixel the dark ADCs convert first in a session: a FREE VALUE (R56). -/
def Bar.placeDark (b : Bar) : Bar :=
  let (d, b) := b.draw 32
  b.modCap fun c => { c with darkStart := d }

/-- A session begins (R26, R291). -/
def Bar.startSession (b : Bar) : Bar :=
  let b := (b.modEcat Ecat.begin).beginCapture.restartCounts
  let b := (b.modSto fun s => { s with session := (s.session + 1) % 2 ^ 32 }).placeFree.placeDark
  (b.modWdg fun w => { w with hostFrom := none }).appendSessionStart (Config.sha512 b.runningImage).toList

/-- An armed set that has not gone live is discarded (R43). -/
def Bar.discardArmed (b : Bar) : Bar :=
  if b.par.armedState = .armed then
    let gen := b.par.armedGen
    (b.modPar fun p => { p with armed := [], armedState := .empty, armedGen := 0 }).logEvent 0x0109 gen
  else b

/-- Every announced item without a verdict is published as the session ends (R331). -/
def Bar.publishEnd (b : Bar) : Bar :=
  ((b.modItems fun i => if i.published then i else { i.withReason rNotLive with detail := 0x43 }).publishAll).modItems fun i =>
    { i with queued := false }

/-- The host slots are supervised no longer (R436). -/
def Bar.releaseHostSlots (b : Bar) : Bar :=
  b.modWdg fun w => { w with hostFrom := none, slots := Vector.ofFn fun (i : Fin 8) =>
    if 6 ≤ i.val then { (w.slots[i] : WdgSlot) with supervised := false } else w.slots[i] }

/-- The session ends (R26, R43, R331). What the last sampled cycle brought is taken first. Lines of a box that is not complete reach no stream. The last
class P step decided whose boundary has not come is in effect from then on (DESIGN CHOICE, log 176: R120 is silent). -/
def Bar.endSession (b : Bar) : Bar :=
  if b.ecat.session then
    let b := (b.settleCycle.publishEnd.endRows).endWindow b.lines
    let b := b.formAllItems.discardArmed
    let b := b.modNz fun z => { z with ladder := none }
    let b := (b.modCap fun c => { c with ended := true, boxes := [], codRows := [], cues := [] }).releaseHostSlots
    let b := b.modIst fun i => { i with claimed := false }
    (b.modEcat fun e => { e with session := false }).settlePStep (2 ^ 64)
  else b

/-! ### State changes (R329 to R332) -/

/-- A request is refused: the state stands, the code shows in the AL status (R329). -/
def Bar.alRefuse (b : Bar) (code : Nat) : Bar :=
  (b.modEcat fun e => { e with alError := true, alCode := code, safeopWaiting := none }).logEvent 0x0040 code

/-- A change of state is made. A waiting request for SAFE-OP lapses; an entry into SAFE-OP awaits its first RxPDO anew. -/
def Bar.alEnter (b : Bar) (dest : AlState) : Bar :=
  let before := b.ecat.al
  let b := b.modEcat fun e =>
    { e with al := dest, alError := false, alCode := 0, safeopWaiting := none, rxSeen := e.rxSeen && (dest ≠ .safeop || before = .safeop) }
  if before = dest then b else b.logEvent 0x0046 (before.code * 256 + dest.code)

/-- PRE-OP is reached for the first time since reset (R375, R393, R433, R439). -/
def Bar.firstPreop (b : Bar) : Bar :=
  if b.ecat.preopReached then b
  else
    let b := b.modEcat fun e => { e with preopReached := true }
    let b := (b.modRet fun r => { r with running := true }).startWatchdog
    if b.sec.recovery then b
    else b.autostartEngines.autostartTimers

/-- A request for PRE-OP; `mail` says whether SM0 and SM1 have the mailbox size. -/
def Bar.requestPreop (b : Bar) (mail : Bool) : Bar :=
  match b.ecat.al with
  | .init =>
    if !mail then b.alRefuse 0x16
    else if b.saf.power = .reset then b.alRefuse 0x8002
    else (b.alEnter .preop).firstPreop
  | .preop => b.alEnter .preop
  | _ => b.endSession.alEnter .preop

/-- The code of the first check of PRE-OP → SAFE-OP that fails (Table 11-2, R438, R446). -/
def Bar.safeopDenied (b : Bar) (sm : Nat) : Option (Nat × Nat) :=
  let cycle := b.rwN 0x1C32 2
  let w := b.wdgSettings
  if sm ≠ 0 then some (sm, 0)
  else if b.rwN 0x1C32 1 = 2 && !b.cap.tb.sync0 then some (0x30, 0)
  else if cycle < 62500 || 4000000 < cycle then some (0x35, 0)
  else if b.sec.recovery then some (0x8004, 0)
  else if b.dlv.admState ≠ 1 then some (0x8001, 0)
  else if w.hc - w.ho < 2 * cycle then some (0x8003, 0xD003)
  else none

/-- The checks of PRE-OP → SAFE-OP are made, and the session begins. -/
def Bar.enterSafeop (b : Bar) (sm : Nat) : Bar :=
  match b.safeopDenied sm with
  | some (code, detail) => (if detail = 0 then b else b.logEvent detail 0).alRefuse code
  | none => (b.calLeavePreop.alEnter .safeop).startSession

/-- A request for SAFE-OP, with the code the lengths of SM2 and SM3 earn, whether SYNC0 is active, and the process data watchdog
time that the master has set, if it has (R332). -/
def Bar.requestSafeop (b : Bar) (sm : Nat) (sync0 : Bool) (pdTime : Option Nat) : Bar :=
  let b := b.modEcat fun e => { e with pdTime := pdTime.getD e.pdTime }
  match b.ecat.al with
  | .init => b.alRefuse 0x11
  | .preop =>
    let b := b.modTb fun t => { t with sync0 := sync0 }
    if b.par.armedState = .validating then b.modEcat fun e => { e with safeopWaiting := some sm } else b.enterSafeop sm
  | _ => b.alEnter .safeop

/-- A request for SAFE-OP that waited for a validation is checked once it has ended. -/
def Bar.safeopWaited (b : Bar) : Bar :=
  match b.ecat.safeopWaiting with
  | some sm => if b.par.armedState = .validating || b.ecat.al ≠ .preop then b else (b.modEcat fun e => { e with safeopWaiting := none }).enterSafeop sm
  | none => b

/-- A request for OP. -/
def Bar.requestOp (b : Bar) : Bar :=
  match b.ecat.al with
  | .safeop => if b.ecat.rxSeen then b.alEnter .op else b.alRefuse 0x1B
  | .op => b.alEnter .op
  | _ => b.alRefuse 0x11

/-- The transfer of an ARM of the mailbox that is being validated is aborted (R331): its validation runs to its end (R43), and
nobody is answered. -/
def Bar.loseMailArm (b : Bar) : Bar :=
  b.modPar fun p => { p with armRequest := p.armRequest.map fun r => if r.ch = .mailbox then { r with lost := true } else r }

/-- Transfers end on a change to INIT (R331): the open segmented SDO, mailbox transactions that wait, the FoE transfer; an ARM that is being validated has lost its own. What waits in SM1 besides Emergencies is lost with its mailbox. -/
def Bar.abortTransfers (b : Bar) : Bar :=
  let b := ((b.modPar fun p => { p with waiting := p.waiting.filter fun r => r.ch = .bench }).loseMailArm).cutIngest true 0 0x5040
  { b with seg := none, foe := none, sm1 := b.sm1.filter fun m => match m with | .emergency _ => true | _ => false }

/-- A request for INIT, never refused. What the bench channel had waiting behind a mailbox ARM runs. -/
def Bar.requestInit (b : Bar) : Bar :=
  let b := if b.ecat.al = .preop then b.calLeavePreop else b.endSession
  let b := b.abortTransfers.alEnter .init
  if b.par.armedState = .validating then b else (b.modPar fun p => { p with waiting := [] }).drain b.par.waiting

/-- A request for BOOT, or for a state that does not exist (R327). -/
def Bar.requestBoot (b : Bar) (boot : Bool) : Bar := b.alRefuse (if boot then 0x13 else 0x12)

/-- The process data watchdog expires: its time has passed since the master last wrote the RxPDO (R332). A time of 0 switches it
off: PRESUMED (log 158), as in IEC 61158. -/
def Bar.smWatchdog (b : Bar) : Bar :=
  if b.ecat.al = .op && decide (0 < b.ecat.pdTime) && decide (b.ecat.pdAt + b.ecat.pdTime ≤ b.now) then
    let b := (b.alEnter .safeop).modEcat fun e => { e with alError := true, alCode := 0x1B, pdExpiries := sat32 e.pdExpiries }
    b.logEvent 0x0041 0
  else b

/-! ### RxPDO (R328, R342 to R346) -/

/-- The RxPDO that the master wrote last is sampled; `written` is when (R328, R342). -/
def Bar.rxSample (b : Bar) (bytes : List Byte) (written : Nat) : Bar :=
  if b.cyclic then
    let b := b.settleCycle
    let rx := pdoFields rxFieldBits (leNat (bytes.take 80))
    let ctrl := rx.getD 0 0
    let reserved := decide (8 ≤ ctrl)
    let first := !b.ecat.sampled
    let gap := scanGap (rx.getD 1 0) 0 (rx.drop 6) b.ecat.annTaken
    let line := b.liveLine
    let b := b.modEcat fun e =>
      { e with rx := rx, rxSeen := true, sampled := true, sampleTime := b.now, pdAt := max e.pdAt (min written b.now), sampleLine := line, annSlot := 0
               annGap := gap, annGaps := if gap then sat32 e.annGaps else e.annGaps
               ctrlReserved := reserved, ctrlCycles := if reserved then sat32 e.ctrlCycles else e.ctrlCycles
               checkin6 := !first && rx.getD 2 0 ≠ e.rxField 2, checkin7 := !first && rx.getD 3 0 ≠ e.rxField 3
               applyPend := !first && bit ctrl 1 ≠ bit (e.rxField 0) 1
               releasePend := !first && bit ctrl 2 && !bit (e.rxField 0) 2
               applyEcho := if first then bit ctrl 1 else e.applyEcho
               applyEchoNext := if first then bit ctrl 1 else e.applyEchoNext
               vack := rx.getD 4 0, vackEn := bit ctrl 0, cycles := (e.cycles + 1) % 2 ^ 32 }
    b.modWdg fun w => { w with hostFrom := if w.hostFrom.isNone then some b.now else w.hostFrom }
  else b

/-! ### TxPDO (R342, R345, R346) -/

/-- VACK is applied: slots before it are retired, or it is ignored and counted (step 1). -/
def Ecat.takeVack (e : Ecat) : Ecat :=
  if e.vackEn then
    let far := (e.vqP + 65536 - e.vqBase) % 65536
    let d := (e.vack + 65536 - e.vqBase) % 65536
    if d ≤ far then
      { e with vqBase := e.vack, vq := e.vq.filter fun s => decide (d ≤ (s.1 + 65536 - e.vqBase) % 65536) }
    else { e with vackIgnored := sat32 e.vackIgnored }
  else e

/-- Slot A waits since four latches or more (step 2). -/
def Ecat.repeatDue (e : Ecat) : Bool :=
  e.vackEn && match e.vq.head? with
    | some (v, _, some at_) => v = e.vqBase && decide (at_ + 4 ≤ e.latches)
    | _ => false

/-- A slot's place from P on. -/
def Ecat.ahead (e : Ecat) (v : Nat) : Nat := (v + 65536 - e.vqP) % 65536

/-- The slots presented at this latch: up to eight queued ones from P on (step 3). -/
def Ecat.presented (e : Ecat) : List (Nat × (Nat × Option Nat)) :=
  (e.vq.filter fun s => decide (e.ahead s.1 < 256)).take 8

/-- The queue after a latch: P advances; without VACK_EN what has been presented is retired at once (steps 3 and 4). -/
def Ecat.present (e : Ecat) : Ecat :=
  let shown := e.presented.map (·.1)
  let p := (e.vqP + shown.length) % 65536
  let vq := e.vq.map fun s => if s.1 ∈ shown then (s.1, s.2.1, some e.latches) else s
  if e.vackEn then { e with vq := vq, vqP := p }
  else { e with vq := vq.filter fun s => decide (shown.length ≤ e.ahead s.1 ∧ e.ahead s.1 < 256), vqP := p, vqBase := p }

/-- The status word (Table 11-8). -/
def Bar.statusWord (b : Bar) (again : Bool) : Nat :=
  maskOf [(0, b.ecat.al = .op), (1, b.ecat.session), (2, b.saf.sn.engaged), (3, !b.faultHigh), (4, b.ecat.applyEcho),
    (5, b.ecat.applyRefused), (6, again), (7, b.tdNow), (8, b.cap.syn.state = .locked), (9, b.sto.state = .mounted),
    (10, b.sec.uncalibrated), (11, b.saf.wdg.hostLost), (12, b.saf.ist.done), (13, b.ecat.annGap), (14, b.ecat.ctrlReserved)]

/-- The reserved bits of the TxPDO among its fields: how many follow a field (Table 11-7: [239] and [319:296]). -/
def txReserved : List Nat := [0, 0, 0, 0, 0, 0, 0, 0, 0, 0, 0, 1, 0, 0, 0, 24]

/-- Fields packed from bit 0 up, each with its width and the reserved bits after it. -/
def packFields : List (Nat × Nat) → List Nat → Nat
  | (w, gap) :: ws, v :: vs => v % 2 ^ w + 2 ^ (w + gap) * packFields ws vs
  | _, _ => 0

/-- The 168 bytes of a TxPDO with these fields (R342). -/
def txBytes (tx : List Nat) : List Byte := leBytes 168 (packFields (txFieldBits.zip (txReserved ++ List.replicate 8 0)) tx)

/-- The TxPDO is latched for the next frame. -/
def Bar.txLatch (b : Bar) : Bar :=
  if b.cyclic then
    let b := b.modEcat fun e =>
      ({ e with latches := e.latches + 1, applyEcho := e.applyEchoNext, applyRefused := e.applyRefusedNext } : Ecat).takeVack
    let again := b.ecat.repeatDue
    let b := if again then b.modEcat fun e => { e with vqP := e.vqBase } else b
    let e := b.ecat
    let slots := e.presented.map fun s => s.2.1
    let vseq := e.vqP
    let b := b.modEcat Ecat.present
    let tx := [b.statusWord again, vseq, slots.length, e.vqLost, b.liveLine, b.now, b.saf.sn.since, b.thm.advice, b.cap.pstep, b.withheld,
      b.dlv.admState, b.dlv.admNamed, b.par.liveGen, e.annTaken, b.inFlight, b.par.armedState.code] ++ padZero 8 slots
    b.modEcat fun e => { e with tx := tx, txImage := txBytes tx }
  else b
where
  padZero (n : Nat) (l : List Nat) : List Nat := (l ++ List.replicate n 0).take n

/-! ### Mailbox (R327, R353) -/

/-- A mailbox of a protocol that the bar does not support. -/
def Bar.mailboxUnsupported (b : Bar) : Bar :=
  if b.ecat.al = .init then b else { b with sm1 := b.sm1 ++ [.mailboxError 2] }

/-- The next packet of a file that is read, until one is short (R349); the transfer ends when that has been read. -/
def Bar.foeNext (b : Bar) : Bar :=
  match b.foe with
  | some f =>
    if f.checking then { b with foe := none }
    else
      { b with sm1 := b.sm1 ++ [.foeData f.nextPacket (f.bytes.take 1012)]
               foe := some { f with nextPacket := f.nextPacket + 1, bytes := f.bytes.drop 1012, checking := decide (f.bytes.length < 1012) } }
  | none => b

/-- The master reads SM1: the oldest message leaves the queue. The master's ACK of a data packet, which has no row of its own,
comes with the read of it: DESIGN CHOICE (log 159). -/
def Bar.sm1Read (b : Bar) : Bar :=
  if b.ecat.al = .init then b
  else
    let data := match b.sm1.head? with | some (.foeData _ _) => true | _ => false
    let b : Bar := { b with sm1 := b.sm1.drop 1 }
    if data then b.foeNext else b

end Sys2Proof.Machine
end

