-- ==== Sys2Proof/Machine/Sessions.lean ====
section
/-! DEFINITION. KSP datagrams received, sessions, uploads, readback, replay and the bench channel (R304 to R314, R347), and
the network messages a data port answers (R298, R80). -/

namespace Sys2Proof.Machine

def Bar.modDlv (b : Bar) (f : Delivery → Delivery) : Bar := { b with dlv := f b.dlv }

/-! ### Checks of a received datagram (R304, R314) -/

/-- What a received datagram says. -/
structure Heard where
  peer : Nat
  version : Nat
  stream : Nat
  type : Nat
  payload : List Byte
  frag : Nat := 0x8000              -- FRAG

/-- The peer whose address and UDP port a datagram comes from, at its data port or, `anyPort`, its replica port. -/
def Bar.peerOf (b : Bar) (rx : Rx) (anyPort : Bool) : Option Nat :=
  (List.range 16).find? fun k => b.peerOn k && b.peerAddr k = padTo 16 rx.addr && b.peerN k 3 = rx.udp
    && (b.peerN k 4 = rx.port.val || (anyPort && b.peerN k 5 = rx.port.val))

def isV1 (bs : List Byte) : Bool := bs.take 2 = [0x50, 0x4C]

/-- Message types that go from a peer to the bar (Table 10-3). -/
def typeFromPeer (stream type : Nat) : Bool :=
  match stream with
  | 0 => type = 1 || type = 3 || type = 4 || type = 5 || type = 8
  | 2 => type = 1
  | 7 => type = 1 || type = 2
  | 8 => type = 1 || type = 2
  | _ => false

/-- The version a datagram is in. -/
def rxVersion (bs : List Byte) : Nat := if isV1 bs then 1 else leAt bs 0 1

/-- A frame that a port that is up takes at all: tagged with its VLAN ID or untagged, as the port is set, and within the MTU
(R297); `size`: bytes behind the Ethernet header. -/
def Bar.fits (b : Bar) (p : Fin 4) (tag : Option Nat) (size : Nat) : Bool :=
  let vlan := b.portN p.val 4
  b.portUp p && tag = (if vlan = 0xFFFF then none else some vlan) && decide (size ≤ b.portN p.val 3)

/-- A datagram that the port takes for KSP: to its KSP port, no IP fragment, with a UDP checksum where IPv6 carries it (R298). Its
R-TAG has been removed (R304). -/
def Bar.takes (b : Bar) (rx : Rx) : Bool :=
  let a := padTo 16 rx.addr
  b.fits rx.port rx.tag (rx.bytes.length + 8 + ipHeader a) && rx.dst = b.portN rx.port.val 0x0A && !rx.fragment && !(rx.zeroSum && !isV4 a)

/-- The checks of R314 for a session's datagram, HELLO apart. A datagram with another KSID is not of the open session
(DEDUCED, log 86). -/
def Bar.hear (b : Bar) (rx : Rx) : Option (Session × Heard) :=
  match b.peerOf rx true with
  | none => none
  | some k => match b.session? k with
    | none => none
    | some s =>
      let bs := rx.bytes
      let v := rxVersion bs
      let len := kspHeader v
      let stream := if v = 1 then leAt bs 2 1 else leAt bs 1 1
      let type := leAt bs 2 1
      let payload := bs.drop len
      let ok := v = s.version && decide (len ≤ bs.length) && bit s.streams stream
        && (if v = 1 then stream = 0
            else typeFromPeer stream type && leAt bs 0x22 2 = payload.length && leAt bs 0x24 2 = s.ksid
              && (v ≠ 3 || !bit s.caps 0 || leAt bs 0x28 4 = crc32c payload))
      if ok then some (s, ⟨k, v, stream, type, payload, if v = 1 then 0x8000 else leAt bs 0x26 2⟩) else none

/-- A received datagram is dropped and counted (R314). -/
def Bar.malformed (b : Bar) : Bar :=
  (b.modDlv fun d => { d with rxDropped := sat32 d.rxDropped }).logLimited 0x9028 0 0 1000000000

/-- A datagram within the peer's 1,000 CONTROL datagrams per second. -/
def Bar.ctrlOk (b : Bar) (k : Nat) : Bool :=
  let c := b.dlv.ctrl[k % 16]'(Nat.mod_lt _ (by omega))
  decide (c.1 + 1000000000 ≤ b.now) || decide (c.2 < 1000)
/-- The peer's CONTROL datagram is counted, whatever session it belongs to. -/
def Bar.ctrlTake (b : Bar) (k : Nat) : Bar :=
  b.modDlv fun d => { d with ctrl := vmod d.ctrl ⟨k % 16, Nat.mod_lt _ (by omega)⟩ fun c =>
    if c.1 + 1000000000 ≤ b.now then (b.now, 1) else (c.1, c.2 + 1) }

/-- A datagram of a session arrives: dropped as malformed, discarded as a duplicate, or handed on. -/
def Bar.receive (b : Bar) (rx : Rx) (use : Bar → Heard → Bar) : Bar :=
  if !b.takes rx then b
  else match b.hear rx with
    | none => b.malformed
    | some (s, h) =>
      if h.stream = 0 && !b.ctrlOk h.peer then b.malformed
      else
        let seq := leAt rx.bytes 4 4
        let b := (if h.stream = 0 then b.ctrlTake h.peer else b).modSession h.peer fun s => { s with lastRx := b.now }
        if (h.stream, seq) ∈ s.taken then b
        else
          let b := b.modSession h.peer fun s =>
            { s with taken := (h.stream, seq) :: (s.taken.filter fun x => x.1 = h.stream).take 255 ++ s.taken.filter fun x => x.1 ≠ h.stream }
          use b h

/-- Has the datagram's SEQ been taken in its stream already (R304)? -/
def Bar.duplicate (b : Bar) (rx : Rx) : Bool :=
  match b.hear rx with | some (s, h) => decide ((h.stream, leAt rx.bytes 4 4) ∈ s.taken) | none => false

/-- Only a message of one kind is meant. -/
def onlyType (stream type : Nat) (use : Bar → Heard → Bar) (b : Bar) (h : Heard) : Bar :=
  if h.stream = stream && (h.type = type && h.version ≠ 1) then use b h else b

/-! ### Uploads (R311) -/

/-- Tokens of the upload bucket now, in bytes. -/
def Bar.uploadTokens (b : Bar) : Nat := b.uploadBucket.tokens / 10 ^ 9
def Bar.drawUpload (b : Bar) (n : Nat) : Bar :=
  let k := b.uploadBucket
  b.modDlv fun d => { d with upload := { k with tokens := k.tokens - n * 10 ^ 9 } }

/-- WINDOW that an ACK announces now. -/
def Bar.uploadWindow (b : Bar) : Nat := if b.sto.state = .mounting then 0 else min 4194304 b.uploadTokens

/-- The running upload of a session ends early. -/
def Bar.abortUpload (b : Bar) (k code : Nat) : Bar :=
  match b.session? k with
  | some s => if s.upload.isSome then (b.logEvent 0x9029 0).cutIngest false s.ksid code else b
  | none => b

def uploadUnit (type : Nat) (payload : List Byte) : KspUnit :=
  { stream := 7, type := type, cls := 5, be := false, late := false, line0 := 0, line1 := 0, gen := 0, payload := payload }

/-- BEGIN. -/
def Bar.spoolBegin (b : Bar) (h : Heard) : Bar :=
  if h.payload.length ≠ 12 then b.malformed
  else
    let length := leAt h.payload 0 8
    let id := leAt h.payload 8 4
    let b := b.abortUpload h.peer 0x5040
    if b.sto.state ≠ .mounted && b.sto.state ≠ .mounting then
      (b.sendUnit h.peer (uploadUnit 4 (leBytes 4 id ++ leBytes 4 0x504C ++ zeros 8))).logEvent 0x504C 0
    else match b.session? h.peer with
      | none => b
      | some s =>
        let b := b.modSession h.peer fun s => { s with upload := some ⟨id, length, 0, b.now, b.now, 0, 0, [], true⟩ }
        let b := b.openIngest false s.ksid id
        if length = 0 then b.feedIngest false s.ksid [] true else b

/-- What of a piece of bytes does not lie in another piece. -/
def cutPiece (other : Nat × List Byte) (p : Nat × List Byte) : List (Nat × List Byte) :=
  let o0 := other.1
  let o1 := other.1 + other.2.length
  let e := p.1 + p.2.length
  (if p.1 < o0 then [(p.1, p.2.take (o0 - p.1))] else []) ++ (if o1 < e then [(max p.1 o1, p.2.drop (o1 - p.1))] else [])

/-- Bytes that close the gap at `next`, one piece after the other. -/
def gather (next : Nat) : Nat → List (Nat × List Byte) → List Byte × List (Nat × List Byte)
  | 0, ps => ([], ps)
  | n + 1, ps => match ps.find? (·.1 = next) with
    | none => ([], ps)
    | some p =>
      let (bs, rest) := gather (next + p.2.length) n (ps.filter fun q => q.1 ≠ next)
      (p.2 ++ bs, rest)

/-- DATA: bytes within the announced window are kept, and draw from the bucket. -/
def Bar.spoolData (b : Bar) (h : Heard) : Bar :=
  match b.session? h.peer with
  | none => b
  | some s => match s.upload with
    | none => b
    | some u =>
      if h.payload.length < 8 then b.malformed
      else
        let off := leAt h.payload 0 8
        let bs := h.payload.drop 8
        let lo := max off u.next
        let hi := min (off + bs.length) (min (u.acked + u.window) u.length)
        let piece : Nat × List Byte := (lo, (bs.drop (lo - off)).take (hi - lo))
        let pieces := u.parts.foldl (fun (ps : List (Nat × List Byte)) o => ps.flatMap (cutPiece o)) [piece]
        let pieces := pieces.filter fun p => p.2 ≠ []
        let n := (pieces.map fun p => p.2.length).sum
        let pieces := if n ≤ b.uploadTokens then pieces else []
        let b := b.drawUpload ((pieces.map fun p => p.2.length).sum)
        let parts := u.parts ++ pieces
        let (got, parts) := gather u.next (parts.length + 1) parts
        let next := u.next + got.length
        let b := b.modSession h.peer fun s =>
          { s with upload := some { u with next := next, lastData := b.now, parts := parts, fresh := true } }
        if got = [] then b else b.feedIngest false s.ksid got (next = u.length)

/-- ACK is due: 1 ms after the last while data arrives, at every 256 KiB, and when a closed window opens. -/
def Bar.spoolAck (b : Bar) (k : Nat) : Bar :=
  match b.session? k with
  | none => b
  | some s => match s.upload with
    | none => b
    | some u =>
      let w := b.uploadWindow
      let timed := (u.fresh || (u.window = 0 && 0 < w)) && decide (u.lastAck + 1000000 ≤ b.now)
      if timed || decide (262144 ≤ u.next - u.acked) then
        let b := b.modSession k fun s =>
          { s with upload := some { u with lastAck := b.now, acked := u.next, window := w, fresh := false } }
        b.sendUnit k (uploadUnit 3 (leBytes 4 u.id ++ leBytes 8 u.next ++ leBytes 4 w))
      else b

/-- 5 s without DATA (R311); not while storage mounts. -/
def Bar.uploadTimeout (b : Bar) (k : Nat) : Bar :=
  match b.session? k with
  | none => b
  | some s => match s.upload with
    | none => b
    | some u => if b.sto.state ≠ .mounting && decide (u.lastData + 5000000000 ≤ b.now) then b.abortUpload k 0x5040 else b

/-! ### Sessions (R307 to R310) -/

def ctrlUnit (type : Nat) (payload : List Byte) : KspUnit :=
  { stream := 0, type := type, cls := 4, be := false, late := false, line0 := 0, line1 := 0, gen := 0, payload := payload }

/-- A session closes. -/
def Bar.closeSession (b : Bar) (k code : Nat) : Bar :=
  match b.session? k with
  | none => b
  | some _ =>
    let b := (b.abortUpload k 0x5040).setDialect k 0
    (b.modDlv fun d => { d with sessions := d.sessions.filter fun s => s.peer ≠ k
                                benchOut := d.benchOut.filter fun w => w.1 ≠ k }).logEvent code 0

/-- The result of negotiation (R308, R310): RESULT, version, capabilities, streams, dialect. -/
structure Deal where
  result : Nat
  version : Nat
  caps : Nat
  streams : Nat
  dialect : Nat

/-- Streams a version 1 session may carry. -/
def Bar.v1Streams (b : Bar) : Nat := 2 + b2n (b.liveN 0x2430 3 = 0) * 16 + b2n (b.liveN 0x2700 2 = 1) * 32

/-- The answer to an offer. -/
def Bar.negotiateHello (b : Bar) (k lo hi caps streams nzLo nzHi : Nat) : Deal :=
  match [3, 2, 1].find? fun v => decide (lo ≤ v) && decide (v ≤ hi) && decide (v ≤ b.peerN k 7) with
  | none => ⟨0x9030, 0, 0, 0, 0⟩
  | some v =>
    let caps := (caps &&& 7) &&& b.peerN k 8
    let caps := if v = 3 then caps else if v = 2 then caps &&& 4 else 0
    let caps := if b.rwN 0x2930 1 = 1 then caps else caps &&& 3
    let streams := ((streams &&& b.peerN k 6) &&& 0x1FE) &&& (if v = 1 then b.v1Streams else 0x1FE)
    let dialect := if bit streams 2 then b.negotiate k nzLo nzHi else 0
    if streams = 0 then ⟨0x9032, v, 0, 0, 0⟩
    else ⟨0, v, caps, (if dialect = 0 then putBit streams 2 false else streams) + 1, dialect⟩

/-- The next session ID: 1 to 0xFFFF, none that an open session has. -/
def Delivery.freshKsid (d : Delivery) : Nat :=
  match (List.range 17).find? fun i => !d.sessions.any fun s => s.ksid = (d.nextKsid + i - 1) % 65535 + 1 with
  | some i => (d.nextKsid + i - 1) % 65535 + 1
  | none => d.nextKsid

/-- HELLO_ACK's bytes; `v1` for the answer to a version 1 HELLO. -/
def Bar.helloAck (b : Bar) (v1 : Bool) (a : Deal) (ksid nonce : Nat) : List Byte :=
  let d : DgFields := ⟨0, 2, b2n b.tdNow * 16, 0, b.now, 0, 0, 0, ksid, 0, true⟩
  if v1 then kspBytes 1 false d (leBytes 2 a.result ++ leBytes 2 a.streams)
  else kspBytes 2 false d (leBytes 1 (if a.result = 0x9030 then 0 else a.version) ++ leBytes 1 a.dialect ++ leBytes 2 a.result
    ++ leBytes 4 a.caps ++ leBytes 2 a.streams ++ leBytes 2 ksid ++ leBytes 4 nonce ++ leBytes 8 b.uid ++ leBytes 8 b.now)

/-- HELLO_ACK goes to where its HELLO came from. -/
def Bar.answerHello (b : Bar) (rx : Rx) (peer : Nat) (bytes : List Byte) : Bar :=
  b.enqueue rx.port
    { kind := .ksp, cls := 4, bytes := bytes, peer := peer, stream := 0, rtag := none, window := none
      ip := some (b.kspHead rx.port (padTo 16 rx.addr) rx.udp bytes) }

/-- A HELLO is refused. -/
def Bar.helloRefused (b : Bar) (rx : Rx) (v1 : Bool) (peer result version nonce : Nat) : Bar :=
  let b := b.answerHello rx peer (b.helloAck v1 ⟨result, version, 0, 0, 0⟩ 0 nonce)
  (b.modDlv fun d => { d with helloRefused := sat32 d.helloRefused }).logEvent 0x9021 result

/-- A session opens; the nozzle subscribers of the peer learn the present states (R221). -/
def Bar.openSession (b : Bar) (rx : Rx) (v1 : Bool) (k nonce : Nat) (a : Deal) : Bar :=
  let ksid := b.dlv.freshKsid
  let s : Session :=
    { peer := k, ksid := ksid, version := a.version, caps := a.caps, streams := a.streams, dialect := a.dialect, lastRx := b.now
      lastKeep := b.now, seqs := (Vector.replicate 16 0).set 0 1, rtags := Vector.replicate 16 0, gap := 0, taken := [], held := []
      upload := none, readback := none, credit := 0 }
  let b := b.modDlv fun d => { d with sessions := d.sessions ++ [s], nextKsid := ksid % 65535 + 1 }
  let b := b.setDialect k a.dialect
  let b := b.answerHello rx k (b.helloAck v1 a ksid nonce)
  let b := b.logEvent 0x9020 0
  if a.dialect = 2 then (b.peerSubs k).foldl (fun b j => b.resync k (b.subN j 2) (b.subN j 3)) b else b

/-- A HELLO, in the version 2 header or as a version 1 datagram (R308, R310). -/
def Bar.hello (b : Bar) (rx : Rx) : Bar :=
  if !b.takes rx then b
  else
    let bs := rx.bytes
    let v1 := isV1 bs
    let payload := bs.drop (if v1 then 16 else 40)
    let fits := if v1 then leAt bs 2 1 = 0 && payload.length = 4
      else leAt bs 0 1 = 2 && leAt bs 1 1 = 0 && leAt bs 2 1 = 1 && payload.length = 32 && leAt bs 0x22 2 = 32
    if !fits then b.malformed
    else
      let nonce := if v1 then 0 else leAt payload 0x0C 4
      match b.peerOf rx false with
      | none => b.helloRefused rx v1 0xFF 0x9031 0 nonce
      | some k =>
        if !b.ctrlOk k then b.malformed
        else
          let b := (b.ctrlTake k).closeSession k 0x9023
          let a := if v1 then b.negotiateHello k 1 1 0 (leAt payload 0 2) 0 0
            else b.negotiateHello k (leAt payload 0 1) (leAt payload 1 1) (leAt payload 4 4) (leAt payload 8 2) (leAt payload 0x0A 1)
              (leAt payload 0x0B 1)
          let wanted := bit (if v1 then 0 else leAt payload 8 2 &&& b.peerN k 6) 2 && a.version ≠ 1 && a.result = 0
          let b := if wanted && a.dialect = 0 && b.peerSubs k ≠ [] then b.logEvent 0x6025 0 else b
          if a.result ≠ 0 then b.helloRefused rx v1 k a.result a.version nonce else b.openSession rx v1 k nonce a

/-- KEEPALIVE is due every 100 ms. -/
def Bar.keepalive (b : Bar) (k : Nat) : Bar :=
  match b.session? k with
  | some s =>
    if s.lastKeep + 100000000 ≤ b.now then
      (b.modSession k fun s => { s with lastKeep := s.lastKeep + 100000000 }).sendUnit k
        (ctrlUnit 4 (leBytes 8 b.now ++ leBytes 8 (unsigned 64 b.cap.tb.offset)))
    else b
  | none => b

/-- 1,000 ms without a datagram. -/
def Bar.sessionTimeout (b : Bar) (k : Nat) : Bar :=
  match b.session? k with
  | some s => if s.lastRx + 1000000000 ≤ b.now then b.closeSession k 0x9022 else b
  | none => b

/-! ### Replay (R313) -/

/-- A held datagram as it goes out again: REPLAY and BE set. -/
def asReplay (bs : List Byte) : List Byte := bs.take 3 ++ (leBytes 1 (leAt bs 3 1 ||| 10) ++ bs.drop 4)

/-- A held datagram goes out again, on both ports of a peer that has a replica port, under an R-TAG number of its own (R304). -/
def Bar.resend (b : Bar) (s : Session) (x : Nat × Nat × List Byte) : Bar :=
  let k := s.peer
  let p := portIx (b.peerN k 4)
  let rep := b.replica? k x.1
  let st : Fin 16 := ⟨x.1 % 16, by omega⟩
  let bytes := asReplay x.2.2
  let room (q : Fin 4) : Bool := b.beRoom q s.version [x.2.2.drop (kspHeader s.version)]
  if room p && rep.all room then
    let frame : Frame :=
      { kind := .ksp, cls := 0, bytes := bytes, peer := k, stream := x.1
        rtag := rep.map fun _ => ((b.session? k).elim 0 fun s => s.rtags[st]), window := none
        ip := some (b.kspHead p (b.peerAddr k) (b.peerN k 3) bytes) }
    let b := if rep.isSome then b.modSession k fun s => { s with rtags := vmod s.rtags st fun q => (q + 1) % 65536 } else b
    let b := b.enqueue p frame
    rep.elim b fun q => b.enqueue q frame
  else b.dropUnit k x.1

def Bar.replay (b : Bar) (h : Heard) : Bar :=
  match b.session? h.peer with
  | none => b
  | some s =>
    let stream := leAt h.payload 0 1
    let first := leAt h.payload 4 4
    let count := leAt h.payload 8 2
    if h.payload.length ≠ 10 || count = 0 || 256 < count || !bit s.caps 1 then b.malformed
    else (List.range count).foldl (fun b i =>
      match s.held.find? fun x => x.1 = stream && x.2.1 = (first + i) % 2 ^ 32 with
      | none => b
      | some x => b.resend s x) b

/-! ### Readback (R274, R312) -/

/-- An object's bytes, or how it is missing: RESULT 1 NOT_AVAILABLE, 2 UNREADABLE. Only mounted or sealed storage serves; a
ledger entry that is not staged yet is read where it was formed. -/
def Bar.readStored (b : Bar) (k : StKey) : Nat × List Byte :=
  if b.sto.state ≠ .mounted && !b.sto.closed then (1, [])
  else match b.sto.stored.find? fun x => x.data.key = k with
    | some x => if x.unreadable then (2, []) else (0, x.data.bytes)
    | none => match b.sto.staging.find? fun u => u.key = k with
      | some u => (0, u.bytes)
      | none => match k with
        | .entry n => (b.sto.ledger.find? fun e => e.1 = n).elim (1, []) fun e => (0, e.2)
        | _ => (1, [])

/-- An object is read: what NAND holds of it is decoded (R261). -/
def Bar.decodeStored (b : Bar) (k : StKey) : Bar :=
  match b.sto.stored.find? fun x => x.data.key = k with
  | some x => if x.unreadable || (b.sto.state ≠ .mounted && !b.sto.closed) then b else b.readUnit x
  | none => b

/-- INDEX of every evidence object held of an item, ascending. -/
def Bar.evidenceOf (b : Bar) (session seq : Nat) : List Nat :=
  let ix (k : StKey) : Option Nat := match k with | .object s q i => if s = session && q = seq then some i else none | _ => none
  (((b.sto.stored.filterMap fun x => ix x.data.key) ++ b.sto.staging.filterMap fun u => ix u.key).eraseDups).mergeSort (· ≤ ·)

/-- The objects of one object number of a readback, each with its DATA; an item without evidence has one that is missing. -/
def Bar.readbackObjects (b : Bar) (r : Readback) (n : Nat) : List StKey :=
  match r.kind with
  | 1 => [.chunk n]
  | 2 => match b.evidenceOf r.session n with
    | [] => [.object r.session n 0xFFFF]
    | is => is.map fun i => .object r.session n i
  | _ => [.entry n]

def readbackUnit (type : Nat) (payload : List Byte) : KspUnit :=
  { stream := 8, type := type, cls := 0, be := true, late := false, line0 := 0, line1 := 0, gen := 0, payload := payload }

/-- DATA goes out while credit covers it and its port's BEST_EFFORT queue has room, which an empty queue always has
(R312, R323); every DATA costs its payload (DEDUCED, log 87). -/
def Bar.readbackRun (b : Bar) (k : Nat) : Nat → Bar
  | 0 => b
  | fuel + 1 =>
    match b.session? k with
    | none => b
    | some s => match s.readback with
      | none => b
      | some r =>
        if r.stop ≤ r.next then (b.modSession k fun s => { s with readback := none }).sendUnit k (readbackUnit 4 [])
        else
          let all := b.readbackObjects r r.next
          match all[r.sub]? with
          | none => (b.modSession k fun s => { s with readback := some { r with next := r.next + 1, sub := 0 } }).readbackRun k fuel
          | some key =>
            let size := (b.readStored key).2.length
            let p := portIx (b.peerN k 4)
            let unit (res : Nat) (bs : List Byte) : KspUnit :=
              readbackUnit 3 (leBytes 8 r.next ++ leBytes 1 res ++ zeros 3 ++ leBytes 4 bs.length ++ bs)
            let room := b.beRoom p s.version (b.unitPieces k s.version (unit 0 (zeros size)))
            if 16 + size ≤ s.credit && (((b.portRun p).dlv.ports[p]).beQueued = 0 || room) then
              let b := b.decodeStored key
              let (res, bytes) := b.readStored key
              let last := decide (all.length ≤ r.sub + 1)
              let r' := if last then { r with next := r.next + 1, sub := 0 } else { r with sub := r.sub + 1 }
              let b := b.modSession k fun s => { s with credit := s.credit - (16 + bytes.length), readback := some r' }
              (b.sendUnit k (unit res bytes)).readbackRun k fuel
            else b

/-- Enough steps for what a session's credit can pay. -/
def Bar.readbackGo (b : Bar) (k : Nat) : Bar := b.readbackRun k (match b.session? k with | some s => 2 * (s.credit / 16) + 3 | none => 0)

/-- A port has sent frames: readbacks that waited for room in its queue go on. -/
def Bar.readbackResume (b : Bar) (p : Fin 4) : Bar :=
  (List.range 16).foldl (fun b k => if portIx (b.peerN k 4) = p then b.readbackGo k else b) b

def Bar.readbackRequest (b : Bar) (h : Heard) : Bar :=
  let kind := leAt h.payload 0 1
  if h.payload.length ≠ 24 || kind = 0 || 3 < kind then b.malformed
  else (b.modSession h.peer fun s =>
    { s with readback := some ⟨kind, leAt h.payload 4 4, leAt h.payload 8 8, leAt h.payload 16 8, 0⟩ }).readbackGo h.peer

def Bar.credit (b : Bar) (h : Heard) : Bar :=
  if h.payload.length ≠ 4 then b.malformed
  else (b.modSession h.peer fun s => { s with credit := s.credit + leNat h.payload }).readbackGo h.peer

/-! ### Bench channel (R347) -/

def opOfCode : Nat → SdoOp
  | 1 => .upload | 2 => .download | 3 => .uploadCa | 4 => .downloadCa | c => .unknown c

/-- Requests of a session that wait for their answer, or whose answer waits for queue space (R323). -/
def Bar.benchWaiting (b : Bar) (ksid : Nat) : Nat :=
  b.par.waiting.countP (fun r => r.ch = .bench && r.session = ksid) + b.dlv.benchOut.countP fun w => w.2.1 = ksid

/-- A BENCH_REQ whose unit is whole. -/
def Bar.benchRequest (b : Bar) (h : Heard) (stuck : List Nat) (stuckMask : Nat) : Bar :=
  match b.session? h.peer with
  | none => b
  | some s =>
    let p := h.payload
    let armed := match b.par.armRequest with | some r => r.ch = .bench && r.session = s.ksid | none => false
    if !bit s.caps 2 || b.rwN 0x2930 1 ≠ 1 || p.length < 20 || leAt p 8 4 ≠ p.length - 20 then b.malformed
    else if 4 ≤ b.benchWaiting s.ksid + b2n armed then b.modDlv fun d => { d with rxDropped := sat32 d.rxDropped }
    else
      let r : SdoRequest := { ch := .bench, op := opOfCode (leAt p 4 1), index := leAt p 6 2, sub := leAt p 5 1
                              value := p.drop 20, session := s.ksid, tag := leAt p 0 4, stuck := stuck, stuckMask := stuckMask }
      b.sdoArrive r

/-- The datagrams of a bench request, in order: the first carries the head of its payload. One whose SEQ has been taken is
discarded (R304). -/
def Bar.benchReceive (b : Bar) (rx : Rx) (more : List Rx) : Bar :=
  b.receive rx (onlyType 0 8 fun b h =>
    let (b, rest) := more.foldl (fun (a : Bar × List (Option Heard)) x =>
      (a.1.receive x fun b _ => b,
       if a.1.duplicate x then a.2 else a.2 ++ [if a.1.takes x then (a.1.hear x).map fun y => y.2 else none])) (b, [])
    let whole := (some h :: rest).zipIdx.all fun x => match x.1 with
      | some y => y.peer = h.peer && y.stream = 0 && y.type = 8 && y.frag = x.2 + (if x.2 = rest.length then 0x8000 else 0)
      | none => false
    if !whole then b.malformed
    else b.benchRequest { h with payload := h.payload ++ rest.flatMap fun x => match x with | some y => y.payload | none => [] } [] 0)

/-! ### Head controllers (R221, R222) -/

/-- The records of a NOZZLE datagram from a peer of dialect 2, in order. -/
def Bar.nozzleRecords (b : Bar) (h : Heard) : Bar :=
  match b.session? h.peer with
  | none => b
  | some s =>
    if s.dialect ≠ 2 || h.payload.length % 16 ≠ 0 then b.malformed
    else (List.range (h.payload.length / 16)).foldl (fun b i =>
      let r := sliceAt h.payload (16 * i) 16
      if leAt r 0 1 = 0x10 then b.commandRecord h.peer r else b) b

/-! ### Datagrams that R314 drops -/

/-- A datagram that is none of R314's good ones: dropped and counted. -/
def Bar.kspMalformed (b : Bar) (rx : Rx) : Bar :=
  let isHello := if isV1 rx.bytes then leAt rx.bytes 2 1 = 0 && rx.bytes.length = 20 else leAt rx.bytes 1 1 = 0 && leAt rx.bytes 2 1 = 1
  if isHello then b.hello rx else b.receive rx fun b _ => b

/-! ### ARP, neighbour discovery, echo (R298) -/

def Bar.ownsIp4 (b : Bar) (p : Fin 4) (a : List Byte) : Bool := b.portN p.val 5 ≠ 0 && a = b.ip4 p
def Bar.ownsIp6 (b : Bar) (p : Fin 4) (a : List Byte) : Bool := (b.ip6 p ≠ zeros 16 && a = b.ip6 p) || a = b.linkLocal p

/-- An ARP request for a port's address is answered (PRESUMED, log 23: the packet of RFC 826). -/
def Bar.arpRequest (b : Bar) (p : Fin 4) (tag : Option Nat) (mac sender target : List Byte) : Bar :=
  if b.fits p tag 28 && b.ownsIp4 p target then
    b.sendReply p .arp none ([0, 1, 8, 0, 6, 4, 0, 2] ++ b.macAddr p.val ++ b.ip4 p ++ padTo 6 mac ++ padTo 4 sender)
  else b

/-- An ICMPv6 message with its checksum over the pseudo-header of IPv6. -/
def icmp6 (src dst : List Byte) (type : Nat) (rest : List Byte) : List Byte :=
  let body := leBytes 1 type ++ [0, 0, 0] ++ rest
  let sum := inetChecksum (src ++ dst ++ beBytes 4 body.length ++ [0, 0, 0, 58] ++ body)
  leBytes 1 type ++ [0] ++ beBytes 2 sum ++ rest

/-- A neighbour solicitation for a port's address is answered (PRESUMED, log 23: RFC 4861, solicited and override set). -/
def Bar.neighbourSolicitation (b : Bar) (p : Fin 4) (tag : Option Nat) (fragment : Bool) (sender target : List Byte) : Bar :=
  if b.fits p tag 72 && !fragment && b.ownsIp6 p target then
    b.sendReply p .nd (some ⟨target, padTo 16 sender, false, none⟩) (icmp6 target (padTo 16 sender) 136 ([0x60, 0, 0, 0] ++ target ++ [2, 1] ++ b.macAddr p.val))
  else b

/-- An echo request to a port's address is answered with its own identifier, sequence number and data; a fragment is dropped. -/
def Bar.echoRequest (b : Bar) (p : Fin 4) (tag : Option Nat) (v6 fragment : Bool) (sender target rest : List Byte) : Bar :=
  let v4 (a : List Byte) : List Byte := zeros 10 ++ [0xFF, 0xFF] ++ padTo 4 a
  if !b.fits p tag ((if v6 then 40 else 20) + 4 + rest.length) || fragment then b
  else if v6 then
    (if b.ownsIp6 p target then b.sendReply p .echo (some ⟨target, padTo 16 sender, false, none⟩) (icmp6 target (padTo 16 sender) 129 rest) else b)
  else if b.ownsIp4 p target then
    b.sendReply p .echo (some ⟨v4 target, v4 sender, true, none⟩) ([0, 0] ++ beBytes 2 (inetChecksum ([0, 0, 0, 0] ++ rest)) ++ rest)
  else b

/-- A peer delay request is answered (R80). -/
def Bar.peerDelayRequest (b : Bar) (p : Fin 4) : Bar :=
  if b.portUp p then b.sendReply p .gptp none (Config.peerDelayReply p.val b.now) else b

end Sys2Proof.Machine
end

