-- ==== Sys2Proof/Machine/Foe.lean ====
section
/-! DEFINITION. Files over FoE (R349 to R351, R464, R473): requests, data packets, checks and answers. -/

namespace Sys2Proof.Machine

/-- Largest size of a file (Table 11-12). -/
def foeLargest : FoeFile → Nat
  | .firmware => 3145728
  | .calibration => 4194304
  | .nozzleMap => 81956
  | .mediaProfile => 64
  | .job => 2 ^ 40
  | .eventlog => 524288
  | .logbundle => 16777216
  | .identity => 8192
  | .quote => 8192

/-- Files written in PRE-OP only, and the code another state earns. -/
def foePreop : FoeFile → Option Nat
  | .firmware => some 0x31
  | .calibration => some 0x4008
  | .mediaProfile => some 0x8002
  | _ => none

/-- Files served in recovery mode (R446, R473). -/
def foeRecovery : FoeFile → Bool
  | .firmware => true
  | .eventlog => true
  | .quote => true
  | _ => false

/-- Why a request is refused before any data: FoE error and detail code (R349, R350). -/
def Bar.foeDenied (b : Bar) (f : FoeFile) : Option (Nat × Nat) :=
  if b.foe.isSome then some (0x8000, 0x34)
  else if b.sec.recovery && !foeRecovery f then some (0x8002, 0x31)
  else match foePreop f with
    | some code => if b.ecat.al = .preop then none else some (0x8002, code)
    | none => none

/-- A request that INIT lets through to no mailbox, that is refused, or that is served. -/
def Bar.foeRequest (b : Bar) (f : FoeFile) (serve : Bar → Bar) : Bar :=
  if b.ecat.al = .init then b
  else match b.foeDenied f with
    | some (error, detail) => b.foeError error detail true
    | none => serve b

/-- A transfer ends with ERROR. -/
def Bar.foeFail (b : Bar) (error detail : Nat) : Bar := ({ b with foe := none } : Bar).foeError error detail true

/-- A BUSY, until the answer comes (R349). -/
def Bar.foeHold (b : Bar) (f : FoeTransfer) : Bar := { b with foe := some { f with busySince := some b.now }, sm1 := b.sm1 ++ [.foeBusy] }

/-- 100 ms after a BUSY the next follows, while the ACK is withheld or the checks run (R349). -/
def Bar.foeBusy (b : Bar) : Bar :=
  match b.foe with
  | some f => match f.busySince with
    | some t => if t + 100000000 ≤ b.now then b.foeHold f else b
    | none => b
  | none => b

/-- A file is opened for writing. The target slot of an image loses its MAGIC before the first packet (R464). -/
def Bar.foeOpen (b : Bar) (f : FoeFile) : Bar :=
  b.foeRequest f fun b =>
    let b : Bar := ({ b with foe := some ⟨f, 1, [], none, false⟩ } : Bar).foeAck 0
    if f = .firmware then b.fillSlot [] else b

/-- What a file's checks do with its content: the bar, and the code of a refusal (R464, R144, R203, R260). -/
def Bar.takeFile (b : Bar) (f : FoeFile) (bytes : List Byte) : Bar × Nat :=
  match f with
  | .firmware => b.stageImage bytes
  | .calibration => b.takeCalibration bytes
  | .nozzleMap => b.takeMap bytes
  | .mediaProfile => if profileValid bytes then (b.takeProfile bytes, 0) else (b, 0x8006)
  | _ => (b, 0)

/-- The checks of a file that has come in whole end: ACK of its last packet, or ERROR. -/
def Bar.foeChecked (b : Bar) (file : FoeFile) : Bar :=
  match b.foe with
  | some f =>
    if f.file = file && f.checking then
      let (b, code) := ({ b with foe := none } : Bar).takeFile file f.bytes
      if code = 0 then b.foeAck (f.nextPacket - 1) else b.foeError 0x8004 code true
    else b
  | none => b

/-- A write: its request, or the end of its checks. -/
def Bar.foeWrite (b : Bar) (f : FoeFile) (step : FoeStep) : Bar :=
  match step with | .request => b.foeOpen f | .checked => b.foeChecked f

/-- job.zjc: the transfer opens (R173, R349). -/
def Bar.foeJob (b : Bar) : Bar :=
  b.foeRequest .job fun b =>
    if b.sto.state = .mounted || b.sto.state = .mounting then
      (({ b with foe := some ⟨.job, 1, [], none, false⟩ } : Bar).openIngest true 0 0).foeAck 0
    else b.foeError 0x8002 0x504C true

/-- The container being written ends for a fault of the transfer, which is its first failure unless it has one. -/
def Bar.foeBreak (b : Bar) (code : Nat) : Bar :=
  (b.modIngest true 0 fun i => { i with firstFail := some (i.firstFail.getD code) }).cutIngest true 0 0x5040

/-- A data packet of the container in its turn: withheld with BUSY while the upload bucket is empty, or taken (R349). -/
def Bar.jobPacket (b : Bar) (f : FoeTransfer) (packet : Nat) (bytes : List Byte) : Bar :=
  if 2 ^ 40 < (packet - 1) * 1012 + bytes.length then b.foeBreak 0x32
  else if b.sto.state = .mounting || b.uploadTokens < bytes.length then b.foeHold f
  else
    let last := decide (bytes.length < 1012)
    let f' := { f with nextPacket := f.nextPacket + 1, busySince := none, checking := last }
    let b : Bar := { b.drawUpload bytes.length with foe := some f' }
    let b := b.feedIngest true 0 bytes last
    if b.foe.isNone then b else if last then b.foeHold f' else b.foeAck packet

/-- A data packet of another file in its turn: an image goes into its slot as it arrives (R464); after the last the checks run. -/
def Bar.filePacket (b : Bar) (f : FoeTransfer) (packet : Nat) (bytes : List Byte) : Bar :=
  let got := f.bytes ++ bytes
  if foeLargest f.file < got.length then b.foeFail 0x8003 0x32
  else
    let last := decide (bytes.length < 1012)
    let f' := { f with nextPacket := f.nextPacket + 1, bytes := got, checking := last }
    let b := if f.file = .firmware then b.fillSlot got else b
    if last then b.foeHold f' else ({ b with foe := some f' } : Bar).foeAck packet

/-- Files that are written. -/
def foeWritten : FoeFile → Bool
  | .firmware => true | .calibration => true | .nozzleMap => true | .mediaProfile => true | .job => true | _ => false

/-- A data packet from the master (R349, R350). DESIGN CHOICE (log 160): the state a file needs holds for each of its packets. -/
def Bar.foePacket (b : Bar) (packet : Nat) (bytes : List Byte) : Bar :=
  match b.foe with
  | none => b
  | some f =>
    if !foeWritten f.file || f.checking then b
    else match (if b.ecat.al = .preop then none else foePreop f.file) with
      | some code => b.foeFail 0x8002 code
      | none =>
        if packet ≠ f.nextPacket then (if f.file = .job then b.foeBreak 0x33 else b.foeFail 0x8005 0x33)
        else if f.file = .job then b.jobPacket f packet bytes
        else b.filePacket f packet bytes

/-! ### Files read -/

/-- A file is sent: its first packet, then one after each ACK. -/
def Bar.foeSend (b : Bar) (file : FoeFile) (bytes : List Byte) : Bar := ({ b with foe := some ⟨file, 1, bytes, none, false⟩ } : Bar).foeNext

/-- eventlog.bin: the entries, oldest first. -/
def Bar.eventlogBytes (b : Bar) : List Byte := b.log.entries.reverse.flatMap LogEntry.bytes

def Bar.foeEventlog (b : Bar) : Bar := b.foeRequest .eventlog fun b => b.foeSend .eventlog b.eventlogBytes

/-- An entry of the dictionary snapshot. -/
def snapshotEntry (index sub : Nat) (v : List Byte) : List Byte :=
  leBytes 2 index ++ leBytes 1 sub ++ leBytes 1 0 ++ leBytes 4 v.length ++ v

/-- The dictionary in its live view, object by object, every entry that can be read: of a record, its highest subindex at 0x00
first (R351). A queue or log entry that a read would not find now has LENGTH 0. -/
def Bar.snapshot (b : Bar) : List Byte :=
  let b : Bar := { b with sdoM := { b.sdoM with readView := 2 } }
  b.objects.flatMap fun index =>
    (if b.isRecord index then snapshotEntry index 0 (leBytes 1 (b.highestSub index)) else [])
      ++ (b.subs index).flatMap fun sub => match b.entry? index sub with
        | some e => if e.acc = .wo then [] else snapshotEntry index sub (b.peek .mailbox e index sub)
        | none => []

/-- The three sections of the log bundle (R351). -/
def Bar.bundleSections (b : Bar) : List Byte :=
  let section_ (type : Nat) (body : List Byte) : List Byte := leBytes 4 type ++ leBytes 4 body.length ++ body
  section_ 1 b.eventlogBytes ++ section_ 2 b.saf.ret.bytes ++ section_ 3 b.snapshot

/-- The deflate job that codes the bundle, with a chain that holds its largest size. -/
def bundleJob (input : List Byte) : Job :=
  { owner := .bundle, deflate := true, wrap := true, guaranteed := false, input := input, declared := 0, toSbf := false
    chain := [⟨0, 16777216, 0, 0⟩], status := .queued, consumed := 0, produced := 0, error := 0, buffers := 0, check := 0, output := [] }

/-- logbundle.bin is requested: its sections go to the deflate engine as a BEST_EFFORT job, and the transfer runs until the
job ends (R248, R351). -/
def Bar.foeBundle (b : Bar) : Bar :=
  b.foeRequest .logbundle fun b => ({ b with foe := some ⟨.logbundle, 1, [], none, false⟩ } : Bar).queueJob (bundleJob b.bundleSections)

/-- The bundle's job has ended: one zlib stream, or the sections uncoded after NO_GAIN. -/
def Bar.bundleDone (b : Bar) (j : Job) : Bar :=
  match b.foe with
  | some f => if f.file = .logbundle && f.nextPacket = 1 then b.foeSend .logbundle (if j.status = .done then j.output else j.input) else b
  | none => b

/-- identity.crt, as MRAM holds it (R475). -/
def Bar.foeIdentity (b : Bar) : Bar := b.foeRequest .identity fun b => b.foeSend .identity b.identityCert

/-- quote.bin: a new quote over the last nonce (R473). -/
def Bar.foeQuote (b : Bar) : Bar :=
  b.foeRequest .quote fun b => match b.quote with
    | some q => b.foeSend .quote q
    | none => b.foeError 0x8004 0xE009 true

/-- A request that names no file, or a file in the direction it does not have (R350). -/
def Bar.foeUnknown (b : Bar) (file : Option FoeFile) : Bar :=
  if b.ecat.al = .init then b
  else if b.foe.isSome then b.foeError 0x8000 0x34 true
  else match file with
    | none => b.foeError 0x8001 0x30 true
    | some _ => b.foeError 0x8002 0x31 true

end Sys2Proof.Machine
end

