-- ==== Sys2Proof/Machine/Startup.lean ====
section
/-! DEFINITION. Reset, start-up, thermal shutdown and restart, and EXTEST (R341, R408, R409, R421, R437, R440, R444 to
R446, R490, R495). -/

namespace Sys2Proof.Machine

/-! ### What a reset leaves -/

/-- Groups after a reset at which journal records were still to be programmed: an erase whose ERASE_DONE is lost counts as not
done, and the erase of a group that waited for a read has not begun (R288). -/
def Storage.groupsAfterReset (s : Storage) : List Group :=
  s.groups.map fun (g : Group) => if decide (JournalRec.eraseDone g.id ∈ s.journal) then { g with erasing := true, closed := true } else g

/-- Storage after a reset at time `now`: what NAND, the journal and the MRAM hold stays; counts of the boot restart. Sealing
that the reset cuts short leaves no gap entry. -/
def Storage.afterReset (s : Storage) (now : Nat) : Storage :=
  { s with
    state := .absent, mountMs := 0, media := .none, pslc := none, profState := 0, high := 0, uncovered := false, exportLogged := false
    pfail := false, pfailAt := none, pfailGap := if s.state = .sealed then s.pfailGap else none, formatPending := none, running := 32, groups := s.groupsAfterReset, discards := 0
    journal := [], journalFrom := none, retries := [], checks := [], awaiting := [], refreshDue := [], stripesRead := 0, rebuilt := 0, untimely := 0
    lost := 0, refreshed := 0, rereads := 0, uncorrectable := 0, powered := s.powered + now }

/-- The hub and the segments are reset as RESET_N does: everything but fuses, MRAM, NAND and the retention domain goes
back to its reset value, and the timebase starts at 0 (R77, R437, R459). The TAP keeps its instruction: while that is EXTEST the
bar stays held in reset (R495). -/
def Bar.hardReset (b : Bar) : Bar :=
  { Bar.reset with
    free := b.free
    segs := b.segs
    persist := b.persist
    log := { b.log with overwritten := 0, emergDropped := 0, limits := [] }
    -- 0x2F00:03 of each channel starts at the oldest entry (Table 11-16)
    sdoM := { SdoChannel.reset with logPtr := b.log.next - b.log.entries.length }
    sdoB := { SdoChannel.reset with logPtr := b.log.next - b.log.entries.length }
    saf := { Safety.reset with ret := b.saf.ret, tap := b.saf.tap, power := if b.saf.tap = .extest then .extest else .reset }
    thm := { Thermal.reset with tripSensor := b.thm.tripSensor, tripPeak := b.thm.tripPeak, tripOpen := b.thm.tripOpen }
    nz := { Nozzle.reset with mapSlots := b.nz.mapSlots }
    cap := { Capture.reset with refs := b.cap.refs }
    sto := b.sto.afterReset b.now
    dlv := { Delivery.reset with nextKsid := b.dlv.nextKsid }
    sec := { b.sec with groupsDefault := 0, running := none, fellBack := false, calNew := false, uncalibrated := false, recovery := false } }

/-! ### Causes of a reset -/

/-- RESET_N has been low for `low` ns: a pulse of less than 2 µs is ignored (R490). -/
def Bar.externalReset (b : Bar) (low : Nat) : Bar :=
  if b.saf.power = .shutdown || decide (low < 2000) then b else ((b.logEvent 0xD030 0).recordCause 0xD030).hardReset

/-- The monitor limits of VCORE, VDDA, VDDIO, VIO33, VSER and VCCQ, in mV (Table 17-8). -/
def railLimits : List (Nat × Nat) := [(500, 900), (2600, 3000), (1670, 1930), (3070, 3530), (840, 960), (1120, 1280)]

/-- A rail stands at a voltage for a time: outside its monitor limits for 5 µs it resets the bar (R421); the supplies of a
bar that is shut down are cycled so (R408). -/
def Bar.brownOut (b : Bar) (rail : Fin 6) (mv held : Nat) : Bar :=
  let (low, high) := railLimits.getD rail.val (0, 0)
  if decide (held < 5000) || (decide (low ≤ mv) && decide (mv ≤ high)) then b
  else ((b.logEvent 0xD02E rail.val).recordCause 0xD02E).hardReset

/-- 4,000 µs after a reset was decided, when the sealing it began is complete (R437). -/
def Bar.resetHub (b : Bar) : Bar :=
  match b.saf.resetAt with
  | some (t, _) => if t + 4000000 ≤ b.now then b.sealDone.hardReset else b
  | none => b

/-- The EXTEST instruction holds the hub and the segments in reset (R495). -/
def Bar.extest (b : Bar) : Bar :=
  if b.saf.power = .shutdown || b.saf.power = .extest then b
  else (((b.logEvent 0xD030 0).recordCause 0xD030).modSaf fun s => { s with tap := .extest }).hardReset

/-- A TAP reset ends EXTEST; the start-up sequence follows (R495). IDCODE is the instruction it selects (PRESUMED, log 185:
IEEE 1149.1 has it so). -/
def Bar.tapReset (b : Bar) : Bar :=
  b.modSaf fun s => { s with tap := .idcode, power := if s.power = .extest then .reset else s.power }

/-! ### Thermal shutdown (R408, R409) -/

/-- The shutdown comparators of the part: HD1, and SDsb of each of its segments (Table 14-1). -/
def Bar.shutdownDiode (b : Bar) (i : Fin 26) : Bool := i.val = 17 || (decide (i.val < 2 * b.segs) && i.val % 2 = 1)

/-- A shutdown diode, whose comparator sees `peak` in 1/16 °C, trips at 110 °C, or after it has been open or shorted for 10 ms: the hub core domains are switched off,
nothing more is published, and storage loses what was not committed. The comparators need no firmware: they trip a bar that
is in reset as well. The TAP loses its instruction with the hub's supply (DEDUCED, log 185). -/
def Bar.thermalTrip (b : Bar) (sensor : Fin 26) (peak : Int) (openFor : Nat) : Bar :=
  let openShort := decide (10000000 ≤ openFor)
  if b.saf.power = .shutdown || !b.shutdownDiode sensor || (!openShort && decide (peak < 1760)) then b
  else
    let b' := (b.recordCause 0xC027).hardReset
    ({ b' with now := b.now, sto := { b'.sto with powered := b.sto.powered } } : Bar).modThm (fun t => { t with tripSensor := sensor.val, tripPeak := peak, tripOpen := openShort })
      |>.modSaf fun s => { s with power := .shutdown, tap := .idcode }

/-- Every on-die sensor of the part has read below 95 °C for 10 s without interruption; a reading stands for the 1 ms until
the next (R409). -/
def Bar.cooled (b : Bar) : Bool :=
  (List.finRange 26).all fun i => decide (18 ≤ i.val) || !b.sensorOn i.val || match (b.thm.sensors[i]).cool with
    | some (since, last) => decide (since + 10000000000 ≤ b.now) && decide (b.now / 1000000 ≤ last / 1000000 + 1)
    | none => false

/-- All on-die sensors have read below 95 °C for 10 s: a cold start, whose first log entry names the trip. -/
def Bar.thermalRestart (b : Bar) : Bar :=
  if b.saf.power = .shutdown && !b.thm.tripOpen && b.cooled then
    b.hardReset.logEvent 0xC027 (b.thm.tripSensor * 65536 + unsigned 16 b.thm.tripPeak)
  else b

/-! ### Start-up (Table 16-1) -/

/-- BOOTS counts the start; RUNNING still set means a power loss with no cause recorded (R440). -/
def Bar.bootRetained (b : Bar) : Bar :=
  let lost := b.saf.ret.running
  let b := if lost then
      (b.modRet fun r => { r with powerLosses := sat16 r.powerLosses, lastCause := 0xD02F, lastBoot := r.boots, lastTime := 0, lastLine := 0 }).logEvent
        0xD02F 0
    else b
  b.modRet fun r => { r with boots := sat32 r.boots, running := false }

/-- The bar enters recovery mode; how ARG codes the cause is left open (R446). -/
def Bar.enterRecovery (b : Bar) (cause : Nat) : Bar :=
  (b.modSec fun x => { x with recovery := true, running := none }).logEvent 0xE026 (Config.openObject (0xE02600 + cause) % 2 ^ 64)

/-- The boot ROM acts on the boot anchor at each start (R463), then the firmware it selected runs, or it enters recovery mode: 1 no slot verifies, 2 root group, 3 feature
group, 4 the firmware cannot start. -/
def Bar.bootFirmware (b : Bar) (starts : Bool) : Bar :=
  let b := b.bootSelect
  if bit b.sec.groupsDefault 1 then b.enterRecovery 3
  else if bit b.sec.groupsDefault 2 then b.enterRecovery 2
  else if b.sec.running.isNone then b.enterRecovery 1 else if starts then b else b.enterRecovery 4

/-- Does a stored key belong to a STAGED entry? -/
def stagedKey (key : Nat) : Bool := match findEntry (key / 256) (key % 256) with | some e => e.acc = .staged | none => false

/-- The program memory of an engine from its stored bytes. -/
def programOf (bs : List Byte) : Vector Word16 256 := Vector.ofFn fun (i : Fin 256) => BitVec.ofNat 16 (leAt bs (2 * i.val) 2)

/-- An engine with the program an image holds for it. -/
def loadProgram (values : Store) (e : Fin 4) (x : Engine) : Engine :=
  match Store.find values (objKey (0x2A04 + e.val) 0) with
  | some (.raw bs) => { x with program := programOf bs }
  | _ => x

/-- The values of an image become the staged and live copies, the RW and RW_PREOP values and the programs. -/
def Bar.loadImage (b : Bar) (values : Store) : Bar :=
  let isProgram (key : Nat) : Bool := decide (0x2A04 ≤ key / 256) && decide (key / 256 ≤ 0x2A07)
  let staged := values.filter fun e => stagedKey e.1
  let rw := values.filter fun e => !stagedKey e.1 && !isProgram e.1
  let b := b.modPar fun p => { p with staged := staged, live := staged, rw := rw }
  { b with io := { b.io with engines := Vector.ofFn fun (e : Fin 4) => loadProgram values e b.io.engines[e] } }

/-- Persisted parameters are applied and admitted, or replaced by the defaults (R341). -/
def Bar.applyPersisted (b : Bar) : Bar :=
  let plain (b : Bar) : Bar := b.recordAdmission (b.admission b.par.staged)
  let state (b : Bar) (n : Nat) : Bar := { b with persist := { b.persist with state := n, refused := decide (n = 2) } }
  if b.persist.restoreMark then
    plain ({ b with persist := { b.persist with image0 := none, image1 := none, restoreMark := false, state := 0, refused := false } } : Bar)
  else match b.persist.newest with
    | none => plain (state b 0)
    | some image =>
      let loaded := b.loadImage image.values
      let a := loaded.admission loaded.par.staged
      if (firstFailing loaded.checks).isNone && a.failing = 0 then state (loaded.recordAdmission a) 1
      else plain ((state b 2).logEvent 0x0044 0)

/-- SEAM row of a segment (Table 2-5): DX and DY, if its group and its fields are in order. DEDUCED (log 117): the reserved
bits [55:24] have the one valid value that they are fused to, 0; a row with another there is refused as R70 refuses a value
out of its range. -/
def Bar.seamRow (b : Bar) (s : Fin 8) : Option (Int × Int) :=
  let row := match fuseRead segRedir b.sec.segOtp[s] 1 with | some (v, _) => v | none => 0
  let dx := signed 8 (bits row 15 8)
  let dy := signed 8 (bits row 23 16)
  if bit b.sec.groupsDefault (16 + s.val) || bits row 63 56 ≠ 1 || bits row 55 24 ≠ 0 || bits row 7 0 ≠ 0xA5
      || decide (dx < -16) || decide (16 < dx) || decide (dy < -32) || decide (32 < dy) then none
  else some (dx, dy)

/-- A segment is brought up: SEAM_CAL and the SEAM values (R69, R70). -/
def Bar.bringUp (b : Bar) (absent : List (Fin 8)) (s : Fin 8) : Bar :=
  if b.segs ≤ s.val then b
  else
    let here := decide (s ∉ absent)
    let seam := if s.val = 0 then some (0, 0) else b.seamRow s
    let b := b.modCap fun c => { c with segs := vmod c.segs s fun x =>
      { x with present := here, seamCal := seam.isSome, dx := (seam.getD (0, 0)).1, dy := (seam.getD (0, 0)).2 } }
    let b := if seam.isNone then b.logEvent 0x2024 s.val else b
    if here then b else b.logEvent 0xE028 s.val

/-- The segments are brought up; an absent one engages the Safety Net until reset (R445). -/
def Bar.bringUpAll (b : Bar) (absent : List (Fin 8)) : Bar :=
  let b := (List.finRange 8).foldl (fun b s => b.bringUp absent s) b
  if (List.finRange 8).any fun s => decide (s.val < b.segs) && decide (s ∈ absent) then
    b.engage 0xE028 fun c => { c with absent := true }
  else b

/-- The persisted nozzle map is in force from the start (R204, R218). -/
def Bar.restoreMap (b : Bar) : Bar :=
  match parseMap b.nz.mapFile with
  | some m => ((b.modNz fun z => { z with map := m, drift := m.map fun _ => 0 }).remap true).1
  | none => b

/-- With the persisted configuration applied, output pins rest at their HALT_LEVEL (R372, R487). -/
def Bar.restPins (b : Bar) : Bar := (List.finRange 64).foldl (fun b i => b.pinConfigured i) b

/-- Start-up in normal operation, once the firmware runs. -/
def Bar.startNormal (b : Bar) (i : BootInput) : Bar :=
  let b := b.calCheck.applyPersisted.restPins.restoreMap
  let b := (b.modSto (·.restart))|> fun (b : Bar) => b.readVoutMode (b.pecChecked ⟨i.voutMode, i.modePec⟩) (b.writeTaken i.vcoreAck i.vcorePec)
  let b := (b.bringUpAll i.absent).checkIllum.updateAdvice
  b.modIst fun x => { x with passStart := b.now }

/-- A number as n capital hex digits. -/
def hexDigits : Nat → Nat → List Byte
  | 0, _ => []
  | n + 1, x => hexDigits n (x / 16) ++ [BitVec.ofNat 8 (if x % 16 < 10 then 48 + x % 16 else 55 + x % 16)]

/-- The identity certificate is issued at manufacture, once the part has its unique ID and its seed (R475). DESIGN CHOICE (log
161): that is the first start at which both are there. -/
def Bar.issueIdentity (b : Bar) : Bar :=
  if b.idAvailable && b.sec.identity = Security.reset.identity then
    b.modSec fun x => { x with identity := ⟨hexDigits 16 b.uid, (Config.publicKey b.idKey).toList⟩ }
  else b

/-- The start-up sequence, from RESET_N release until PRE-OP can be requested. -/
def Bar.startup (b : Bar) (i : BootInput) : Bar :=
  if b.saf.power = .reset then
    let b := if i.refclk then b else b.refclkLost
    let b := ((b.fuseStart i.fuses).issueIdentity.bootFirmware i.fwStarts).bootRetained
    (if b.sec.recovery then b.modSaf fun s => { s with power := .recovery }
      else (b.startNormal i).modSaf fun s => { s with power := .running }).noteFault
  else b

end Sys2Proof.Machine
end

