-- ==== Sys2Proof/Machine/Live.lean ====
section
/-! DEFINITION. What the commands' meanings share: when the bar acts on a command at all, and the operations a command
puts together from those of several blocks. -/

namespace Sys2Proof.Machine

/-- The bar runs: start-up is over and no reset or shutdown holds it. -/
def Bar.alive (b : Bar) : Bool := b.saf.power = .running || b.saf.power = .recovery

/-- What follows every command: storage does what it can do now, containers in progress follow the state of
storage (R173), an FoE transfer that waits has its next BUSY (R349), the ports send what may leave (R315), a line boundary has its
snapshot taken (R24), and the request of FAULT_N is noted (R421). -/
def Bar.after (b : Bar) : Bar := b.storageDue.ingestGuard.foeBusy.portsRun.snapLine.noteFault

/-- A command the running bar acts on. Where the bar does not run, only time passes. -/
def State.live (s : State) (t : Nat) (f : Bar → Bar) : Host.Outcome State Fault Refusal :=
  s.occur t fun b => if b.alive then (f b).after else b

/-- A request for a state of the slave: it answers from reset on (R329). -/
def State.request (s : State) (t : Nat) (f : Bar → Bar) : Host.Outcome State Fault Refusal :=
  s.occur t fun b => if b.alive || b.saf.power = .reset then (f b).after else b

/-- What the thermal domain does, which stays powered in a shutdown (R408, R409). -/
def State.measured (s : State) (t : Nat) (f : Bar → Bar) : Host.Outcome State Fault Refusal :=
  s.occur t fun b => if b.alive || b.saf.power = .shutdown then (f b).after else b

/-- What the shutdown comparators do, which need no firmware and act in a reset too (R408). -/
def State.tripped (s : State) (t : Nat) (f : Bar → Bar) : Host.Outcome State Fault Refusal := s.occur t fun b => (f b).after

/-- A segment's event: a segment the fused part does not have raises none. -/
def State.ofSegment (s : State) (seg : Fin 8) (t : Nat) (f : Bar → Bar) : Host.Outcome State Fault Refusal :=
  if s.bar.segs ≤ seg.val then .fault .absentSegment else s.live t f

/-- A whole SDO transaction of the mailbox. -/
def State.mailSdo (s : State) (t : Nat) (op : SdoOp) (index sub : Nat) (value : List Byte) : Host.Outcome State Fault Refusal :=
  s.live t fun b => b.sdoFrame (.request (mailRequest op index sub value))

/-- A security command that programs fuses, with what the fuses do. -/
def State.fuseSdo (s : State) (t code : Nat) (stuck : List Nat) (stuckMask : Nat) : Host.Outcome State Fault Refusal :=
  s.live t fun b => b.sdoFrame (.request (fuseRequest code stuck stuckMask))

/-- A mailbox message by its protocol type: CoE (3) and FoE (4) are served by their own commands. -/
def Bar.mailboxOther (b : Bar) (type : Nat) : Bar := if type = 3 || type = 4 then b else b.mailboxUnsupported

/-- A match of a timer's present count; compare A is an event source of the trigger sources (R71, R382). -/
def Bar.timerMatch (b : Bar) (i : Fin 16) : Bar := b.tmrCompare (b.tmrHead i)

/-- A tick; a match that has not been taken yet comes first. -/
def Bar.timerTick (b : Bar) (i : Fin 16) : Bar :=
  if (b.io.timers[b.tmrHead i]).due ≤ b.now then (b.timerMatch i).tmrTick i else b

/-- Storage mounts; the 5 s limit of uploads that were held starts anew (R173). -/
def Bar.mountNow (b : Bar) (f : Found) (ms : Nat) : Bar :=
  let b := b.mount f ms
  b.modDlv fun d => { d with sessions := d.sessions.map fun (s : Session) =>
    { s with upload := s.upload.map fun u => { u with lastData := b.now } } }

/-- PFAIL_N is accepted where it is enabled: the cause is recorded, and sealing starts (R284, R440). -/
def Bar.pfailAccepted (b : Bar) : Bar :=
  if b.rwN 0x2800 6 = 1 then
    (((b.logEvent 0xD02F 0).recordCause 0xD02F).startSealing).modSto fun s => { s with pfail := s.pfail || s.closed }
  else b

/-- A SEAL falls due: 10 s after the previous one, if entries have been added (R293). -/
def Bar.sealEntry (b : Bar) : Bar :=
  if 0 < b.sto.sinceSeal && decide (b.sto.sealTime + 10000000000 ≤ b.now) && b.sto.state = .mounted then b.appendSeal else b

/-- Staged units finish programming; storage programs while it is MOUNTED, and while it seals (R277, R284). No more of them end
together than lie in the n_P channel-pages that may be in program at one time: those of the step under which they started, or
of the present one; sealing ignores n_P (R404). DESIGN CHOICE (log 146). -/
def Bar.committed (b : Bar) (n : Nat) : Bar :=
  if b.sto.state = .sealing then b.modSto fun s => s.commit b.now n
  else if b.sto.state = .mounted then
    let now := nProgram b.cap.pstep
    let most := max 1 (coveredUnits b.sto.staging (max b.sto.running now * mediaPage b.sto.media))
    b.modSto fun s => { s.commit b.now (min n most) with running := now }
  else b

/-- The inflate engine ends its job; a job segment's result goes to its container. -/
def Bar.inflateDone (b : Bar) : Bar :=
  let (b, j) := b.inflateEnd
  match j with
  | some e => match e.owner with
    | .ingest v k => b.ingestJob e v k
    | _ => b
  | none => b

/-- The deflate engine ends its job; a crop's result becomes its evidence object, the log bundle's goes
to the master. -/
def Bar.deflateDone (b : Bar) : Bar :=
  let (b, j) := b.deflateEnd
  match j with
  | some e => match e.owner with
    | .crop session seq index => b.cropDone e session seq index
    | .bundle => b.bundleDone e
    | _ => b
  | none => b

end Sys2Proof.Machine
end

