-- ==== Sys2Proof/Machine/ExecCapture.lean ====
section
/-! DEFINITION. Meanings of the commands of segment lines, cues, items and verdicts (chapters 2, 4, 5 and 6). -/

namespace Sys2Proof.Machine

/-- SEGMENT_LINE: A segment's words for line n have arrived (R162). -/
def execSegmentLine (t : Nat) (seg : Fin 8) (n : Nat) (line : SegLine) (s : State) : Host.Outcome State Fault Refusal :=
  s.ofSegment seg t fun b => b.segmentLine seg n line

/-- SEGMENT_LINE_TIMEOUT: A segment's line n is not complete at LTRIG n + 16; `line` is what has arrived (R162). -/
def execSegmentLineTimeout (t : Nat) (seg : Fin 8) (n : Nat) (line : SegLine) (s : State) : Host.Outcome State Fault Refusal :=
  s.ofSegment seg t fun b => b.segmentLineTimeout seg n line

/-- CUE_EDGE: A lane processes its next cue edge, of timestamp te (R123, R124). -/
def execCueEdge (t : Nat) (lane : Fin 32) (te : Nat) (s : State) : Host.Outcome State Fault Refusal :=
  s.live t fun b => b.cueTaken lane te

/-- STUCK_CUE: A cue is still active at s + L_max (R126). -/
def execStuckCue (t : Nat) (lane : Fin 32) (s : State) : Host.Outcome State Fault Refusal :=
  s.live t fun b => b.stuckCue lane

/-- FRAME_CLOSE: frames that have reached their end close (R130). -/
def execFrameClose (t : Nat) (s : State) : Host.Outcome State Fault Refusal :=
  s.live t fun b => b.closeFrames

/-- VERDICT_PUBLISH: the verdict of an item is formed and published (R195). -/
def execVerdictPublish (t : Nat) (lane : Fin 32) (number : Nat) (s : State) : Host.Outcome State Fault Refusal :=
  s.live t fun b => b.verdictPublish lane.val number

/-- VERDICT_LATE: an item's guard fires (R195). -/
def execVerdictLate (t : Nat) (lane : Fin 32) (number : Nat) (s : State) : Host.Outcome State Fault Refusal :=
  s.live t fun b => b.verdictLate lane.val number

end Sys2Proof.Machine
end

