-- ==== Sys2Proof/Machine/ExecCarousel.lean ====
section
/-! DEFINITION. Meanings of the commands of the Carousel I/O engines (chapter 12). -/

namespace Sys2Proof.Machine

/-- ENGINE_HALTED: every channel of a halting engine has halted (R373). -/
def execEngineHalted (t : Nat) (e : Fin 4) (s : State) : Host.Outcome State Fault Refusal :=
  s.live t fun b => b.engineHalted e

/-- EVENT_ROUTED: the event router hands on a channel's event (R370). -/
def execEventRouted (t : Nat) (k : Fin 64) (s : State) : Host.Outcome State Fault Refusal :=
  s.live t fun b => b.eventRouted k

/-- JMP: JMP (R361); `lv` are the pin levels at the step. -/
def execJmp (t : Nat) (k : Fin 64) (lv : Word64) (s : State) : Host.Outcome State Fault Refusal :=
  s.live t fun b => (b.samplePins lv b.now).instrStep k fun i => match i with | .jmp _ _ => true | _ => false

/-- WAIT: WAIT begins (R362); `lv` are the pin levels at the step. -/
def execWait (t : Nat) (k : Fin 64) (lv : Word64) (s : State) : Host.Outcome State Fault Refusal :=
  s.live t fun b => (b.samplePins lv b.now).instrStep k fun i => match i with | .wait _ _ => true | _ => false

/-- WAIT_COMPLETE: A WAIT of a kind (Table 12-3) completes; `lv` are the pin levels at the engine step `te`, no later than the turn (R362). -/
def execWaitComplete (t : Nat) (k : Fin 64) (lv : Word64) (te : Nat) (kind : Nat) (s : State) : Host.Outcome State Fault Refusal :=
  s.live t fun b => (b.samplePins lv (b.counterThen te)).waitCompleteStep k kind

/-- SET_LOW: SET low (R361, R367); `lv` are the pin levels at the step. -/
def execSetLow (t : Nat) (k : Fin 64) (lv : Word64) (s : State) : Host.Outcome State Fault Refusal :=
  s.live t fun b => (b.samplePins lv b.now).instrStep k fun i => match i with | .set .low _ _ _ => true | _ => false

/-- SET_HIGH: SET high (R361, R367); `lv` are the pin levels at the step. -/
def execSetHigh (t : Nat) (k : Fin 64) (lv : Word64) (s : State) : Host.Outcome State Fault Refusal :=
  s.live t fun b => (b.samplePins lv b.now).instrStep k fun i => match i with | .set .high _ _ _ => true | _ => false

/-- SET_TOGGLE: SET toggle (R361, R367); `lv` are the pin levels at the step. -/
def execSetToggle (t : Nat) (k : Fin 64) (lv : Word64) (s : State) : Host.Outcome State Fault Refusal :=
  s.live t fun b => (b.samplePins lv b.now).instrStep k fun i => match i with | .set .toggle _ _ _ => true | _ => false

/-- SET_RELEASE: SET release (R361, R367); `lv` are the pin levels at the step. -/
def execSetRelease (t : Nat) (k : Fin 64) (lv : Word64) (s : State) : Host.Outcome State Fault Refusal :=
  s.live t fun b => (b.samplePins lv b.now).instrStep k fun i => match i with | .set .release _ _ _ => true | _ => false

/-- OUTPUT_COMPARE_FIRE: A pin's output compare reaches its target (R367). -/
def execOutputCompareFire (t : Nat) (i : Fin 64) (s : State) : Host.Outcome State Fault Refusal :=
  s.live t fun b => b.compareFire i

/-- LDI: LDI (R361); `lv` are the pin levels at the step. -/
def execLdi (t : Nat) (k : Fin 64) (lv : Word64) (s : State) : Host.Outcome State Fault Refusal :=
  s.live t fun b => (b.samplePins lv b.now).instrStep k fun i => match i with | .ldi _ _ => true | _ => false

/-- LDH: LDH (R361); `lv` are the pin levels at the step. -/
def execLdh (t : Nat) (k : Fin 64) (lv : Word64) (s : State) : Host.Outcome State Fault Refusal :=
  s.live t fun b => (b.samplePins lv b.now).instrStep k fun i => match i with | .ldh _ _ => true | _ => false

/-- ALU_MOV: ALU MOV (R361); `lv` are the pin levels at the step. -/
def execAluMov (t : Nat) (k : Fin 64) (lv : Word64) (s : State) : Host.Outcome State Fault Refusal :=
  s.live t fun b => (b.samplePins lv b.now).instrStep k fun i => match i with | .alu .mov _ _ => true | _ => false

/-- ALU_ADD: ALU ADD (R361); `lv` are the pin levels at the step. -/
def execAluAdd (t : Nat) (k : Fin 64) (lv : Word64) (s : State) : Host.Outcome State Fault Refusal :=
  s.live t fun b => (b.samplePins lv b.now).instrStep k fun i => match i with | .alu .add _ _ => true | _ => false

/-- ALU_SUB: ALU SUB (R361); `lv` are the pin levels at the step. -/
def execAluSub (t : Nat) (k : Fin 64) (lv : Word64) (s : State) : Host.Outcome State Fault Refusal :=
  s.live t fun b => (b.samplePins lv b.now).instrStep k fun i => match i with | .alu .sub _ _ => true | _ => false

/-- ALU_AND: ALU AND (R361); `lv` are the pin levels at the step. -/
def execAluAnd (t : Nat) (k : Fin 64) (lv : Word64) (s : State) : Host.Outcome State Fault Refusal :=
  s.live t fun b => (b.samplePins lv b.now).instrStep k fun i => match i with | .alu .and _ _ => true | _ => false

/-- ALU_OR: ALU OR (R361); `lv` are the pin levels at the step. -/
def execAluOr (t : Nat) (k : Fin 64) (lv : Word64) (s : State) : Host.Outcome State Fault Refusal :=
  s.live t fun b => (b.samplePins lv b.now).instrStep k fun i => match i with | .alu .or _ _ => true | _ => false

/-- ALU_XOR: ALU XOR (R361); `lv` are the pin levels at the step. -/
def execAluXor (t : Nat) (k : Fin 64) (lv : Word64) (s : State) : Host.Outcome State Fault Refusal :=
  s.live t fun b => (b.samplePins lv b.now).instrStep k fun i => match i with | .alu .xor _ _ => true | _ => false

/-- ALU_SHL: ALU SHL (R361); `lv` are the pin levels at the step. -/
def execAluShl (t : Nat) (k : Fin 64) (lv : Word64) (s : State) : Host.Outcome State Fault Refusal :=
  s.live t fun b => (b.samplePins lv b.now).instrStep k fun i => match i with | .alu .shl _ _ => true | _ => false

/-- ALU_SHR: ALU SHR (R361); `lv` are the pin levels at the step. -/
def execAluShr (t : Nat) (k : Fin 64) (lv : Word64) (s : State) : Host.Outcome State Fault Refusal :=
  s.live t fun b => (b.samplePins lv b.now).instrStep k fun i => match i with | .alu .shr _ _ => true | _ => false

/-- ALU_CMP: ALU CMP (R361); `lv` are the pin levels at the step. -/
def execAluCmp (t : Nat) (k : Fin 64) (lv : Word64) (s : State) : Host.Outcome State Fault Refusal :=
  s.live t fun b => (b.samplePins lv b.now).instrStep k fun i => match i with | .alu .cmp _ _ => true | _ => false

/-- ALU_TST: ALU TST (R361); `lv` are the pin levels at the step. -/
def execAluTst (t : Nat) (k : Fin 64) (lv : Word64) (s : State) : Host.Outcome State Fault Refusal :=
  s.live t fun b => (b.samplePins lv b.now).instrStep k fun i => match i with | .alu .tst _ _ => true | _ => false

/-- GET: GET (R364); `lv` are the pin levels at the step. -/
def execGet (t : Nat) (k : Fin 64) (lv : Word64) (s : State) : Host.Outcome State Fault Refusal :=
  s.live t fun b => (b.samplePins lv b.now).instrStep k fun i => match i with | .get _ _ _ => true | _ => false

/-- SEND: SEND (R361, R369); `lv` are the pin levels at the step. -/
def execSend (t : Nat) (k : Fin 64) (lv : Word64) (s : State) : Host.Outcome State Fault Refusal :=
  s.live t fun b => (b.samplePins lv b.now).instrStep k fun i => match i with | .send _ _ => true | _ => false

/-- FETCH: FETCH (R361); `lv` are the pin levels at the step. -/
def execFetch (t : Nat) (k : Fin 64) (lv : Word64) (s : State) : Host.Outcome State Fault Refusal :=
  s.live t fun b => (b.samplePins lv b.now).instrStep k fun i => match i with | .fetch _ false => true | _ => false

/-- FETCH_PEEK: FETCH with PEEK (R361); `lv` are the pin levels at the step. -/
def execFetchPeek (t : Nat) (k : Fin 64) (lv : Word64) (s : State) : Host.Outcome State Fault Refusal :=
  s.live t fun b => (b.samplePins lv b.now).instrStep k fun i => match i with | .fetch _ true => true | _ => false

/-- SHIFT_OUT: SHIFT out (R368); `lv` are the pin levels at the step. -/
def execShiftOut (t : Nat) (k : Fin 64) (lv : Word64) (s : State) : Host.Outcome State Fault Refusal :=
  s.live t fun b => (b.samplePins lv b.now).instrStep k fun i => match i with | .shift false _ _ _ _ => true | _ => false

/-- SHIFT_IN: SHIFT in (R368); `lv` are the pin levels at the step. -/
def execShiftIn (t : Nat) (k : Fin 64) (lv : Word64) (s : State) : Host.Outcome State Fault Refusal :=
  s.live t fun b => (b.samplePins lv b.now).instrStep k fun i => match i with | .shift true _ _ _ _ => true | _ => false

/-- PUT_SH: PUT SH (R361); `lv` are the pin levels at the step. -/
def execPutSh (t : Nat) (k : Fin 64) (lv : Word64) (s : State) : Host.Outcome State Fault Refusal :=
  s.live t fun b => (b.samplePins lv b.now).instrStep k fun i => match i with | .putSh _ => true | _ => false

/-- PUT_BC: PUT BC (R361); `lv` are the pin levels at the step. -/
def execPutBc (t : Nat) (k : Fin 64) (lv : Word64) (s : State) : Host.Outcome State Fault Refusal :=
  s.live t fun b => (b.samplePins lv b.now).instrStep k fun i => match i with | .putBc _ => true | _ => false

/-- EVT_LEADING: EVT LEADING (R370); `lv` are the pin levels at the step. -/
def execEvtLeading (t : Nat) (k : Fin 64) (lv : Word64) (s : State) : Host.Outcome State Fault Refusal :=
  s.live t fun b => (b.samplePins lv b.now).instrStep k fun i => match i with | .evt .leading _ => true | _ => false

/-- EVT_TRAILING: EVT TRAILING (R370); `lv` are the pin levels at the step. -/
def execEvtTrailing (t : Nat) (k : Fin 64) (lv : Word64) (s : State) : Host.Outcome State Fault Refusal :=
  s.live t fun b => (b.samplePins lv b.now).instrStep k fun i => match i with | .evt .trailing _ => true | _ => false

/-- EVT_PULSE: EVT PULSE (R370); `lv` are the pin levels at the step. -/
def execEvtPulse (t : Nat) (k : Fin 64) (lv : Word64) (s : State) : Host.Outcome State Fault Refusal :=
  s.live t fun b => (b.samplePins lv b.now).instrStep k fun i => match i with | .evt .pulse _ => true | _ => false

/-- CTL_NOP: CTL NOP (R361); `lv` are the pin levels at the step. -/
def execCtlNop (t : Nat) (k : Fin 64) (lv : Word64) (s : State) : Host.Outcome State Fault Refusal :=
  s.live t fun b => (b.samplePins lv b.now).instrStep k fun i => match i with | .nop => true | _ => false

/-- CTL_HALT: CTL HALT (R373); `lv` are the pin levels at the step. -/
def execCtlHalt (t : Nat) (k : Fin 64) (lv : Word64) (s : State) : Host.Outcome State Fault Refusal :=
  s.live t fun b => (b.samplePins lv b.now).instrStep k fun i => match i with | .halt => true | _ => false

/-- CTL_CLRSH: CTL CLRSH (R361); `lv` are the pin levels at the step. -/
def execCtlClrsh (t : Nat) (k : Fin 64) (lv : Word64) (s : State) : Host.Outcome State Fault Refusal :=
  s.live t fun b => (b.samplePins lv b.now).instrStep k fun i => match i with | .clrsh => true | _ => false

/-- CTL_LOG: CTL LOG (R361); `lv` are the pin levels at the step. -/
def execCtlLog (t : Nat) (k : Fin 64) (lv : Word64) (s : State) : Host.Outcome State Fault Refusal :=
  s.live t fun b => (b.samplePins lv b.now).instrStep k fun i => match i with | .log => true | _ => false

/-- ILLEGAL_OP: A channel fetches an illegal word (R361). -/
def execIllegalOp (t : Nat) (k : Fin 64) (lv : Word64) (s : State) : Host.Outcome State Fault Refusal :=
  s.live t fun b => (b.samplePins lv b.now).illegalStep k

/-- BANK_HOLD_END: 1 ms after a bank-voltage change (R365). -/
def execBankHoldEnd (t : Nat) (bank : Fin 8) (s : State) : Host.Outcome State Fault Refusal :=
  s.live t fun b => b.bankHoldEnd bank

end Sys2Proof.Machine
end

