-- ==== Sys2Proof/Machine/ExecCodec.lean ====
section
/-! DEFINITION. Meanings of the commands of the DEFLATE engines and reference commits (chapters 6 and 8). -/

namespace Sys2Proof.Machine

/-- JOB_SUBMIT: firmware submits a job: its 64-byte descriptor, its input and the 32-byte buffer descriptors of its chain (R251). -/
def execJobSubmit (t : Nat) (descriptor : List Byte) (input : List Byte) (chain : List (List Byte)) (s : State) : Host.Outcome State Fault Refusal :=
  s.live t fun b => b.submitJob (jobOf .firmware descriptor input chain) chain

/-- INFLATE_JOB_DONE: the inflate engine ends its job (R246). -/
def execInflateJobDone (t : Nat) (s : State) : Host.Outcome State Fault Refusal :=
  s.live t fun b => b.inflateDone

/-- DEFLATE_JOB_DONE: the deflate engine ends its job (R248). -/
def execDeflateJobDone (t : Nat) (s : State) : Host.Outcome State Fault Refusal :=
  s.live t fun b => b.deflateDone

/-- REF_COMMIT: A reference is committed to the SPOOL (R171). -/
def execRefCommit (t : Nat) (handle : Nat) (s : State) : Host.Outcome State Fault Refusal :=
  s.live t fun b => b.refCommit handle

end Sys2Proof.Machine
end

