-- ==== Sys2Proof/Machine/ExecDelivery.lean ====
section
/-! DEFINITION. Meanings of the commands of the data plane (chapter 10). -/

namespace Sys2Proof.Machine

/-- HELLO: A HELLO (R308). -/
def execHello (t : Nat) (rx : Rx) (s : State) : Host.Outcome State Fault Refusal :=
  s.live t fun b => b.hello rx

/-- CLOSE: A CLOSE (R309). -/
def execClose (t : Nat) (rx : Rx) (s : State) : Host.Outcome State Fault Refusal :=
  s.live t fun b => b.receive rx (onlyType 0 3 fun b h => b.closeSession h.peer 0x9023)

/-- KEEPALIVE_SEND: 100 ms have passed: KEEPALIVE to a peer (R309). -/
def execKeepaliveSend (t : Nat) (k : Fin 16) (s : State) : Host.Outcome State Fault Refusal :=
  s.live t fun b => b.keepalive k.val

/-- SESSION_TIMEOUT: 1,000 ms without a datagram from a peer (R309). -/
def execSessionTimeout (t : Nat) (k : Fin 16) (s : State) : Host.Outcome State Fault Refusal :=
  s.live t fun b => b.sessionTimeout k.val

/-- REPLAY_REQ: A REPLAY_REQ (R313). -/
def execReplayReq (t : Nat) (rx : Rx) (s : State) : Host.Outcome State Fault Refusal :=
  s.live t fun b => b.receive rx (onlyType 0 5 Bar.replay)

/-- BENCH_REQ: A BENCH_REQ, with the further datagrams its value is spread over (R347, R348). -/
def execBenchReq (t : Nat) (rx : Rx) (more : List Rx) (s : State) : Host.Outcome State Fault Refusal :=
  s.live t fun b => b.benchReceive rx more

/-- SPOOL_BEGIN: SPOOL BEGIN (R311). -/
def execSpoolBegin (t : Nat) (rx : Rx) (s : State) : Host.Outcome State Fault Refusal :=
  s.live t fun b => b.receive rx (onlyType 7 1 Bar.spoolBegin)

/-- SPOOL_DATA: SPOOL DATA (R311). -/
def execSpoolData (t : Nat) (rx : Rx) (s : State) : Host.Outcome State Fault Refusal :=
  s.live t fun b => b.receive rx (onlyType 7 2 Bar.spoolData)

/-- SPOOL_ACK: the ACK of an upload falls due (R311). -/
def execSpoolAck (t : Nat) (k : Fin 16) (s : State) : Host.Outcome State Fault Refusal :=
  s.live t fun b => b.spoolAck k.val

/-- UPLOAD_ABORTED: 5 s without DATA (R311). -/
def execUploadAborted (t : Nat) (k : Fin 16) (s : State) : Host.Outcome State Fault Refusal :=
  s.live t fun b => b.uploadTimeout k.val

/-- READBACK_REQUEST: READBACK REQUEST (R274, R312). -/
def execReadbackRequest (t : Nat) (rx : Rx) (s : State) : Host.Outcome State Fault Refusal :=
  s.live t fun b => b.receive rx (onlyType 8 1 Bar.readbackRequest)

/-- CREDIT: CREDIT (R312). -/
def execCredit (t : Nat) (rx : Rx) (s : State) : Host.Outcome State Fault Refusal :=
  s.live t fun b => b.receive rx (onlyType 8 2 Bar.credit)

/-- COMMAND_RECORD: A NOZZLE datagram of COMMAND records (R222). -/
def execCommandRecord (t : Nat) (rx : Rx) (s : State) : Host.Outcome State Fault Refusal :=
  s.live t fun b => b.receive rx (onlyType 2 1 Bar.nozzleRecords)

/-- SNAPSHOT: A NOZZLE datagram whose commands ask for SNAPSHOT (R221). -/
def execSnapshot (t : Nat) (rx : Rx) (s : State) : Host.Outcome State Fault Refusal :=
  s.live t fun b => b.receive rx (onlyType 2 1 Bar.nozzleRecords)

/-- KSP_MALFORMED: A datagram that fails a check (R314). -/
def execKspMalformed (t : Nat) (rx : Rx) (s : State) : Host.Outcome State Fault Refusal :=
  s.live t fun b => b.kspMalformed rx

/-- ARP_REQUEST: an ARP request (R298). -/
def execArpRequest (t : Nat) (p : Ingress) (mac : List Byte) (sender : List Byte) (target : List Byte) (s : State) : Host.Outcome State Fault Refusal :=
  s.live t fun b => b.arpRequest p.port p.tag mac sender target

/-- NEIGHBOUR_SOLICITATION: an IPv6 neighbour solicitation (R298). -/
def execNeighbourSolicitation (t : Nat) (p : Ingress) (sender : List Byte) (target : List Byte) (s : State) : Host.Outcome State Fault Refusal :=
  s.live t fun b => b.neighbourSolicitation p.port p.tag p.fragment sender target

/-- ECHO_REQUEST: an ICMP or ICMPv6 echo request (R298). -/
def execEchoRequest (t : Nat) (p : Ingress) (v6 : Bool) (sender : List Byte) (target : List Byte) (rest : List Byte) (s : State) : Host.Outcome State Fault Refusal :=
  s.live t fun b => b.echoRequest p.port p.tag v6 p.fragment sender target rest

/-- LINK_DOWN: block lock lost for 1 ms (R299). -/
def execLinkDown (t : Nat) (p : Fin 4) (s : State) : Host.Outcome State Fault Refusal :=
  s.live t fun b => b.linkDown p

/-- LINK_UP: block lock held for 100 ms (R299). -/
def execLinkUp (t : Nat) (p : Fin 4) (s : State) : Host.Outcome State Fault Refusal :=
  s.live t fun b => b.linkUp p

/-- PEER_DELAY_REQUEST: an 802.1AS peer delay request (R80). -/
def execPeerDelayRequest (t : Nat) (p : Fin 4) (s : State) : Host.Outcome State Fault Refusal :=
  s.live t fun b => b.peerDelayRequest p

/-- KEEPALIVE_RECEIVED: A KEEPALIVE: the session timeout restarts (R309). -/
def execKeepaliveReceived (t : Nat) (rx : Rx) (s : State) : Host.Outcome State Fault Refusal :=
  s.live t fun b => b.receive rx fun b _ => b

/-- GATE_ENTRY_START: A gate control list entry begins (R301). -/
def execGateEntryStart (t : Nat) (p : Fin 4) (s : State) : Host.Outcome State Fault Refusal :=
  s.live t fun b => ((b.gateEntryStart p).benchResume p).readbackResume p

end Sys2Proof.Machine
end

