-- ==== Sys2Proof/Machine/ExecFiles.lean ====
section
/-! DEFINITION. Meanings of the commands of files over FoE (chapter 11). -/

namespace Sys2Proof.Machine

/-- FIRMWARE_WRITE: RDX48.fw (R464): the request to write it, or the end of the checks of what came in. -/
def execFirmwareWrite (t : Nat) (step : FoeStep) (s : State) : Host.Outcome State Fault Refusal :=
  s.live t fun b => b.foeWrite .firmware step

/-- CALIBRATION_WRITE: cal.bin (R144): the request to write it, or the end of the checks of what came in. -/
def execCalibrationWrite (t : Nat) (step : FoeStep) (s : State) : Host.Outcome State Fault Refusal :=
  s.live t fun b => b.foeWrite .calibration step

/-- MAP_WRITE: nozzle.map (R203): the request to write it, or the end of the checks of what came in. -/
def execMapWrite (t : Nat) (step : FoeStep) (s : State) : Host.Outcome State Fault Refusal :=
  s.live t fun b => b.foeWrite .nozzleMap step

/-- PROFILE_WRITE: media.prof (R260): the request to write it, or the end of the checks of what came in. -/
def execProfileWrite (t : Nat) (step : FoeStep) (s : State) : Host.Outcome State Fault Refusal :=
  s.live t fun b => b.foeWrite .mediaProfile step

/-- JOB_CONTAINER_WRITE: job.zjc is opened for writing (R173). -/
def execJobContainerWrite (t : Nat) (s : State) : Host.Outcome State Fault Refusal :=
  s.live t fun b => b.foeJob

/-- FOE_DATA_PACKET: A data packet of the file being written (R349). -/
def execFoeDataPacket (t : Nat) (packet : Nat) (bytes : List Byte) (s : State) : Host.Outcome State Fault Refusal :=
  s.live t fun b => b.foePacket packet bytes

/-- EVENTLOG_FILE_READ: eventlog.bin (R349). -/
def execEventlogFileRead (t : Nat) (s : State) : Host.Outcome State Fault Refusal :=
  s.live t fun b => b.foeEventlog

/-- LOGBUNDLE_READ: logbundle.bin (R351). -/
def execLogbundleRead (t : Nat) (s : State) : Host.Outcome State Fault Refusal :=
  s.live t fun b => b.foeBundle

/-- IDENTITY_CERT_READ: identity.crt (R475). -/
def execIdentityCertRead (t : Nat) (s : State) : Host.Outcome State Fault Refusal :=
  s.live t fun b => b.foeIdentity

/-- QUOTE_READ: quote.bin (R473). -/
def execQuoteRead (t : Nat) (s : State) : Host.Outcome State Fault Refusal :=
  s.live t fun b => b.foeQuote

/-- FOE_UNKNOWN_NAME: an FoE request for no file of Table 11-12, or for one in the direction it does not have (R350). -/
def execFoeUnknownName (t : Nat) (file : Option FoeFile) (s : State) : Host.Outcome State Fault Refusal :=
  s.live t fun b => b.foeUnknown file

end Sys2Proof.Machine
end

