-- ==== Sys2Proof/Machine/ExecManagement.lean ====
section
/-! DEFINITION. Meanings of the commands of parameter control, the EtherCAT slave, the mailbox and SDO commands (chapters 1 and 11). -/

namespace Sys2Proof.Machine

/-- ARM: ARM written to 0x2010:01 through the mailbox (R36). -/
def execArm (t : Nat) (s : State) : Host.Outcome State Fault Refusal :=
  s.mailSdo t .download 0x2010 1 (leBytes 1 1)

/-- COPY_TO_ARMED: the validation that runs ends: the set is copied, or refused for its apply line (R36 to R38). -/
def execCopyToArmed (t : Nat) (s : State) : Host.Outcome State Fault Refusal :=
  s.live t fun b => b.copyToArmed.safeopWaited

/-- DISARM: DISARM written to 0x2010:01 (R41). -/
def execDisarm (t : Nat) (s : State) : Host.Outcome State Fault Refusal :=
  s.mailSdo t .download 0x2010 1 (leBytes 1 2)

/-- APPLY_POINT: the armed set goes live at the next line, if its apply mode says so (R38). -/
def execApplyPoint (t : Nat) (s : State) : Host.Outcome State Fault Refusal :=
  s.live t fun b => b.settleApply b.lines

/-- APPLY_LINE_COMMAND: the apply-line command of the sampled cycle (R40, R346). -/
def execApplyLineCommand (t : Nat) (s : State) : Host.Outcome State Fault Refusal :=
  s.live t fun b => b.applyLineCommand

/-- ANNOUNCEMENT: the next new announcement of the sampled cycle (R127, R128, R343). -/
def execAnnouncement (t : Nat) (s : State) : Host.Outcome State Fault Refusal :=
  s.live t fun b => b.announcement

/-- HOST_CHECKIN: the check-in of slot 6, or 7, that the sampled cycle brought (R344). -/
def execHostCheckin (t : Nat) (seven : Bool) (s : State) : Host.Outcome State Fault Refusal :=
  s.live t fun b => b.hostCheckin seven

/-- SN_RELEASE: the release request of the sampled cycle (R425, R426). -/
def execSnRelease (t : Nat) (s : State) : Host.Outcome State Fault Refusal :=
  s.live t fun b => b.snRelease

/-- TXPDO_LATCH: the TxPDO is latched (R345). -/
def execTxpdoLatch (t : Nat) (s : State) : Host.Outcome State Fault Refusal :=
  s.live t fun b => b.txLatch

/-- AL_REQUEST_PREOP: PRE-OP is requested; `mail`: SM0 and SM1 have the mailbox size (R329). -/
def execAlRequestPreop (t : Nat) (mail : Bool) (s : State) : Host.Outcome State Fault Refusal :=
  s.request t fun b => b.requestPreop mail

/-- AL_REQUEST_SAFEOP: SAFE-OP is requested, with the lengths of SM2 and SM3, whether SYNC0 is active, and the process data watchdog time in ns if the master has set it (R329, R332). -/
def execAlRequestSafeop (t : Nat) (sm2 : Nat) (sm3 : Nat) (sync : SyncSetup) (s : State) : Host.Outcome State Fault Refusal :=
  s.request t fun b => b.requestSafeop (smCode sm2 sm3) sync.sync0 sync.pdTime

/-- AL_REQUEST_OP: OP is requested (R329). -/
def execAlRequestOp (t : Nat) (s : State) : Host.Outcome State Fault Refusal :=
  s.request t fun b => b.requestOp

/-- AL_REQUEST_INIT: INIT is requested (R329, R331). -/
def execAlRequestInit (t : Nat) (s : State) : Host.Outcome State Fault Refusal :=
  s.request t fun b => b.requestInit

/-- AL_REQUEST_BOOT: BOOT, or a state that does not exist, is requested (R327). -/
def execAlRequestBoot (t : Nat) (boot : Bool) (s : State) : Host.Outcome State Fault Refusal :=
  s.request t fun b => b.requestBoot boot

/-- SM_WATCHDOG: the process data watchdog expires (R332). -/
def execSmWatchdog (t : Nat) (s : State) : Host.Outcome State Fault Refusal :=
  s.live t fun b => b.smWatchdog

/-- MAILBOX_UNSUPPORTED: A mailbox of a protocol type arrives that is neither CoE nor FoE (R327). -/
def execMailboxUnsupported (t : Nat) (type : Nat) (s : State) : Host.Outcome State Fault Refusal :=
  s.live t fun b => b.mailboxOther type

/-- SDO_DOWNLOAD: A message for the SDO server: a download to an entry without a row of its own, or another of the kinds `SdoFrame` lists (R335 to R338, R497). -/
def execSdoDownload (t : Nat) (frame : Machine.SdoFrame) (s : State) : Host.Outcome State Fault Refusal :=
  s.live t fun b => b.sdoFrame frame

/-- SDO_SEGMENT_TIMEOUT: 1 s without a segment (R335). -/
def execSdoSegmentTimeout (t : Nat) (s : State) : Host.Outcome State Fault Refusal :=
  s.live t fun b => b.segmentTimeout

/-- STORE: 'save' written to 0x1010:01 (R339). -/
def execStore (t : Nat) (s : State) : Host.Outcome State Fault Refusal :=
  s.mailSdo t .download 0x1010 1 (leBytes 4 0x65766173)

/-- RESTORE: 'load' written to 0x1011:01 (R340). -/
def execRestore (t : Nat) (s : State) : Host.Outcome State Fault Refusal :=
  s.mailSdo t .download 0x1011 1 (leBytes 4 0x64616F6C)

/-- EVENT_LOG_READ: 0x2F00:04 read through the mailbox (R352). -/
def execEventLogRead (t : Nat) (s : State) : Host.Outcome State Fault Refusal :=
  s.mailSdo t .upload 0x2F00 4 []

/-- REFERENCE_DELETE: A handle written to 0x2540:09 (R172). -/
def execReferenceDelete (t : Nat) (handle : Nat) (s : State) : Host.Outcome State Fault Refusal :=
  s.mailSdo t .download 0x2540 9 (leBytes 4 handle)

/-- MASK: track command 1 written to 0x2620:03, for the range in 0x2620:01 and :02 (R216). -/
def execMask (t : Nat) (s : State) : Host.Outcome State Fault Refusal :=
  s.mailSdo t .download 0x2620 3 (leBytes 1 1)

/-- UNMASK: track command 2 written to 0x2620:03, for the range in 0x2620:01 and :02 (R216). -/
def execUnmask (t : Nat) (s : State) : Host.Outcome State Fault Refusal :=
  s.mailSdo t .download 0x2620 3 (leBytes 1 2)

/-- COMPENSATE: track command 3 written to 0x2620:03, for the range in 0x2620:01 and :02 (R216). -/
def execCompensate (t : Nat) (s : State) : Host.Outcome State Fault Refusal :=
  s.mailSdo t .download 0x2620 3 (leBytes 1 3)

/-- UNCOMPENSATE: track command 4 written to 0x2620:03, for the range in 0x2620:01 and :02 (R216). -/
def execUncompensate (t : Nat) (s : State) : Host.Outcome State Fault Refusal :=
  s.mailSdo t .download 0x2620 3 (leBytes 1 4)

/-- TRACK_RESET: track command 5 written to 0x2620:03, for the range in 0x2620:01 and :02 (R216). -/
def execTrackReset (t : Nat) (s : State) : Host.Outcome State Fault Refusal :=
  s.mailSdo t .download 0x2620 3 (leBytes 1 5)

/-- FORMAT: FORMAT written to 0x2800:02 (R265). -/
def execFormat (t : Nat) (s : State) : Host.Outcome State Fault Refusal :=
  s.mailSdo t .download 0x2800 2 (leBytes 1 1)

/-- PIN: PIN of the item in 0x2805:01 and :02 (R273). -/
def execPin (t : Nat) (s : State) : Host.Outcome State Fault Refusal :=
  s.mailSdo t .download 0x2805 3 (leBytes 1 1)

/-- UNPIN: UNPIN of the item in 0x2805:01 and :02 (R273). -/
def execUnpin (t : Nat) (s : State) : Host.Outcome State Fault Refusal :=
  s.mailSdo t .download 0x2805 3 (leBytes 1 2)

/-- RUN: RUN written to an engine (R374). -/
def execRun (t : Nat) (e : Fin 4) (s : State) : Host.Outcome State Fault Refusal :=
  s.mailSdo t .download (0x2A00 + e.val) 1 (leBytes 1 1)

/-- RUN_CLEAR: RUN_CLEAR written to an engine (R374). -/
def execRunClear (t : Nat) (e : Fin 4) (s : State) : Host.Outcome State Fault Refusal :=
  s.mailSdo t .download (0x2A00 + e.val) 1 (leBytes 1 2)

/-- HALT: HALT written to an engine (R373). -/
def execHalt (t : Nat) (e : Fin 4) (s : State) : Host.Outcome State Fault Refusal :=
  s.mailSdo t .download (0x2A00 + e.val) 1 (leBytes 1 3)

/-- PROGRAM_WRITE: an engine's program memory is written (R372). -/
def execProgramWrite (t : Nat) (e : Fin 4) (bytes : List Byte) (s : State) : Host.Outcome State Fault Refusal :=
  s.mailSdo t .download (0x2A04 + e.val) 0 bytes

/-- COMMAND_QUEUE_WRITE: A word for a channel's command queue (R369). -/
def execCommandQueueWrite (t : Nat) (k : Fin 64) (w : Word32) (s : State) : Host.Outcome State Fault Refusal :=
  s.mailSdo t .download (0x2A10 + k.val) 5 (leBytes 4 w.toNat)

/-- REPORT_QUEUE_READ: A word of a channel's report queue (R369). -/
def execReportQueueRead (t : Nat) (k : Fin 64) (s : State) : Host.Outcome State Fault Refusal :=
  s.mailSdo t .upload (0x2A10 + k.val) 6 []

/-- TIMER_START: the start mask is written (R381). -/
def execTimerStart (t : Nat) (mask : Word16) (s : State) : Host.Outcome State Fault Refusal :=
  s.mailSdo t .download 0x2B48 1 (leBytes 2 mask.toNat)

/-- TIMER_STOP: the stop mask is written (R381). -/
def execTimerStop (t : Nat) (mask : Word16) (s : State) : Host.Outcome State Fault Refusal :=
  s.mailSdo t .download 0x2B48 2 (leBytes 2 mask.toNat)

/-- COMPARE_WRITE: compare A or B of a timer is written (R386). -/
def execCompareWrite (t : Nat) (i : Fin 16) (cmpB : Bool) (v : Word32) (s : State) : Host.Outcome State Fault Refusal :=
  s.mailSdo t .download (0x2B00 + i.val) (if cmpB then 3 else 2) (leBytes 4 v.toNat)

/-- PERIOD_WRITE: the period of a timer is written (R387). -/
def execPeriodWrite (t : Nat) (i : Fin 16) (v : Word32) (s : State) : Host.Outcome State Fault Refusal :=
  s.mailSdo t .download (0x2B00 + i.val) 1 (leBytes 4 v.toNat)

/-- PAIR_WRITE: A 64-bit value of a linked pair: its period, compare A, compare B or preset (R389). -/
def execPairWrite (t : Nat) (j : Fin 8) (sub : Fin 4) (v : Word64) (s : State) : Host.Outcome State Fault Refusal :=
  s.mailSdo t .download (0x2B30 + j.val) (sub.val + 2) (leBytes 8 v.toNat)

/-- POSITION_PRESET: the preset of a position counter (R391). -/
def execPositionPreset (t : Nat) (p : Fin 2) (v : Word64) (s : State) : Host.Outcome State Fault Refusal :=
  s.mailSdo t .download 0x2B40 (5 + p.val) (leBytes 8 v.toNat)

/-- SUBSTITUTE_ASSIGN: A sensor's configuration, its SUBSTITUTE and SUB_EN set (R407). -/
def execSubstituteAssign (t : Nat) (i : Fin 26) (word : Word32) (s : State) : Host.Outcome State Fault Refusal :=
  s.mailSdo t .download 0x2C02 (i.val + 1) (leBytes 4 word.toNat)

/-- RXPDO_SAMPLE: the RxPDO is sampled: its 80 bytes, and when the master wrote them (R328). -/
def execRxpdoSample (t : Nat) (frame : RxFrame) (s : State) : Host.Outcome State Fault Refusal :=
  s.live t fun b => b.rxSample frame.bytes frame.written

/-- SM1_MAILBOX_READ: the master reads SM1 (R353). -/
def execSm1MailboxRead (t : Nat) (s : State) : Host.Outcome State Fault Refusal :=
  s.live t fun b => b.sm1Read

end Sys2Proof.Machine
end

