-- ==== Sys2Proof/Machine/ExecNozzle.lean ====
section
/-! DEFINITION. Meanings of the commands of nozzle tracks (chapter 7). -/

namespace Sys2Proof.Machine

/-- WINDOW_BOUNDARY: an evidence window ends (R208). -/
def execWindowBoundary (t : Nat) (s : State) : Host.Outcome State Fault Refusal :=
  s.live t fun b => b.windowBoundary

/-- WINDOW_CLOSE: the oldest ended window closes (R217). -/
def execWindowClose (t : Nat) (s : State) : Host.Outcome State Fault Refusal :=
  s.live t fun b => b.windowClose

/-- NOZZLE_LATE: D_nozzle after a close (R220). -/
def execNozzleLate (t : Nat) (s : State) : Host.Outcome State Fault Refusal :=
  s.live t fun b => b.nozzleLate

/-- SERIAL_FRAME_WRITE: A subscriber's channel has room for a frame (R225). -/
def execSerialFrameWrite (t : Nat) (j : Fin 16) (s : State) : Host.Outcome State Fault Refusal :=
  s.live t fun b => b.serialWrite j

/-- LADDER_CUE: an accepted ladder cue of timestamp te (R211). -/
def execLadderCue (t : Nat) (te : Nat) (s : State) : Host.Outcome State Fault Refusal :=
  s.live t fun b => b.ladderCue te

/-- LADDER_END: A ladder ends (R212). -/
def execLadderEnd (t : Nat) (s : State) : Host.Outcome State Fault Refusal :=
  s.live t fun b => b.ladderEnd

end Sys2Proof.Machine
end

