-- ==== Sys2Proof/Machine/ExecSafety.lean ====
section
/-! DEFINITION. Meanings of the commands of the Ringmaster (chapter 15). -/

namespace Sys2Proof.Machine

/-- WATCHDOG_PERIOD_CLOSE: A watchdog period ends (R434 to R436). -/
def execWatchdogPeriodClose (t : Nat) (s : State) : Host.Outcome State Fault Refusal :=
  s.live t fun b => b.periodClose

/-- FIRMWARE_CHECKIN: A firmware task checks in (R434). -/
def execFirmwareCheckin (t : Nat) (slot : Fin 6) (s : State) : Host.Outcome State Fault Refusal :=
  s.live t fun b => b.checkIn ⟨slot.val, by omega⟩ b.now

/-- RESET_HUB_AND_SEGMENTS: 4,000 µs after a decided reset (R437). -/
def execResetHubAndSegments (t : Nat) (s : State) : Host.Outcome State Fault Refusal :=
  s.live t fun b => b.resetHub

/-- FAULTN_READBACK: FAULT_N has stood at a level (R421). -/
def execFaultnReadback (pin : PinReading) (s : State) : Host.Outcome State Fault Refusal :=
  s.live pin.t fun b => b.faultReadback pin.level pin.held

/-- BROWN_OUT: A rail has stood at a voltage (R421). -/
def execBrownOut (t : Nat) (rail : RailReading) (s : State) : Host.Outcome State Fault Refusal :=
  s.occur t fun b => b.brownOut rail.rail rail.mv rail.held

/-- LOCKSTEP_MISMATCH: the Ringmaster cores disagree (R421). -/
def execLockstepMismatch (t : Nat) (s : State) : Host.Outcome State Fault Refusal :=
  s.live t fun b => b.lockstepMismatch

/-- STAGE_STALL: A stage class of a segment (0xFF: the hub) makes no progress for 1 ms (R420). -/
def execStageStall (t : Nat) (seg : Nat) (cls : Nat) (s : State) : Host.Outcome State Fault Refusal :=
  s.live t fun b => b.stageStall seg cls

/-- DRAM_UNCORRECTABLE: an uncorrectable word in a region of DRAM (R420, R432). -/
def execDramUncorrectable (t : Nat) (region : Fin 8) (addr : Nat) (s : State) : Host.Outcome State Fault Refusal :=
  s.live t fun b => b.dramUncorrectable region addr

/-- STOLEN_LINE: A test is due that idle time has not served (R428). -/
def execStolenLine (t : Nat) (s : State) : Host.Outcome State Fault Refusal :=
  s.live t fun b => b.stolenLine

/-- IN_SERVICE_TEST: A test of an element ends with a reading (R429, R430). -/
def execInServiceTest (t : Nat) (test : Nat) (seg : Nat) (unit : Nat) (r : TestReading) (s : State) : Host.Outcome State Fault Refusal :=
  s.live t fun b => b.serviceTest test seg unit r

/-- COVERAGE_PASS_END: A coverage pass completes (R429, R431). -/
def execCoveragePassEnd (t : Nat) (s : State) : Host.Outcome State Fault Refusal :=
  s.live t fun b => b.passEnd

/-- COVERAGE_PASS_OVERRUN: A pass runs longer than 2 s (R431). -/
def execCoveragePassOverrun (t : Nat) (s : State) : Host.Outcome State Fault Refusal :=
  s.live t fun b => b.passOverrun

/-- DRAM_SCRUB: A full scrub of DRAM, with the uncorrectable words it found (R432). -/
def execDramScrub (t : Nat) (found : List (Fin 8 × Nat)) (s : State) : Host.Outcome State Fault Refusal :=
  s.live t fun b => b.dramScrub found

/-- MRAM_SCRUB: MRAM is scrubbed, with the uncorrectable words it found (R432). -/
def execMramScrub (m : ScrubMoment) (s : State) : Host.Outcome State Fault Refusal :=
  s.live m.t fun b => b.mramScrub m.lost

/-- CAUSE_CLEARS: A timed condition of Table 15-2 elapses (R420). -/
def execCauseClears (t : Nat) (cause : ClearCause) (s : State) : Host.Outcome State Fault Refusal :=
  s.live t fun b => b.causeClears cause

end Sys2Proof.Machine
end

