-- ==== Sys2Proof/Machine/ExecSecurity.lean ====
section
/-! DEFINITION. Meanings of the commands of security commands, start-up and resets (chapter 16). -/

namespace Sys2Proof.Machine

/-- RESET: security command RESET (R468). -/
def execReset (t : Nat) (s : State) : Host.Outcome State Fault Refusal :=
  s.mailSdo t .download 0x2E10 1 (leBytes 1 1)

/-- CONFIRM: security command CONFIRM (R465). -/
def execConfirm (t : Nat) (s : State) : Host.Outcome State Fault Refusal :=
  s.mailSdo t .download 0x2E10 1 (leBytes 1 2)

/-- ADVANCE_SVN: ADVANCE_SVN; `stuck` are the bits that stay unset (R456, R466). -/
def execAdvanceSvn (t : Nat) (stuck : List Nat) (s : State) : Host.Outcome State Fault Refusal :=
  s.fuseSdo t 3 stuck 0

/-- ADVANCE_KEY_REV: ADVANCE_KEY_REV (R456, R466). -/
def execAdvanceKeyRev (t : Nat) (stuck : List Nat) (s : State) : Host.Outcome State Fault Refusal :=
  s.fuseSdo t 4 stuck 0

/-- ADVANCE_CAL_GEN: ADVANCE_CAL_GEN (R456, R467). -/
def execAdvanceCalGen (t : Nat) (stuck : List Nat) (s : State) : Host.Outcome State Fault Refusal :=
  s.fuseSdo t 5 stuck 0

/-- FIELD_CLOSE: FIELD_CLOSE; `stuckMask` are the bits that still read unset afterwards (R458). -/
def execFieldClose (t : Nat) (stuckMask : Nat) (s : State) : Host.Outcome State Fault Refusal :=
  s.fuseSdo t 6 [] stuckMask

/-- STARTUP: the start-up sequence, up to where PRE-OP may be requested (R444). -/
def execStartup (t : Nat) (boot : BootInput) (s : State) : Host.Outcome State Fault Refusal :=
  s.occur t fun b => b.startup boot

/-- EXTERNAL_RESET: RESET_N has stood at a level (R490). -/
def execExternalReset (pin : PinReading) (s : State) : Host.Outcome State Fault Refusal :=
  s.occur pin.t fun b => if pin.level then b else b.externalReset pin.held

/-- FUSE_REREAD: the hourly re-read of a fuse row at both margins (R454). -/
def execFuseReread (t : Nat) (seg : Option (Fin 8)) (row : Nat) (low : Nat) (high : Nat) (s : State) : Host.Outcome State Fault Refusal :=
  s.live t fun b => b.fuseReread seg row low high

/-- EXTEST: EXTEST is selected (R495). -/
def execExtest (t : Nat) (s : State) : Host.Outcome State Fault Refusal :=
  s.occur t fun b => b.extest

/-- TAP_RESET: A TAP reset (R495). -/
def execTapReset (t : Nat) (s : State) : Host.Outcome State Fault Refusal :=
  s.occur t fun b => b.tapReset

end Sys2Proof.Machine
end

