-- ==== Sys2Proof/Machine/ExecStorage.lean ====
section
/-! DEFINITION. Meanings of the commands of flash storage and the ledger (chapter 9). -/

namespace Sys2Proof.Machine

/-- FORMAT_DONE: formatting completes (R265). -/
def execFormatDone (t : Nat) (s : State) : Host.Outcome State Fault Refusal :=
  s.live t fun b => b.formatDone

/-- MOUNT: storage mounts with the media it discovers, in `ms` (R288). -/
def execMount (t : Nat) (found : Found) (ms : Nat) (s : State) : Host.Outcome State Fault Refusal :=
  s.live t fun b => b.mountNow found ms

/-- PFAIL_ACCEPTED: PFAIL_N low for 10 µs (R284). -/
def execPfailAccepted (t : Nat) (s : State) : Host.Outcome State Fault Refusal :=
  s.live t fun b => b.pfailAccepted

/-- PFAIL_SEALED: sealing is complete (R284). -/
def execPfailSealed (t : Nat) (s : State) : Host.Outcome State Fault Refusal :=
  s.live t fun b => b.sealDone

/-- PFAIL_RESUMED: PFAIL_N high for 100 ms without a reset (R286). -/
def execPfailResumed (t : Nat) (s : State) : Host.Outcome State Fault Refusal :=
  s.live t fun b => b.sealResume

/-- CHECKPOINT: A metadata checkpoint (R276). -/
def execCheckpoint (t : Nat) (s : State) : Host.Outcome State Fault Refusal :=
  s.live t fun b => b.checkpoint

/-- JOURNAL_FLUSH: A journal page is written (R276). -/
def execJournalFlush (t : Nat) (s : State) : Host.Outcome State Fault Refusal :=
  s.live t fun b => b.journalFlush

/-- STRIPE_READ: all 8 channel-pages of a stripe read are decoded (R268, R238). -/
def execStripeRead (t : Nat) (handle : Nat) (data : StripeData) (s : State) : Host.Outcome State Fault Refusal :=
  s.live t fun b => b.stripeDelivered handle data

/-- STRIPE_BUDGET: T_s after a stripe read was issued, with the channel-pages decoded (R269, R238). -/
def execStripeBudget (t : Nat) (handle : Nat) (data : StripeData) (pages : BitVec 8) (s : State) : Host.Outcome State Fault Refusal :=
  s.live t fun b => b.stripeBudget handle data pages

/-- SPOOL_RETRY_DONE: the full-retry read of an untimely stripe ends (R269). -/
def execSpoolRetryDone (t : Nat) (handle : Nat) (stripe : Nat) (lost : Bool) (s : State) : Host.Outcome State Fault Refusal :=
  s.live t fun b => b.spoolRetryDone handle stripe lost

/-- PROGRAM_FAILURE: A program of a block of a group fails (R283). -/
def execProgramFailure (t : Nat) (place : PlaneAt) (group : Nat) (s : State) : Host.Outcome State Fault Refusal :=
  s.live t fun b => b.retire place.lun place.plane group

/-- ERASE_FAILURE: an erase of a block of a group fails (R283). -/
def execEraseFailure (t : Nat) (place : PlaneAt) (group : Nat) (s : State) : Host.Outcome State Fault Refusal :=
  s.live t fun b => b.retire place.lun place.plane group

/-- ARCHIVE_RECLAIM: A ring runs short of free groups (R272). -/
def execArchiveReclaim (t : Nat) (evidence : Bool) (s : State) : Host.Outcome State Fault Refusal :=
  s.live t fun b => b.reclaim (if evidence then .evidence else .archive)

/-- COMPACTION: A SPOOL group below 50 % valid (R270). -/
def execCompaction (t : Nat) (group : Nat) (s : State) : Host.Outcome State Fault Refusal :=
  s.live t fun b => b.compact group

/-- PATROL_READ: patrol reads a channel-page: the corrected bits of each codeword, or none, by the hard decode and the soft re-reads (R261, R282). -/
def execPatrolRead (t : Nat) (group : Nat) (place : PageAt) (hard : List (Option Nat)) (soft1 : List (Option Nat)) (soft2 : List (Option Nat)) (soft3 : List (Option Nat)) (s : State) : Host.Outcome State Fault Refusal :=
  s.live t fun b => b.patrolRead group place (codewords hard soft1 soft2 soft3)

/-- PATROL_BEHIND: A patrol period ends (R282). -/
def execPatrolBehind (t : Nat) (s : State) : Host.Outcome State Fault Refusal :=
  s.live t fun b => b.patrolEnd b.flashHottest

/-- SEAL: 10 s since the last SEAL (R293). -/
def execSeal (t : Nat) (s : State) : Host.Outcome State Fault Refusal :=
  s.live t fun b => b.sealEntry

/-- ITEM_ENTRY: an item's ledger entry falls due (R290). -/
def execItemEntry (t : Nat) (seq : Nat) (s : State) : Host.Outcome State Fault Refusal :=
  s.live t fun b => b.itemEntry seq

/-- WEAR_AHEAD: the erase rate of 24 powered hours is judged (R281). -/
def execWearAhead (t : Nat) (s : State) : Host.Outcome State Fault Refusal :=
  s.live t fun b => b.wearAhead

/-- STAGING_WRITE: the oldest formed unit enters staging, or is discarded (R277). -/
def execStagingWrite (t : Nat) (s : State) : Host.Outcome State Fault Refusal :=
  s.live t fun b => b.stagingWrite

/-- STAGING_ROOM: staging has room again (R277). -/
def execStagingRoom (t : Nat) (s : State) : Host.Outcome State Fault Refusal :=
  s.live t fun b => b.stagingRoom

/-- DATA_COMMITTED: the oldest n staged units finish programming (R276). -/
def execDataCommitted (t : Nat) (n : Nat) (s : State) : Host.Outcome State Fault Refusal :=
  s.live t fun b => b.committed n

/-- ERASE_DONE: A group's erase completes (R276). -/
def execEraseDone (t : Nat) (group : Nat) (s : State) : Host.Outcome State Fault Refusal :=
  s.live t fun b => b.eraseDone group

/-- CRIT_SEAL_RESUME: 100 ms without an on-die CRIT (R400). -/
def execCritSealResume (t : Nat) (s : State) : Host.Outcome State Fault Refusal :=
  s.live t fun b => b.critSealResume

end Sys2Proof.Machine
end

