-- ==== Sys2Proof/Machine/ExecThermal.lean ====
section
/-! DEFINITION. Meanings of the commands of slack, core voltage and thermal management (chapter 14). -/

namespace Sys2Proof.Machine

/-- SLACK_MEASUREMENT: A measurement of every stage class: location, class and the replica's cycle time in ps (R20). -/
def execSlackMeasurement (t : Nat) (ms : List (Nat × Nat × Nat)) (s : State) : Host.Outcome State Fault Refusal :=
  s.live t fun b => b.slackMeasure ms

/-- SLACK_INTERVAL: A 1 ms interval ends (R21). -/
def execSlackInterval (m : VcoreMoment) (s : State) : Host.Outcome State Fault Refusal :=
  s.live m.t fun b => b.slackInterval (b.writeTaken m.ack m.pec)

/-- VCORE_LOWER: slack has stayed high for 100 ms (R21). -/
def execVcoreLower (m : VcoreMoment) (s : State) : Host.Outcome State Fault Refusal :=
  s.live m.t fun b => b.vcoreLower (b.writeTaken m.ack m.pec)

/-- SLACK_SAFETY_NET: 8 measurements at or below 0 % with every token withheld (R21). -/
def execSlackSafetyNet (t : Nat) (s : State) : Host.Outcome State Fault Refusal :=
  s.live t fun b => b.slackNet

/-- PMBUS_POLL: READ_VOUT and STATUS_WORD are read, or fail (R410). -/
def execPmbusPoll (t : Nat) (answer : PmbusAnswer) (s : State) : Host.Outcome State Fault Refusal :=
  s.live t fun b => b.pmbusPoll (b.pecChecked answer.vout) (b.pecChecked answer.status) answer.clear

/-- PMBUS_RETRY: A failed transaction is retried (R412). -/
def execPmbusRetry (t : Nat) (answer : PmbusAnswer) (s : State) : Host.Outcome State Fault Refusal :=
  s.live t fun b => b.pmbusRetry (b.pecChecked answer.vout) answer.clear

/-- SENSOR_SAMPLE: A sensor is measured: what its converter reads, flagged open or shorted (R397, R409). -/
def execSensorSample (t : Nat) (i : Fin 26) (reading : Nat) (flagged : Bool) (s : State) : Host.Outcome State Fault Refusal :=
  s.measured t fun b => b.sensorSample i reading flagged

/-- DEMAND_STEP_UP: A step-up interval ends (R402). -/
def execDemandStepUp (t : Nat) (i : Fin 26) (s : State) : Host.Outcome State Fault Refusal :=
  s.live t fun b => b.demandUp i

/-- DEMAND_STEP_DOWN: A step-down interval ends (R402). -/
def execDemandStepDown (t : Nat) (i : Fin 26) (s : State) : Host.Outcome State Fault Refusal :=
  s.live t fun b => b.demandDown i

/-- COMP_STEP: decided class P steps whose boundary has come take effect (R120). -/
def execCompStep (t : Nat) (s : State) : Host.Outcome State Fault Refusal :=
  s.live t fun b => b.settlePStep b.lines

/-- B_STEP: the decided class B step takes effect (R403). -/
def execBStep (t : Nat) (s : State) : Host.Outcome State Fault Refusal :=
  s.live t fun b => b.settleB

/-- THERMAL_TRIP: A shutdown diode trips (R408). -/
def execThermalTrip (t : Nat) (i : Fin 26) (peak : Int) (openFor : Nat) (s : State) : Host.Outcome State Fault Refusal :=
  s.tripped t fun b => b.thermalTrip i peak openFor

/-- THERMAL_RESTART: on-die sensors have been cool for 10 s (R409). -/
def execThermalRestart (t : Nat) (s : State) : Host.Outcome State Fault Refusal :=
  s.measured t fun b => b.thermalRestart

end Sys2Proof.Machine
end

