-- ==== Sys2Proof/Machine/ExecTimers.lean ====
section
/-! DEFINITION. Meanings of the commands of timers (chapter 13). -/

namespace Sys2Proof.Machine

/-- TIMER_MATCH: the count has reached a compare value (R382 to R385). -/
def execTimerMatch (t : Nat) (i : Fin 16) (s : State) : Host.Outcome State Fault Refusal :=
  s.live t fun b => b.timerMatch i

/-- TIMER_TICK: A timer ticks (R380). -/
def execTimerTick (t : Nat) (i : Fin 16) (s : State) : Host.Outcome State Fault Refusal :=
  s.live t fun b => b.timerTick i

end Sys2Proof.Machine
end

