-- ==== Sys2Proof/Machine/ExecTiming.lean ====
section
/-! DEFINITION. Meanings of the commands of timebase, encoders and the trigger synthesiser (chapter 3). -/

namespace Sys2Proof.Machine

/-- SYNC_MESSAGE: A reference offset is measured: SYNC0 (src 0xFE) or a port's 802.1AS Sync (R78). -/
def execSyncMessage (t : Nat) (src : Nat) (offset : Int) (s : State) : Host.Outcome State Fault Refusal :=
  s.live t fun b => b.syncMessage src offset

/-- ANNOUNCE_TIMEOUT: three announce intervals without an Announce on a port (R80). -/
def execAnnounceTimeout (t : Nat) (p : Fin 4) (s : State) : Host.Outcome State Fault Refusal :=
  s.live t fun b => b.announceTimeout p

/-- DISC_HOLD: the reference has been lost for more than 100 ms (R79). -/
def execDiscHold (t : Nat) (s : State) : Host.Outcome State Fault Refusal :=
  s.live t fun b => b.discHold

/-- SYNC_IN_EDGE: A SYNC_IN rising edge at time te (R82). -/
def execSyncInEdge (t : Nat) (te : Nat) (s : State) : Host.Outcome State Fault Refusal :=
  s.live t fun b => b.syncInEdge te

/-- TB_UNLOCK: 8 consecutive out-of-lock REFCLK cycles (R83). -/
def execTbUnlock (t : Nat) (s : State) : Host.Outcome State Fault Refusal :=
  s.live t fun b => b.tbUnlock

/-- TB_HOLDOVER_LIMIT: 250,000 REFCLK cycles after the lock loss (R84). -/
def execTbHoldoverLimit (t : Nat) (s : State) : Host.Outcome State Fault Refusal :=
  s.live t fun b => b.tbLimit

/-- TB_RELOCK: lock held for 100 µs (R85). -/
def execTbRelock (t : Nat) (s : State) : Host.Outcome State Fault Refusal :=
  s.live t fun b => b.tbRelock

/-- REFCLK_LOST: no REFCLK edge for 200 ns (R86). -/
def execRefclkLost (t : Nat) (s : State) : Host.Outcome State Fault Refusal :=
  s.live t fun b => b.refclkLost

/-- REFCLK_RETURN: REFCLK back for 100 µs with the PLL locked (R86). -/
def execRefclkReturn (t : Nat) (s : State) : Host.Outcome State Fault Refusal :=
  s.live t fun b => b.refclkReturn

/-- ENCODER_COUNT: A or B has changed and been stable for `held` ns: an accepted count, or both at once, which is no count but a quadrature error (R87, R88). -/
def execEncoderCount (t : Nat) (e : Fin 2) (dir : CountDir) (held : Nat) (s : State) : Host.Outcome State Fault Refusal :=
  s.live t fun b => b.encoderCount e dir held

/-- ENC_WIRE: A pair open or shorted for 1 µs (R88). -/
def execEncWire (t : Nat) (e : Fin 2) (w : EncWire) (s : State) : Host.Outcome State Fault Refusal :=
  s.live t fun b => b.encWire e w

/-- Z_EDGE: A Z rising edge that has been stable for a time (R87, R89). -/
def execZEdge (t : Nat) (edge : HeldEdge) (s : State) : Host.Outcome State Fault Refusal :=
  s.live t fun b => b.zEdge edge.enc edge.held

/-- ZERO_SPEED: no count for the zero-speed timeout (R91). -/
def execZeroSpeed (t : Nat) (s : State) : Host.Outcome State Fault Refusal :=
  s.live t fun b => b.zeroSpeed

/-- OVERSPEED_CLEAR: 1 ms without overspeed (R90). -/
def execOverspeedClear (t : Nat) (s : State) : Host.Outcome State Fault Refusal :=
  s.live t fun b => b.overspeedClear

/-- SYNC_LOST: the 64th DR line without relock (R103). -/
def execSyncLost (t : Nat) (s : State) : Host.Outcome State Fault Refusal :=
  s.live t fun b => b.syncLost

/-- TRIGGER_REQUEST: A trigger request made at time r (R71, R94, R104). -/
def execTriggerRequest (t : Nat) (r : Nat) (s : State) : Host.Outcome State Fault Refusal :=
  s.live t fun b => b.triggerRequest r

/-- CRAWL_LINE_TIMEOUT: 500 µs without a further trigger (R64). -/
def execCrawlLineTimeout (t : Nat) (s : State) : Host.Outcome State Fault Refusal :=
  s.live t fun b => b.crawlTimeout

/-- ANNOUNCE_RECEIVED: an 802.1AS Announce: domain, the data set that ranks its grandmaster, its interval in ns (R80). -/
def execAnnounceReceived (t : Nat) (p : Fin 4) (domain : Nat) (rank : Nat) (interval : Nat) (s : State) : Host.Outcome State Fault Refusal :=
  s.live t fun b => b.announceReceived p domain rank interval

end Sys2Proof.Machine
end

