-- ==== Sys2Proof/Machine/Dispatch.lean ====
section
/-! DEFINITION. One arm per command: the direct call of its meaning. -/

namespace Sys2Proof.Machine

def exec (i : Instr) (s : State) : Host.Outcome State Fault Refusal :=
  match i with
  | .arm t => Sys2Proof.Machine.execArm t s
  | .copyToArmed t => Sys2Proof.Machine.execCopyToArmed t s
  | .disarm t => Sys2Proof.Machine.execDisarm t s
  | .applyPoint t => Sys2Proof.Machine.execApplyPoint t s
  | .applyLineCommand t => Sys2Proof.Machine.execApplyLineCommand t s
  | .announcement t => Sys2Proof.Machine.execAnnouncement t s
  | .hostCheckin t seven => Sys2Proof.Machine.execHostCheckin t seven s
  | .snRelease t => Sys2Proof.Machine.execSnRelease t s
  | .txpdoLatch t => Sys2Proof.Machine.execTxpdoLatch t s
  | .alRequestPreop t mail => Sys2Proof.Machine.execAlRequestPreop t mail s
  | .alRequestSafeop t sm2 sm3 sync => Sys2Proof.Machine.execAlRequestSafeop t sm2 sm3 sync s
  | .alRequestOp t => Sys2Proof.Machine.execAlRequestOp t s
  | .alRequestInit t => Sys2Proof.Machine.execAlRequestInit t s
  | .alRequestBoot t boot => Sys2Proof.Machine.execAlRequestBoot t boot s
  | .smWatchdog t => Sys2Proof.Machine.execSmWatchdog t s
  | .mailboxUnsupported t type => Sys2Proof.Machine.execMailboxUnsupported t type s
  | .sdoDownload t frame => Sys2Proof.Machine.execSdoDownload t frame s
  | .sdoSegmentTimeout t => Sys2Proof.Machine.execSdoSegmentTimeout t s
  | .store t => Sys2Proof.Machine.execStore t s
  | .restore t => Sys2Proof.Machine.execRestore t s
  | .eventLogRead t => Sys2Proof.Machine.execEventLogRead t s
  | .referenceDelete t handle => Sys2Proof.Machine.execReferenceDelete t handle s
  | .mask t => Sys2Proof.Machine.execMask t s
  | .unmask t => Sys2Proof.Machine.execUnmask t s
  | .compensate t => Sys2Proof.Machine.execCompensate t s
  | .uncompensate t => Sys2Proof.Machine.execUncompensate t s
  | .trackReset t => Sys2Proof.Machine.execTrackReset t s
  | .format t => Sys2Proof.Machine.execFormat t s
  | .formatDone t => Sys2Proof.Machine.execFormatDone t s
  | .pin t => Sys2Proof.Machine.execPin t s
  | .unpin t => Sys2Proof.Machine.execUnpin t s
  | .run t e => Sys2Proof.Machine.execRun t e s
  | .runClear t e => Sys2Proof.Machine.execRunClear t e s
  | .halt t e => Sys2Proof.Machine.execHalt t e s
  | .engineHalted t e => Sys2Proof.Machine.execEngineHalted t e s
  | .programWrite t e bytes => Sys2Proof.Machine.execProgramWrite t e bytes s
  | .commandQueueWrite t k w => Sys2Proof.Machine.execCommandQueueWrite t k w s
  | .reportQueueRead t k => Sys2Proof.Machine.execReportQueueRead t k s
  | .timerStart t mask => Sys2Proof.Machine.execTimerStart t mask s
  | .timerStop t mask => Sys2Proof.Machine.execTimerStop t mask s
  | .compareWrite t j cmpB v => Sys2Proof.Machine.execCompareWrite t j cmpB v s
  | .periodWrite t j v => Sys2Proof.Machine.execPeriodWrite t j v s
  | .pairWrite t j sub v => Sys2Proof.Machine.execPairWrite t j sub v s
  | .positionPreset t p v => Sys2Proof.Machine.execPositionPreset t p v s
  | .timerMatch t j => Sys2Proof.Machine.execTimerMatch t j s
  | .reset t => Sys2Proof.Machine.execReset t s
  | .confirm t => Sys2Proof.Machine.execConfirm t s
  | .advanceSvn t stuck => Sys2Proof.Machine.execAdvanceSvn t stuck s
  | .advanceKeyRev t stuck => Sys2Proof.Machine.execAdvanceKeyRev t stuck s
  | .advanceCalGen t stuck => Sys2Proof.Machine.execAdvanceCalGen t stuck s
  | .fieldClose t stuckMask => Sys2Proof.Machine.execFieldClose t stuckMask s
  | .substituteAssign t j word => Sys2Proof.Machine.execSubstituteAssign t j word s
  | .firmwareWrite t step => Sys2Proof.Machine.execFirmwareWrite t step s
  | .calibrationWrite t step => Sys2Proof.Machine.execCalibrationWrite t step s
  | .mapWrite t step => Sys2Proof.Machine.execMapWrite t step s
  | .profileWrite t step => Sys2Proof.Machine.execProfileWrite t step s
  | .jobContainerWrite t => Sys2Proof.Machine.execJobContainerWrite t s
  | .foeDataPacket t packet bytes => Sys2Proof.Machine.execFoeDataPacket t packet bytes s
  | .eventlogFileRead t => Sys2Proof.Machine.execEventlogFileRead t s
  | .logbundleRead t => Sys2Proof.Machine.execLogbundleRead t s
  | .identityCertRead t => Sys2Proof.Machine.execIdentityCertRead t s
  | .quoteRead t => Sys2Proof.Machine.execQuoteRead t s
  | .hello t rx => Sys2Proof.Machine.execHello t rx s
  | .close t rx => Sys2Proof.Machine.execClose t rx s
  | .keepaliveSend t k => Sys2Proof.Machine.execKeepaliveSend t k s
  | .sessionTimeout t k => Sys2Proof.Machine.execSessionTimeout t k s
  | .replayReq t rx => Sys2Proof.Machine.execReplayReq t rx s
  | .benchReq t rx more => Sys2Proof.Machine.execBenchReq t rx more s
  | .spoolBegin t rx => Sys2Proof.Machine.execSpoolBegin t rx s
  | .spoolData t rx => Sys2Proof.Machine.execSpoolData t rx s
  | .spoolAck t k => Sys2Proof.Machine.execSpoolAck t k s
  | .uploadAborted t k => Sys2Proof.Machine.execUploadAborted t k s
  | .readbackRequest t rx => Sys2Proof.Machine.execReadbackRequest t rx s
  | .credit t rx => Sys2Proof.Machine.execCredit t rx s
  | .commandRecord t rx => Sys2Proof.Machine.execCommandRecord t rx s
  | .snapshot t rx => Sys2Proof.Machine.execSnapshot t rx s
  | .kspMalformed t rx => Sys2Proof.Machine.execKspMalformed t rx s
  | .arpRequest t p mac sender target => Sys2Proof.Machine.execArpRequest t p mac sender target s
  | .neighbourSolicitation t p sender target => Sys2Proof.Machine.execNeighbourSolicitation t p sender target s
  | .echoRequest t p v6 sender target rest => Sys2Proof.Machine.execEchoRequest t p v6 sender target rest s
  | .linkDown t p => Sys2Proof.Machine.execLinkDown t p s
  | .linkUp t p => Sys2Proof.Machine.execLinkUp t p s
  | .syncMessage t src offset => Sys2Proof.Machine.execSyncMessage t src offset s
  | .announceTimeout t p => Sys2Proof.Machine.execAnnounceTimeout t p s
  | .discHold t => Sys2Proof.Machine.execDiscHold t s
  | .syncInEdge t te => Sys2Proof.Machine.execSyncInEdge t te s
  | .tbUnlock t => Sys2Proof.Machine.execTbUnlock t s
  | .tbHoldoverLimit t => Sys2Proof.Machine.execTbHoldoverLimit t s
  | .tbRelock t => Sys2Proof.Machine.execTbRelock t s
  | .refclkLost t => Sys2Proof.Machine.execRefclkLost t s
  | .refclkReturn t => Sys2Proof.Machine.execRefclkReturn t s
  | .encoderCount t e dir held => Sys2Proof.Machine.execEncoderCount t e dir held s
  | .encWire t e w => Sys2Proof.Machine.execEncWire t e w s
  | .zEdge t edge => Sys2Proof.Machine.execZEdge t edge s
  | .zeroSpeed t => Sys2Proof.Machine.execZeroSpeed t s
  | .overspeedClear t => Sys2Proof.Machine.execOverspeedClear t s
  | .syncLost t => Sys2Proof.Machine.execSyncLost t s
  | .triggerRequest t r => Sys2Proof.Machine.execTriggerRequest t r s
  | .crawlLineTimeout t => Sys2Proof.Machine.execCrawlLineTimeout t s
  | .segmentLine t seg n line => Sys2Proof.Machine.execSegmentLine t seg n line s
  | .segmentLineTimeout t seg n line => Sys2Proof.Machine.execSegmentLineTimeout t seg n line s
  | .eventRouted t k => Sys2Proof.Machine.execEventRouted t k s
  | .cueEdge t lane te => Sys2Proof.Machine.execCueEdge t lane te s
  | .stuckCue t lane => Sys2Proof.Machine.execStuckCue t lane s
  | .frameClose t => Sys2Proof.Machine.execFrameClose t s
  | .verdictPublish t lane number => Sys2Proof.Machine.execVerdictPublish t lane number s
  | .verdictLate t lane number => Sys2Proof.Machine.execVerdictLate t lane number s
  | .slackMeasurement t ms => Sys2Proof.Machine.execSlackMeasurement t ms s
  | .slackInterval m => Sys2Proof.Machine.execSlackInterval m s
  | .vcoreLower m => Sys2Proof.Machine.execVcoreLower m s
  | .slackSafetyNet t => Sys2Proof.Machine.execSlackSafetyNet t s
  | .pmbusPoll t answer => Sys2Proof.Machine.execPmbusPoll t answer s
  | .pmbusRetry t answer => Sys2Proof.Machine.execPmbusRetry t answer s
  | .sensorSample t j reading flagged => Sys2Proof.Machine.execSensorSample t j reading flagged s
  | .demandStepUp t j => Sys2Proof.Machine.execDemandStepUp t j s
  | .demandStepDown t j => Sys2Proof.Machine.execDemandStepDown t j s
  | .compStep t => Sys2Proof.Machine.execCompStep t s
  | .bStep t => Sys2Proof.Machine.execBStep t s
  | .thermalTrip t j peak openFor => Sys2Proof.Machine.execThermalTrip t j peak openFor s
  | .thermalRestart t => Sys2Proof.Machine.execThermalRestart t s
  | .mount t found ms => Sys2Proof.Machine.execMount t found ms s
  | .pfailAccepted t => Sys2Proof.Machine.execPfailAccepted t s
  | .pfailSealed t => Sys2Proof.Machine.execPfailSealed t s
  | .pfailResumed t => Sys2Proof.Machine.execPfailResumed t s
  | .checkpoint t => Sys2Proof.Machine.execCheckpoint t s
  | .journalFlush t => Sys2Proof.Machine.execJournalFlush t s
  | .stripeRead t handle data => Sys2Proof.Machine.execStripeRead t handle data s
  | .stripeBudget t handle data pages => Sys2Proof.Machine.execStripeBudget t handle data pages s
  | .spoolRetryDone t handle stripe lost => Sys2Proof.Machine.execSpoolRetryDone t handle stripe lost s
  | .programFailure t place group => Sys2Proof.Machine.execProgramFailure t place group s
  | .eraseFailure t place group => Sys2Proof.Machine.execEraseFailure t place group s
  | .archiveReclaim t evidence => Sys2Proof.Machine.execArchiveReclaim t evidence s
  | .compaction t group => Sys2Proof.Machine.execCompaction t group s
  | .patrolRead t group place hard soft1 soft2 soft3 => Sys2Proof.Machine.execPatrolRead t group place hard soft1 soft2 soft3 s
  | .patrolBehind t => Sys2Proof.Machine.execPatrolBehind t s
  | .seal t => Sys2Proof.Machine.execSeal t s
  | .itemEntry t seq => Sys2Proof.Machine.execItemEntry t seq s
  | .wearAhead t => Sys2Proof.Machine.execWearAhead t s
  | .stagingWrite t => Sys2Proof.Machine.execStagingWrite t s
  | .stagingRoom t => Sys2Proof.Machine.execStagingRoom t s
  | .windowBoundary t => Sys2Proof.Machine.execWindowBoundary t s
  | .windowClose t => Sys2Proof.Machine.execWindowClose t s
  | .nozzleLate t => Sys2Proof.Machine.execNozzleLate t s
  | .serialFrameWrite t j => Sys2Proof.Machine.execSerialFrameWrite t j s
  | .ladderCue t te => Sys2Proof.Machine.execLadderCue t te s
  | .ladderEnd t => Sys2Proof.Machine.execLadderEnd t s
  | .jmp t k lv => Sys2Proof.Machine.execJmp t k lv s
  | .wait t k lv => Sys2Proof.Machine.execWait t k lv s
  | .waitComplete t k lv te kind => Sys2Proof.Machine.execWaitComplete t k lv te kind s
  | .setLow t k lv => Sys2Proof.Machine.execSetLow t k lv s
  | .setHigh t k lv => Sys2Proof.Machine.execSetHigh t k lv s
  | .setToggle t k lv => Sys2Proof.Machine.execSetToggle t k lv s
  | .setRelease t k lv => Sys2Proof.Machine.execSetRelease t k lv s
  | .outputCompareFire t j => Sys2Proof.Machine.execOutputCompareFire t j s
  | .ldi t k lv => Sys2Proof.Machine.execLdi t k lv s
  | .ldh t k lv => Sys2Proof.Machine.execLdh t k lv s
  | .aluMov t k lv => Sys2Proof.Machine.execAluMov t k lv s
  | .aluAdd t k lv => Sys2Proof.Machine.execAluAdd t k lv s
  | .aluSub t k lv => Sys2Proof.Machine.execAluSub t k lv s
  | .aluAnd t k lv => Sys2Proof.Machine.execAluAnd t k lv s
  | .aluOr t k lv => Sys2Proof.Machine.execAluOr t k lv s
  | .aluXor t k lv => Sys2Proof.Machine.execAluXor t k lv s
  | .aluShl t k lv => Sys2Proof.Machine.execAluShl t k lv s
  | .aluShr t k lv => Sys2Proof.Machine.execAluShr t k lv s
  | .aluCmp t k lv => Sys2Proof.Machine.execAluCmp t k lv s
  | .aluTst t k lv => Sys2Proof.Machine.execAluTst t k lv s
  | .get t k lv => Sys2Proof.Machine.execGet t k lv s
  | .send t k lv => Sys2Proof.Machine.execSend t k lv s
  | .fetch t k lv => Sys2Proof.Machine.execFetch t k lv s
  | .fetchPeek t k lv => Sys2Proof.Machine.execFetchPeek t k lv s
  | .shiftOut t k lv => Sys2Proof.Machine.execShiftOut t k lv s
  | .shiftIn t k lv => Sys2Proof.Machine.execShiftIn t k lv s
  | .putSh t k lv => Sys2Proof.Machine.execPutSh t k lv s
  | .putBc t k lv => Sys2Proof.Machine.execPutBc t k lv s
  | .evtLeading t k lv => Sys2Proof.Machine.execEvtLeading t k lv s
  | .evtTrailing t k lv => Sys2Proof.Machine.execEvtTrailing t k lv s
  | .evtPulse t k lv => Sys2Proof.Machine.execEvtPulse t k lv s
  | .ctlNop t k lv => Sys2Proof.Machine.execCtlNop t k lv s
  | .ctlHalt t k lv => Sys2Proof.Machine.execCtlHalt t k lv s
  | .ctlClrsh t k lv => Sys2Proof.Machine.execCtlClrsh t k lv s
  | .ctlLog t k lv => Sys2Proof.Machine.execCtlLog t k lv s
  | .illegalOp t k lv => Sys2Proof.Machine.execIllegalOp t k lv s
  | .watchdogPeriodClose t => Sys2Proof.Machine.execWatchdogPeriodClose t s
  | .firmwareCheckin t slot => Sys2Proof.Machine.execFirmwareCheckin t slot s
  | .resetHubAndSegments t => Sys2Proof.Machine.execResetHubAndSegments t s
  | .faultnReadback pin => Sys2Proof.Machine.execFaultnReadback pin s
  | .brownOut t rail => Sys2Proof.Machine.execBrownOut t rail s
  | .lockstepMismatch t => Sys2Proof.Machine.execLockstepMismatch t s
  | .stageStall t seg cls => Sys2Proof.Machine.execStageStall t seg cls s
  | .dramUncorrectable t region addr => Sys2Proof.Machine.execDramUncorrectable t region addr s
  | .stolenLine t => Sys2Proof.Machine.execStolenLine t s
  | .inServiceTest t test seg unit r => Sys2Proof.Machine.execInServiceTest t test seg unit r s
  | .coveragePassEnd t => Sys2Proof.Machine.execCoveragePassEnd t s
  | .coveragePassOverrun t => Sys2Proof.Machine.execCoveragePassOverrun t s
  | .dramScrub t found => Sys2Proof.Machine.execDramScrub t found s
  | .mramScrub m => Sys2Proof.Machine.execMramScrub m s
  | .startup t boot => Sys2Proof.Machine.execStartup t boot s
  | .externalReset pin => Sys2Proof.Machine.execExternalReset pin s
  | .fuseReread t seg row low high => Sys2Proof.Machine.execFuseReread t seg row low high s
  | .extest t => Sys2Proof.Machine.execExtest t s
  | .jobSubmit t descriptor input chain => Sys2Proof.Machine.execJobSubmit t descriptor input chain s
  | .inflateJobDone t => Sys2Proof.Machine.execInflateJobDone t s
  | .deflateJobDone t => Sys2Proof.Machine.execDeflateJobDone t s
  | .refCommit t handle => Sys2Proof.Machine.execRefCommit t handle s
  | .rxpdoSample t frame => Sys2Proof.Machine.execRxpdoSample t frame s
  | .announceReceived t p domain rank interval => Sys2Proof.Machine.execAnnounceReceived t p domain rank interval s
  | .peerDelayRequest t p => Sys2Proof.Machine.execPeerDelayRequest t p s
  | .keepaliveReceived t rx => Sys2Proof.Machine.execKeepaliveReceived t rx s
  | .dataCommitted t n => Sys2Proof.Machine.execDataCommitted t n s
  | .eraseDone t group => Sys2Proof.Machine.execEraseDone t group s
  | .timerTick t j => Sys2Proof.Machine.execTimerTick t j s
  | .critSealResume t => Sys2Proof.Machine.execCritSealResume t s
  | .causeClears t cause => Sys2Proof.Machine.execCauseClears t cause s
  | .tapReset t => Sys2Proof.Machine.execTapReset t s
  | .gateEntryStart t p => Sys2Proof.Machine.execGateEntryStart t p s
  | .bankHoldEnd t bank => Sys2Proof.Machine.execBankHoldEnd t bank s
  | .foeUnknownName t file => Sys2Proof.Machine.execFoeUnknownName t file s
  | .sm1MailboxRead t => Sys2Proof.Machine.execSm1MailboxRead t s

end Sys2Proof.Machine
end

