-- ==== Sys2Proof/Machine/Step.lean ====
section
/-! DEFINITION. The step: the command at the front of the queue is taken; an empty queue lets a tick of the timebase
pass. -/

namespace Sys2Proof.Machine

/-- The queue is empty: the timebase counts on by 1 ns, or by 40 ns while it does not run on the PLL (R77, R83, R86). -/
def Bar.tick1 (b : Bar) : Bar := { b with now := b.now + (if b.cap.tb.mode = .pll then 1 else 40) }

/-- The state without its queue's first command. -/
def State.withQueue (s : State) (q : List Instr) : State := { s with pending := q }

def step (s : State) : Host.Outcome State Fault Refusal :=
  match s.pending with
  | [] => .next { s with bar := s.bar.tick1 }
  | c :: rest => exec c (s.withQueue rest)

/-- The table gives no row bits, so no word spells a command. -/
def State.withFetchWord (s : State) (nbits w : Nat) : State :=
  match Sys2Proof.decodeTableWord nbits w with
  | some c => { s with pending := c :: s.pending }
  | none => s

end Sys2Proof.Machine
end

