-- ==== Sys2Proof/WellFormed.lean ====
section
/-! DEFINITION. Well-formed commands: operands within the widths and lengths the spec gives them. A meaning does not need
its command to be well formed; what waits in a queue of the hardware is. -/

namespace Sys2Proof

/-- An SDO request whose index, subindex and value can stand in a message. -/
def requestWf (r : Machine.SdoRequest) : Bool := decide (r.index < 65536) && decide (r.sub < 256)

def frameWf : Machine.SdoFrame → Bool
  | .request r => requestWf r
  | .segment i s => decide (i < 65536) && decide (s < 256)
  | .toggleError i s => decide (i < 65536) && decide (s < 256)
  | .unknownCommand i s => decide (i < 65536) && decide (s < 256)
  | .odList kind => decide (kind < 65536)
  | .objectInfo i => decide (i < 65536)
  | .describe i s => decide (i < 65536) && decide (s < 256)

/-- A counter bit that stays unset (R455: 256 bits). -/
def stuckWf (x : List Nat) : Bool := x.all fun i => decide (i < 256)

/-- A BEST_EFFORT deflate job takes at most 1 MiB of input (R248). -/
def bestEffortWf (d : List Byte) : Bool :=
  ((d.getD 0 0).toNat % 8 ≠ 1 && (d.getD 0 0).toNat % 8 ≠ 3) || decide (((d.drop 16).take 8).foldr (fun x n => x.toNat + 256 * n) 0 ≤ 1048576)
/-- A VLAN ID has 12 bits. -/
def tagWf (x : Option Nat) : Bool := x.all fun v => decide (v < 4096)

/-- A received datagram: a 16-byte address, a UDP port, at most 65,507 bytes of payload. -/
def rxWf (rx : Rx) : Bool := decide (rx.addr.length = 16) && decide (rx.udp < 65536) && decide (rx.dst < 65536)
  && decide (rx.bytes.length ≤ 65507) && tagWf rx.tag

/-- A segment's line: bands 0 to 3, rows 0 to 7, pixels of one segment. -/
def lineWf (x : SegLine) : Bool :=
  (x.rows.all fun r => decide (r.band < 4) && decide (r.row < 8) && decide (r.first + r.signals.length ≤ 7680))
    && decide (x.dark0.length ≤ 7680) && decide (x.dark1.length ≤ 7680)

/-- What a mount finds: chip enables 0 to 3, 8 bytes of READ ID, parameter page copies of 256 bytes. -/
def foundWf (x : Found) : Bool :=
  x.targets.all fun t => decide (t.ce < 4) && decide (t.id.length = 8) && t.copies.all fun p => p.length = 256

/-- A block of 16 × 4 samples at depth 8 and ratio 8 has 8 bytes. -/
def blockWf (x : BlockRead) : Bool := x.err.length = 8

/-- A PMBus answer: VCORE read is an UNSIGNED16 in mV, STATUS_WORD and VOUT_MODE have no more bits (Table 14-9). -/
def pmbusWf (x : PmbusAnswer) : Bool := x.vout.value.all (fun v => decide (v < 65536)) && x.status.value.all fun w => decide (w < 65536)

/-- Margin reads of a fuse row: rows of the hub or of a segment, 64 bits each. -/
def fuseWf (seg : Option (Fin 8)) (row lo hi : Nat) : Bool :=
  decide (row < match seg with | none => 528 | some _ => 68) && decide (lo < 2 ^ 64) && decide (hi < 2 ^ 64)

/-- A well-formed command. -/
def Instr.wf : Instr → Bool
  | .arm _ => true
  | .copyToArmed _ => true
  | .disarm _ => true
  | .applyPoint _ => true
  | .applyLineCommand _ => true
  | .announcement _ => true
  | .hostCheckin _ _ => true
  | .snRelease _ => true
  | .txpdoLatch _ => true
  | .alRequestPreop _ _ => true
  | .alRequestSafeop _ _ _ _ => true
  | .alRequestOp _ => true
  | .alRequestInit _ => true
  | .alRequestBoot _ _ => true
  | .smWatchdog _ => true
  | .mailboxUnsupported _ type => decide (type < 16)
  | .sdoDownload _ frame => frameWf frame
  | .sdoSegmentTimeout _ => true
  | .store _ => true
  | .restore _ => true
  | .eventLogRead _ => true
  | .referenceDelete _ handle => decide (handle < 2 ^ 32)
  | .mask _ => true
  | .unmask _ => true
  | .compensate _ => true
  | .uncompensate _ => true
  | .trackReset _ => true
  | .format _ => true
  | .formatDone _ => true
  | .pin _ => true
  | .unpin _ => true
  | .run _ _ => true
  | .runClear _ _ => true
  | .halt _ _ => true
  | .engineHalted _ _ => true
  | .programWrite _ _ bytes => decide (bytes.length ≤ 16384)
  | .commandQueueWrite _ _ _ => true
  | .reportQueueRead _ _ => true
  | .timerStart _ _ => true
  | .timerStop _ _ => true
  | .compareWrite _ _ _ _ => true
  | .periodWrite _ _ _ => true
  | .pairWrite _ _ _ _ => true
  | .positionPreset _ _ _ => true
  | .timerMatch _ _ => true
  | .reset _ => true
  | .confirm _ => true
  | .advanceSvn _ stuck => stuckWf stuck
  | .advanceKeyRev _ stuck => stuckWf stuck
  | .advanceCalGen _ stuck => stuckWf stuck
  | .fieldClose _ stuckMask => decide (stuckMask < 256)
  | .substituteAssign _ _ _ => true
  | .firmwareWrite _ _ => true
  | .calibrationWrite _ _ => true
  | .mapWrite _ _ => true
  | .profileWrite _ _ => true
  | .jobContainerWrite _ => true
  | .foeDataPacket _ packet bytes => decide (packet < 2 ^ 32) && decide (bytes.length ≤ 1012)
  | .eventlogFileRead _ => true
  | .logbundleRead _ => true
  | .identityCertRead _ => true
  | .quoteRead _ => true
  | .hello _ rx => rxWf rx
  | .close _ rx => rxWf rx
  | .keepaliveSend _ _ => true
  | .sessionTimeout _ _ => true
  | .replayReq _ rx => rxWf rx
  | .benchReq _ rx more => rxWf rx && more.all rxWf
  | .spoolBegin _ rx => rxWf rx
  | .spoolData _ rx => rxWf rx
  | .spoolAck _ _ => true
  | .uploadAborted _ _ => true
  | .readbackRequest _ rx => rxWf rx
  | .credit _ rx => rxWf rx
  | .commandRecord _ rx => rxWf rx
  | .snapshot _ rx => rxWf rx
  | .kspMalformed _ rx => rxWf rx
  | .arpRequest _ p mac sender target => tagWf p.tag && !p.fragment && decide (mac.length = 6) && decide (sender.length = 4) && decide (target.length = 4)
  | .neighbourSolicitation _ p sender target => tagWf p.tag && decide (sender.length = 16) && decide (target.length = 16)
  | .echoRequest _ p v6 sender target _ => tagWf p.tag && decide (sender.length = target.length) && decide (sender.length = if v6 then 16 else 4)
  | .linkDown _ _ => true
  | .linkUp _ _ => true
  | .syncMessage _ src _ => (decide (src < 4) || src = 0xFE)
  | .announceTimeout _ _ => true
  | .discHold _ => true
  | .syncInEdge _ _ => true
  | .tbUnlock _ => true
  | .tbHoldoverLimit _ => true
  | .tbRelock _ => true
  | .refclkLost _ => true
  | .refclkReturn _ => true
  | .encoderCount _ _ _ _ => true
  | .encWire _ _ _ => true
  | .zEdge _ _ => true
  | .zeroSpeed _ => true
  | .overspeedClear _ => true
  | .syncLost _ => true
  | .triggerRequest _ _ => true
  | .crawlLineTimeout _ => true
  | .segmentLine _ _ _ line => lineWf line
  | .segmentLineTimeout _ _ _ line => lineWf line
  | .eventRouted _ _ => true
  | .cueEdge _ _ _ => true
  | .stuckCue _ _ => true
  | .frameClose _ => true
  | .verdictPublish _ _ number => decide (number < 2 ^ 32)
  | .verdictLate _ _ number => decide (number < 2 ^ 32)
  | .slackMeasurement _ ms => ms.all fun m => decide (m.1 < 9)
  | .slackInterval _ => true
  | .vcoreLower _ => true
  | .slackSafetyNet _ => true
  | .pmbusPoll _ answer => pmbusWf answer
  | .pmbusRetry _ answer => pmbusWf answer
  | .sensorSample _ _ _ _ => true
  | .demandStepUp _ _ => true
  | .demandStepDown _ _ => true
  | .compStep _ => true
  | .bStep _ => true
  | .thermalTrip _ _ _ _ => true
  | .thermalRestart _ => true
  | .mount _ found _ => foundWf found
  | .pfailAccepted _ => true
  | .pfailSealed _ => true
  | .pfailResumed _ => true
  | .checkpoint _ => true
  | .journalFlush _ => true
  | .stripeRead _ handle data => decide (handle < 2 ^ 32) && data.blocks.all blockWf
  | .stripeBudget _ handle data _ => decide (handle < 2 ^ 32) && data.blocks.all blockWf
  | .spoolRetryDone _ handle _ _ => decide (handle < 2 ^ 32)
  | .programFailure _ _ _ => true
  | .eraseFailure _ _ _ => true
  | .archiveReclaim _ _ => true
  | .compaction _ _ => true
  | .patrolRead _ _ _ _ _ _ _ => true
  | .patrolBehind _ => true
  | .seal _ => true
  | .itemEntry _ _ => true
  | .wearAhead _ => true
  | .stagingWrite _ => true
  | .stagingRoom _ => true
  | .windowBoundary _ => true
  | .windowClose _ => true
  | .nozzleLate _ => true
  | .serialFrameWrite _ _ => true
  | .ladderCue _ _ => true
  | .ladderEnd _ => true
  | .jmp _ _ _ => true
  | .wait _ _ _ => true
  | .waitComplete _ _ _ _ kind => decide (kind < 12)
  | .setLow _ _ _ => true
  | .setHigh _ _ _ => true
  | .setToggle _ _ _ => true
  | .setRelease _ _ _ => true
  | .outputCompareFire _ _ => true
  | .ldi _ _ _ => true
  | .ldh _ _ _ => true
  | .aluMov _ _ _ => true
  | .aluAdd _ _ _ => true
  | .aluSub _ _ _ => true
  | .aluAnd _ _ _ => true
  | .aluOr _ _ _ => true
  | .aluXor _ _ _ => true
  | .aluShl _ _ _ => true
  | .aluShr _ _ _ => true
  | .aluCmp _ _ _ => true
  | .aluTst _ _ _ => true
  | .get _ _ _ => true
  | .send _ _ _ => true
  | .fetch _ _ _ => true
  | .fetchPeek _ _ _ => true
  | .shiftOut _ _ _ => true
  | .shiftIn _ _ _ => true
  | .putSh _ _ _ => true
  | .putBc _ _ _ => true
  | .evtLeading _ _ _ => true
  | .evtTrailing _ _ _ => true
  | .evtPulse _ _ _ => true
  | .ctlNop _ _ _ => true
  | .ctlHalt _ _ _ => true
  | .ctlClrsh _ _ _ => true
  | .ctlLog _ _ _ => true
  | .illegalOp _ _ _ => true
  | .watchdogPeriodClose _ => true
  | .firmwareCheckin _ _ => true
  | .resetHubAndSegments _ => true
  | .faultnReadback _ => true
  | .brownOut _ _ => true
  | .lockstepMismatch _ => true
  | .stageStall _ seg _ => (decide (seg < 8) || seg = 0xFF)
  | .dramUncorrectable _ _ _ => true
  | .stolenLine _ => true
  | .inServiceTest _ test seg unit _ => decide (1 ≤ test) && decide (test ≤ 10) && (decide (seg < 8) || seg = 0xFF) && decide (unit < 65536)
  | .coveragePassEnd _ => true
  | .coveragePassOverrun _ => true
  | .dramScrub _ _ => true
  | .mramScrub _ => true
  | .startup _ boot => boot.voutMode.all (fun v => decide (v < 256)) && boot.fuses.all fun f => fuseWf f.1 f.2.1 f.2.2.1 f.2.2.2
  | .externalReset _ => true
  | .fuseReread _ seg row low high => fuseWf seg row low high
  | .extest _ => true
  | .jobSubmit _ descriptor _ chain => decide (descriptor.length = 64) && bestEffortWf descriptor && chain.all fun d => decide (d.length = 32)
  | .inflateJobDone _ => true
  | .deflateJobDone _ => true
  | .refCommit _ handle => decide (handle < 2 ^ 32)
  | .rxpdoSample _ frame => decide (frame.bytes.length = 80)
  | .announceReceived _ _ _ _ _ => true
  | .peerDelayRequest _ _ => true
  | .keepaliveReceived _ rx => rxWf rx
  | .dataCommitted _ _ => true
  | .eraseDone _ _ => true
  | .timerTick _ _ => true
  | .critSealResume _ => true
  | .causeClears _ _ => true
  | .tapReset _ => true
  | .gateEntryStart _ _ => true
  | .bankHoldEnd _ _ => true
  | .foeUnknownName _ _ => true
  | .sm1MailboxRead _ => true

end Sys2Proof
end

