-- ==== Sys2Proof/Safety.lean ====
section
/-! DEFINITION. The terms in which claims speak of the bar: what answers a command, when the SDO server serves an object,
and the invariants of the state. -/

namespace Sys2Proof.Machine

/-! ### Answers -/

/-- A command is answered with a next state: its bar is `b` once containers in progress have followed the state of
storage (R173) and what follows every command has followed it (`Bar.after`), and the commands that wait are untouched. -/
def Answers (s : State) (c : Instr) (b : Bar) : Prop := exec c s = .next { s with bar := b.after }

/-- A command is answered with nothing but the time that has passed. -/
def PassesBy (s : State) (c : Instr) (t : Nat) : Prop := exec c s = .next { s with bar := s.bar.at t }

/-- The SDO server takes up a mailbox transaction for an object at once: the bar runs, the mailbox works, no
validation holds the server, and the object is there (R329, R333, R336). -/
def Bar.serves (b : Bar) (index : Nat) : Bool :=
  b.alive && b.ecat.al ≠ .init && b.par.armedState ≠ .validating && b.indexExists index

/-- A whole transaction has arrived over the mailbox at time t: an open segmented transfer is over. -/
def Bar.mailAt (b : Bar) (t : Nat) : Bar := { b.at t with seg := none }

/-- The SDO response goes to SM1; with an upload, the line boundary of its snapshot (R24). -/
def Bar.responds (b : Bar) (index sub abort : Nat) (value : List Byte) (line : Nat := 0) : Bar :=
  { b with sm1 := b.sm1 ++ [.sdoResponse index sub abort value line] }

/-- A mailbox SDO is aborted: its codes are held in 0x2F01, logged and answered (R338). -/
def Bar.aborts (b : Bar) (index sub abort detail : Nat) : Bar :=
  (({ b with sdoM := { b.sdoM with lastDetail := detail, lastAbort := abort, lastEntry := entryName index sub } } : Bar).logEvent
    detail (entryName index sub)).responds index sub abort []

/-! ### Carousel steps -/

/-- The bar at a channel's step: the time is t and the pin stage has sampled the levels lv (R358, R366). -/
def Bar.stepAt (b : Bar) (t : Nat) (lv : Word64) : Bar := (b.at t).samplePins lv (b.at t).now

/-- Channel k executes instruction i in its step: its engine runs, the channel is active, it is its turn, the word at its PC
decodes to i, and it does not sit in a WAIT that has begun (R358, R361). -/
def Bar.executes (b : Bar) (k : Fin 64) (i : CInstr) : Bool :=
  b.canStep k && decodeCarousel (b.fetched k) = some i && !(b.chan k).inWait i

/-- The command that runs an ALU instruction. -/
def AluOp.command (op : AluOp) (t : Nat) (k : Fin 64) (lv : Word64) : Instr :=
  match op with
  | .mov => .aluMov t k lv | .add => .aluAdd t k lv | .sub => .aluSub t k lv | .and => .aluAnd t k lv | .or => .aluOr t k lv
  | .xor => .aluXor t k lv | .shl => .aluShl t k lv | .shr => .aluShr t k lv | .cmp => .aluCmp t k lv | .tst => .aluTst t k lv

/-- The command that runs a SET instruction. -/
def PinAction.command (a : PinAction) (t : Nat) (k : Fin 64) (lv : Word64) : Instr :=
  match a with
  | .low => .setLow t k lv | .high => .setHigh t k lv | .toggle => .setToggle t k lv | .release => .setRelease t k lv

/-- The command that runs an EVT instruction. -/
def eventCommand (kind : EventKind) (t : Nat) (k : Fin 64) (lv : Word64) : Instr :=
  match kind with
  | .leading => .evtLeading t k lv | .trailing => .evtTrailing t k lv | .pulse => .evtPulse t k lv

/-- A channel goes on to the next word of its engine's program (R359: PC wraps from 0xFF to 0x00). -/
def ChannelState.goesOn (c : ChannelState) : ChannelState := { c with pc := (c.pc + 1) % 256, busy := .ready }

/-! ### Invariants -/

/-- The safe state of the bar as a whole (R417): FAULT_N low, and no announced item without a published verdict. -/
def Bar.safeState (b : Bar) : Bool := !b.faultHigh && b.cap.items.all (·.published)

/-- Every command that waits is well formed. -/
def State.queueWf (s : State) : Bool := s.pending.all Instr.wf

/-- The segment count is one the feature word can hold (R1, R448). -/
def Bar.segsWf (b : Bar) : Bool := b.segs = 2 || b.segs = 4 || b.segs = 6 || b.segs = 8

/-- The parameter copies are in canonical form. -/
def Params.wf (p : Params) : Bool := p.staged.wf && p.armed.wf && p.live.wf && p.rw.wf

/-- The event log holds at most its ring (R352). -/
def EventLog.wf (l : EventLog) : Bool := decide (l.entries.length ≤ logSize)

/-- The request of FAULT_N that is held is the one that R424 gives for this state. -/
def Bar.faultNoted (b : Bar) : Bool := b.saf.faultWas = b.faultHigh

/-- A run is safe: it has not ended in a fault. -/
def safeStep (s : State) : Bool := match step s with | .fault _ => false | _ => true

end Sys2Proof.Machine
end

