-- ==== Sys2Proof/Certificates/Slice0/Obligations.lean ====
section
/-! DEFINITION. The statements for the provers: one definition per obligation, in the order of OBLIGATIONS.json. -/

open Sys2Proof Sys2Proof.Machine

/-- The step of the block: the front command on the state with the queue's rest. On an empty queue time passes (the
model's choice, log entry 2). -/
def Obligations.StepTakesTheFront : Prop :=
  (∀ (c : Instr) (rest : List Instr) (s : State), s.pending = c :: rest → step s = exec c { s with pending := rest }) ∧
  (∀ s : State, s.pending = [] →
    step s = .next { s with bar := { s.bar with now := s.bar.now + (if s.bar.cap.tb.mode = .pll then 1 else 40) } })

/-- First in, first out: no command adds to, drops or reorders the commands that wait, and no command is refused. -/
def Obligations.StepKeepsTheQueue : Prop :=
  (∀ s s' : State, s.queueWf = true → step s = .next s' → s'.pending = s.pending.tail ∧ s'.queueWf = true) ∧
  (∀ (c : Instr) (s : State), (∃ s', exec c s = .next s') ∨
    (exec c s = .fault .absentSegment ∧ ∃ (t : Nat) (seg : Fin 8) (n : Nat) (line : SegLine),
      s.bar.segs ≤ seg.val ∧ (c = .segmentLine t seg n line ∨ c = .segmentLineTimeout t seg n line)))

/-- The invariants hold at reset. The segment count 8 is the model's choice (log entry 4). Values the spec gives for reset, one clause per kind of state. -/
def Obligations.ResetState : Prop :=
  (State.reset.pending = [] ∧ State.reset.queueWf = true ∧ State.reset.bar.segsWf = true ∧ State.reset.bar.par.wf = true ∧
  State.reset.bar.log.wf = true) ∧
  (let b := State.reset.bar
  (b.ecat.al = .init ∧ b.ecat.alError = false ∧ b.ecat.alCode = 0 ∧ b.ecat.session = false ∧ b.ecat.vq = []) ∧
  (b.par.armedState = .empty ∧ b.par.liveGen = 0 ∧ b.par.armedGen = 0 ∧ b.par.lastApply = 0 ∧ b.par.refused = 0) ∧
  (∀ e : Fin 4, (b.engine e).state = .halted ∧ ∀ i : Fin 256, (b.engine e).program[i] = 0) ∧
  (∀ k : Fin 64, (b.chan k).active = false ∧ (b.chan k).cq = [] ∧ (b.chan k).rq = [] ∧ (b.io.pins[k]).drive = .released) ∧
  (∀ i : Fin 16, (b.io.timers[i]).running = false) ∧ (∀ p : Fin 2, b.io.pos[p] = 0) ∧
  b.cap.syn.state = .stopped ∧ b.saf.sn.engaged = false ∧ b.faultHigh = false ∧ b.saf.faultWas = false ∧ b.faultNoted = true ∧
  -- STATUS with FAULT set (Table 11-8), SPEED_ADVICE 0xFFFF, every other field of Table 11-7 0
  b.ecat.tx = [8, 0, 0, 0, 0, 0, 0, 0xFFFF] ++ List.replicate 16 0 ∧ (b.ecat.tx.getD 0 0).testBit 3 = true ∧
  b.ecat.txImage = txBytes b.ecat.tx ∧ b.ecat.rx = List.replicate 10 0)

/-- R329, R408, R409, R444, R490, R495: the commands that act on a bar in reset or shutdown, which is log entry 32's reading; every other
one leaves the bar at some later time. SEGMENT_LINE and SEGMENT_LINE_TIMEOUT name a segment the part has. -/
def Obligations.OnlySomeCommandsWakeAHeldBar : Prop :=
  ∀ (s : State) (c : Instr), s.bar.alive = false →
    (∃ t : Nat, PassesBy s c t) ∨
    (s.bar.saf.power = .reset ∧ ∃ t : Nat,
      (∃ m, c = .alRequestPreop t m) ∨ (∃ a b x, c = .alRequestSafeop t a b x) ∨ c = .alRequestOp t ∨ c = .alRequestInit t ∨
      (∃ x, c = .alRequestBoot t x)) ∨
    (s.bar.saf.power = .shutdown ∧ ∃ t : Nat,
      (∃ i r f, c = .sensorSample t i r f) ∨ c = .thermalRestart t) ∨
    (∃ t : Nat, (∃ i p o, c = .thermalTrip t i p o) ∨ (∃ x, c = .startup t x) ∨ (∃ l w, c = .externalReset ⟨t, l, w⟩) ∨ (∃ r, c = .brownOut t r) ∨ c = .extest t ∨ c = .tapReset t) ∨
    (∃ (t : Nat) (seg : Fin 8) (n : Nat) (line : SegLine), s.bar.segs ≤ seg.val ∧
      (c = .segmentLine t seg n line ∨ c = .segmentLineTimeout t seg n line))

/-- R1, R4, R162: segment commands and the segments a part has. That the command of an absent segment ends in the fault absentSegment is
log entry 31's choice. -/
def Obligations.AbsentSegmentsRaiseNothing : Prop :=
  ∀ (s : State) (t n : Nat) (seg : Fin 8) (line : SegLine),
    (s.bar.segs ≤ seg.val → exec (.segmentLine t seg n line) s = .fault .absentSegment ∧
      exec (.segmentLineTimeout t seg n line) s = .fault .absentSegment) ∧
    (seg.val < s.bar.segs → s.bar.alive = true →
      Answers s (.segmentLine t seg n line) ((s.bar.at t).segmentLine seg n line) ∧
      Answers s (.segmentLineTimeout t seg n line) ((s.bar.at t).segmentLineTimeout seg n line))

/-- R36, R42: steps 1 and 2 of an ARM. R41: DISARM over the mailbox. R40 (with R346 for the status bits): the apply-line command. The code 0x0106 without a set ARMED in LINE mode is log entry 15's choice. R339, R340: the two signature commands. -/
def Obligations.ParameterCommands : Prop :=
  (((∀ (s : State) (t : Nat), s.bar.serves 0x2010 = true →
    let b := s.bar.mailAt t
    (b.par.armedState = .armed → Answers s (.arm t)
      (({ b with par := { b.par with refused := 0 } } : Bar).aborts 0x2010 1 0x08000022 0x0101)) ∧
    (b.par.armedState = .empty → ∀ (key : Nat) (codes : List Nat), firstFailing b.checks = some (key, codes) →
      ∃ (b' : Bar) (abort detail : Nat), Answers s (.arm t) b' ∧ abort ≠ 0 ∧ b'.par = { b.par with refused := key * 256 } ∧
        b'.sdoM.lastAbort = abort ∧ b'.sdoM.lastDetail = detail ∧ b'.sdoM.lastEntry = 0x20100100 ∧
        (detail = 0x0104 ∨ detail = 0x0108)) ∧
    (b.par.armedState = .empty → firstFailing b.checks = none → (b.admission b.par.staged).failing ≠ 0 →
      ∃ b' : Bar, Answers s (.arm t) b' ∧ b'.par = { b.par with refused := 0 } ∧ b'.sdoM.lastAbort = 0x08000020 ∧
        b'.sdoM.lastDetail = 0x0105 ∧ b'.sdoM.lastEntry = 0x20100100) ∧
    (b.par.armedState = .empty → firstFailing b.checks = none → (b.admission b.par.staged).failing = 0 →
      ∃ b' : Bar, Answers s (.arm t) b' ∧ b'.par = { b.par with armedState := .validating, armRequest := some (mailRequest .download 0x2010 1 (leBytes 1 1)) }
        ∧ b'.sm1 = b.sm1)) ∧
  (∀ (s : State) (t : Nat), s.bar.serves 0x2010 = true →
    let b := s.bar.mailAt t
    (b.par.armedState = .armed → b.applyDue b.lines = false → Answers s (.disarm t)
      (({ b with par := { b.par with armed := [], armedState := .empty, armedGen := 0 } } : Bar).responds 0x2010 1 0 [])) ∧
    (b.par.armedState = .armed → b.applyDue b.lines = true → ∃ b' : Bar, b'.par.armedState = .empty ∧
      ((Answers s (.disarm t) (b'.responds 0x2010 1 0 []) ∧ b'.par.live = b.par.live) ∨
       (Answers s (.disarm t) (b'.aborts 0x2010 1 0x08000022 0x0107) ∧ b'.par.live = b.par.armed))) ∧
    (b.par.armedState = .empty → Answers s (.disarm t) (b.aborts 0x2010 1 0x08000022 0x0106)))) ∧
  (∀ (s : State) (t : Nat), s.bar.alive = true →
    let b := s.bar.at t
    let line := b.ecat.rx.getD 5 0
    let n := b.ecat.sampleLine
    let served (refused : Bool) : Ecat :=
      { b.ecat with applyPend := false, applyEchoNext := bit (b.ecat.rx.getD 0 0) 1, applyRefusedNext := refused }
    let armed : Prop := b.par.armedState = .armed ∧ b.par.armedMode = 1
    (b.ecat.applyPend = true → armed → n + 64 ≤ line → line ≤ n + 2 ^ 31 →
      Answers s (.applyLineCommand t) { b with ecat := served false, par := { b.par with armedLine := line } }) ∧
    (b.ecat.applyPend = true → armed → line < n + 64 →
      Answers s (.applyLineCommand t) (({ b with ecat := served true } : Bar).logEvent 0x0102 0)) ∧
    (b.ecat.applyPend = true → armed → n + 2 ^ 31 < line →
      Answers s (.applyLineCommand t) (({ b with ecat := served true } : Bar).logEvent 0x0103 0)) ∧
    (b.ecat.applyPend = true → ¬armed → Answers s (.applyLineCommand t) (({ b with ecat := served true } : Bar).logEvent 0x0106 0)) ∧
    (b.ecat.applyPend = false → Answers s (.applyLineCommand t) b) ∧
    (∀ c : Bar, (c.ecat.al = .safeop ∨ c.ecat.al = .op) → c.txLatch.ecat.applyRefused = c.ecat.applyRefusedNext ∧
      (c.txLatch.ecat.tx.getD 0 0).testBit 5 = c.ecat.applyRefusedNext ∧ c.txLatch.ecat.applyEcho = c.ecat.applyEchoNext ∧
      (c.txLatch.ecat.tx.getD 0 0).testBit 4 = c.ecat.applyEchoNext))) ∧
  ((∀ (s : State) (t : Nat), s.bar.alive = true →
    exec (.store t) s = .next { s with bar := ((s.bar.at t).sdoFrame (.request (mailRequest .download 0x1010 1 (leBytes 4 0x65766173)))).after } ∧
    exec (.restore t) s = .next { s with bar := ((s.bar.at t).sdoFrame (.request (mailRequest .download 0x1011 1 (leBytes 4 0x64616F6C)))).after }) ∧
  (∀ (s : State) (t : Nat), s.bar.serves 0x1010 = true →
    ∃ p : Persist, exec (.store t) s = .next { s with bar := (({ s.bar.mailAt t with persist := p } : Bar).responds 0x1010 1 0 []).after } ∧
      p.restoreMark = false ∧ p.state = s.bar.persist.state ∧
      (let image : ParamImage := ⟨s.bar.persistedValues, s.bar.persist.stores + 1, true⟩
       (p.anchor = 0 ∧ p.image0 = some image ∧ p.image1 = s.bar.persist.image1) ∨
       (p.anchor = 1 ∧ p.image1 = some image ∧ p.image0 = s.bar.persist.image0)) ∧
      (s.bar.persist.anchor = 0 → s.bar.persist.image0.isSome = true → p.image0 = s.bar.persist.image0) ∧
      (s.bar.persist.anchor ≠ 0 → p.image1 = s.bar.persist.image1) ∧
      (s.bar.par.wf = true → s.bar.persistedValues.wf = true)) ∧
  (∀ (st : Store) (key : Nat) (v : Val), st.wf = true → (st.put key v).wf = true ∧ (st.put key v).find key = some v ∧
    ∀ k, k ≠ key → (st.put key v).find k = st.find k) ∧
  (∀ (s : State) (t : Nat), s.bar.serves 0x1011 = true → exec (.restore t) s = .next { s with bar :=
    (({ s.bar.mailAt t with persist := { s.bar.persist with restoreMark := true } } : Bar).responds 0x1011 1 0 []).after }))

/-- R36 to R38, R43: COPY_TO_ARMED of an ARM that came over the mailbox, with no transaction waiting behind it. -/
def Obligations.CopyToArmedTakesTheSet : Prop :=
  ∀ (s : State) (t : Nat) (r : SdoRequest), s.bar.alive = true → s.bar.par.armedState = .validating →
    s.bar.par.armRequest = some r → s.bar.par.waiting = [] → s.bar.ecat.safeopWaiting = none → r.ch = .mailbox →
    r.index = 0x2010 → r.sub = 1 →
    let b := s.bar.at t
    let line := b.rwN 0x2010 3
    let mode := b.rwN 0x2010 2
    let dropped (p : Params) : Params := { p with armRequest := none, armedState := .empty, waiting := [] }
    (b.ecat.session = true → mode = 1 → line < b.liveLine + 64 → Answers s (.copyToArmed t)
      (({ b with par := { dropped b.par with refused := 0x20100300 } } : Bar).aborts 0x2010 1 0x06090030 0x0102)) ∧
    (b.ecat.session = true → mode = 1 → b.liveLine + 2 ^ 31 < line → Answers s (.copyToArmed t)
      (({ b with par := { dropped b.par with refused := 0x20100300 } } : Bar).aborts 0x2010 1 0x06090030 0x0103)) ∧
    (b.ecat.session = true → (mode = 1 → b.liveLine + 64 ≤ line ∧ line ≤ b.liveLine + 2 ^ 31) → Answers s (.copyToArmed t)
      (({ b with par := { dropped b.par with
          armed := b.par.staged, armedState := .armed, armedMode := mode, armedLine := line, armedLane := b.rwN 0x2010 4
          armedAt := b.liveLine, armedGen := if b.par.liveGen = 0xFFFF then 1 else b.par.liveGen + 1 } } : Bar).responds 0x2010 1 0 [])) ∧
    (b.ecat.session = false → ∃ b' : Bar, Answers s (.copyToArmed t) b' ∧ b'.par.live = b.par.staged ∧ b'.par.staged = b.par.staged ∧
      b'.par.armedState = .empty ∧ b'.par.liveGen = (if b.par.liveGen = 0xFFFF then 1 else b.par.liveGen + 1))

/-- R34, R38: when an armed set becomes live, and what that leaves of object 0x2010. -/
def Obligations.ArmedSetGoesLiveAtItsPoint : Prop :=
  ∀ (s : State) (t : Nat), s.bar.alive = true →
    let b := s.bar.at t
    let n := b.lines
    let reached : Prop := match b.par.armedMode with
      | 0 => ∃ k, b.par.armedAt + 64 ≤ 4096 * k ∧ 4096 * k ≤ n
      | 1 => b.par.armedLine ≤ n
      | _ => ∃ i ∈ b.cap.items, i.lane = b.par.armedLane ∧ i.matched = true ∧
          (i.started = true ∨ i.published = false) ∧ b.par.armedAt + 64 ≤ i.s ∧ i.s ≤ n
    (b.par.armedState = .armed → b.ecat.session = true → reached → ∃ b' : Bar, Answers s (.applyPoint t) b' ∧
      b'.par.live = b.par.armed ∧ b'.par.staged = b.par.staged ∧ b'.par.armedState = .empty ∧ b'.par.armedGen = 0 ∧
      b'.par.lastApply = n ∧ b'.par.liveGen = (if b.par.liveGen = 0xFFFF then 1 else b.par.liveGen + 1)) ∧
    (b.par.armedState ≠ .armed ∨ b.ecat.session = false ∨ ¬reached → Answers s (.applyPoint t) b)

/-- R327, R329, R332, R375, R393, R433, R439, Table 11-2: the state machine of the slave. -/
def Obligations.SlaveStateChanges : Prop :=
  ∀ (s : State) (t : Nat), s.bar.alive = true ∨ s.bar.saf.power = .reset →
    let b := s.bar.at t
    let refusal (code : Nat) : Bar :=
      ({ b with ecat := { b.ecat with alError := true, alCode := code, safeopWaiting := none } } : Bar).logEvent 0x0040 code
    let entered (dest : AlState) : Bar :=
      { b with ecat := { b.ecat with al := dest, alError := false, alCode := 0, safeopWaiting := none } }
    (b.ecat.al = .init → Answers s (.alRequestPreop t false) (refusal 0x16)) ∧
    (b.ecat.al = .init → b.saf.power = .reset → Answers s (.alRequestPreop t true) (refusal 0x8002)) ∧
    (b.ecat.al = .init → b.saf.power ≠ .reset → b.ecat.preopReached = true →
      Answers s (.alRequestPreop t true) ((entered .preop).logEvent 0x0046 0x0102)) ∧
    (b.ecat.al = .init → b.saf.power ≠ .reset → b.ecat.preopReached = false → b.sec.recovery = false → ∃ b' : Bar,
      Answers s (.alRequestPreop t true) b' ∧ b'.ecat.al = .preop ∧ b'.ecat.preopReached = true ∧ b'.saf.ret.running = true ∧ b'.par = b.par ∧
      (b.saf.wdg.started = false → b'.saf.wdg.started = true ∧ b'.saf.wdg.k = 0 ∧ b'.saf.wdg.tk = b.now ∧ b'.saf.wdg.inForce = b.wdgSettings) ∧
      (∀ e : Fin 4, (b.engine e).state = .halted → (b'.engine e).state = if b.rwN (0x2A00 + e.val) 3 = 1 then .running else .halted) ∧
      (∀ i : Fin 16, bit (b.tmrCtl i.val) 1 = true → b.tmrHead i = i → b.tmrPreset i.val ≤ b.tmrPer i.val → (b'.io.timers[i]).running = true)) ∧
    (b.ecat.al = .op → ∀ (sm2 sm3 : Nat) (sync0 : Bool) (pdTime : Option Nat), Answers s (.alRequestSafeop t sm2 sm3 ⟨sync0, pdTime⟩)
      (({ b with ecat := { b.ecat with pdTime := pdTime.getD b.ecat.pdTime, al := .safeop, alError := false, alCode := 0
                                       safeopWaiting := none, rxSeen := false } } : Bar).logEvent 0x0046 0x0804)) ∧
    (b.ecat.al = .safeop → b.ecat.rxSeen = true → Answers s (.alRequestOp t) ((entered .op).logEvent 0x0046 0x0408)) ∧
    (b.ecat.al = .safeop → b.ecat.rxSeen = false → Answers s (.alRequestOp t) (refusal 0x1B)) ∧
    (b.ecat.al = .init ∨ b.ecat.al = .preop → Answers s (.alRequestOp t) (refusal 0x11)) ∧
    Answers s (.alRequestBoot t true) (refusal 0x13) ∧ Answers s (.alRequestBoot t false) (refusal 0x12)

/-- R329, R26, R332: the request for SAFE-OP. The order of the checks is Table 11-2's; its place for recovery mode and the host
window is the model's (log entry 18). -/
def Obligations.SafeopIsCheckedInOrder : Prop :=
  ∀ (s : State) (t sm2 sm3 : Nat) (sync0 : Bool) (pdTime : Option Nat), s.bar.alive = true → s.bar.ecat.al = .preop → s.bar.par.armedState ≠ .validating →
    let b := ((s.bar.at t).modEcat fun e => { e with pdTime := pdTime.getD e.pdTime }).modCap fun c => { c with tb := { c.tb with sync0 := sync0 } }
    let cycle := b.rwN 0x1C32 2
    let window := b.wdgSettings.hc - b.wdgSettings.ho
    let code : Nat :=
      if sm2 ≠ 80 then 0x1D else if sm3 ≠ 168 then 0x1E else if b.rwN 0x1C32 1 = 2 ∧ sync0 = false then 0x30
      else if cycle < 62500 ∨ 4000000 < cycle then 0x35 else if b.sec.recovery = true then 0x8004
      else if b.dlv.admState ≠ 1 then 0x8001 else if window < 2 * cycle then 0x8003 else 0
    (code ≠ 0 → ∃ b' : Bar, Answers s (.alRequestSafeop t sm2 sm3 ⟨sync0, pdTime⟩) b' ∧ b'.ecat = { b.ecat with alError := true, alCode := code, safeopWaiting := none }
      ∧ b'.par = b.par ∧ b'.cap = b.cap ∧ b'.sto = b.sto) ∧
    (code = 0 → ∃ b' : Bar, Answers s (.alRequestSafeop t sm2 sm3 ⟨sync0, pdTime⟩) b' ∧ b'.ecat.al = .safeop ∧ b'.ecat.session = true ∧
      b'.ecat.pdTime = b.ecat.pdTime ∧
      b'.ecat.rxSeen = false ∧ b'.ecat.vq = [] ∧ b'.ecat.vqNext = 0 ∧ b'.lines = 0 ∧ b'.cap.items = [] ∧ b'.cap.nextSeq = 0 ∧
      b'.sto.session = (b.sto.session + 1) % 2 ^ 32 ∧ b'.par.live = b.par.live ∧ b'.par.liveGen = b.par.liveGen)

/-- R329, R331, R43: the ways down to PRE-OP and to INIT. -/
def Obligations.LeavingASessionPublishesEverything : Prop :=
  (∀ (s : State) (t : Nat) (mail : Bool), s.bar.alive = true → (s.bar.ecat.al = .safeop ∨ s.bar.ecat.al = .op) → s.bar.ecat.session = true →
    ∃ b' : Bar, Answers s (.alRequestPreop t mail) b' ∧ b'.ecat.al = .preop ∧ b'.ecat.alError = false ∧ b'.ecat.alCode = 0 ∧
      b'.ecat.session = false ∧ (∀ i ∈ b'.cap.items, i.published = true) ∧
      (s.bar.par.armedState = .armed → b'.par.armedState = .empty ∧ b'.par.armedGen = 0) ∧
      (s.bar.par.armedState = .validating → b'.par.armedState = .validating ∧ b'.par.armRequest = s.bar.par.armRequest) ∧
      (b'.log.entries.head?.map fun e => (e.code, e.arg)) = some (0x0046, (if s.bar.ecat.al = .op then 8 else 4) * 256 + 2)) ∧
  ∀ (s : State) (t : Nat), s.bar.alive = true → ∃ (b' : Bar) (ws : List SdoRequest), Answers s (.alRequestInit t) (b'.drain ws) ∧
    (∀ r ∈ ws, r.ch = .bench) ∧ (s.bar.par.waiting = [] → s.bar.ecat.al = .preop → s.bar.par.armedState ≠ .validating → ws = []) ∧
    b'.ecat.al = .init ∧ b'.ecat.alError = false ∧ b'.ecat.alCode = 0 ∧ b'.seg = none ∧ b'.foe = none ∧
    (s.bar.ecat.al ≠ .preop → s.bar.ecat.session = true → b'.ecat.session = false ∧ (∀ i ∈ b'.cap.items, i.published = true) ∧
      (s.bar.par.armedState = .armed → b'.par.armedState = .empty ∧ b'.par.armedGen = 0))

/-- R345, steps 1 to 4, on the queue of the slave; R342 for what else a latch changes. R328, R332, R342, R343, R426: what a sample leaves, when nothing of the previous cycle is left to be taken. -/
def Obligations.ProcessDataAtLatchAndSample : Prop :=
  ((∀ e : Ecat, e.vackEn = false → e.takeVack = e) ∧
  (∀ e : Ecat, e.vackEn = true →
    let d := (e.vack + 65536 - e.vqBase) % 65536
    let far := (e.vqP + 65536 - e.vqBase) % 65536
    (far < d → e.takeVack = { e with vackIgnored := min 0xFFFFFFFF (e.vackIgnored + 1) }) ∧
    (d ≤ far → e.takeVack.vqBase = e.vack ∧ e.takeVack.vqP = e.vqP ∧
      ∀ x, x ∈ e.takeVack.vq ↔ x ∈ e.vq ∧ d ≤ (x.1 + 65536 - e.vqBase) % 65536)) ∧
  (∀ e : Ecat, e.presented = (e.vq.filter fun x => decide ((x.1 + 65536 - e.vqP) % 65536 < 256)).take 8 ∧
    (e.vackEn = true → e.present.vq = e.vq.map fun x => if x.1 ∈ e.presented.map (·.1) then (x.1, x.2.1, some e.latches) else x)) ∧
  (∀ e : Ecat, e.presented.length ≤ 8 ∧ e.present.vqP = (e.vqP + e.presented.length) % 65536 ∧
    (e.vackEn = false → e.presented.map (fun x => e.ahead x.1) = List.range e.presented.length →
      ∀ x ∈ e.presented, x.1 ∉ e.present.vq.map (·.1))) ∧
  (∀ (s : State) (t : Nat), s.bar.alive = true → exec (.txpdoLatch t) s = .next { s with bar := (s.bar.at t).txLatch.after }) ∧
  (∀ (s : State) (t : Nat), s.bar.alive = true → (s.bar.ecat.al = .safeop ∨ s.bar.ecat.al = .op) →
    let x := s.bar.ecat
    let q := ({ x with latches := x.latches + 1, applyEcho := x.applyEchoNext, applyRefused := x.applyRefusedNext } : Ecat).takeVack
    let again : Bool := q.vackEn && match q.vq.head? with
      | some (v, _, some shownAt) => decide (v = q.vqBase) && decide (shownAt + 4 ≤ q.latches)
      | _ => false
    let p : Ecat := if again = true then { q with vqP := q.vqBase } else q
    ∃ (e : Ecat), exec (.txpdoLatch t) s = .next { s with bar := ({ s.bar.at t with ecat := e } : Bar).after } ∧ e.txImage = txBytes e.tx ∧
      e = { p.present with tx := e.tx, txImage := e.txImage } ∧ e.tx.length = 24 ∧ (e.tx.getD 0 0).testBit 6 = again ∧
      e.tx.getD 1 0 = p.vqP ∧ e.tx.getD 2 0 = p.presented.length ∧
      (∀ j : Nat, j < 8 → e.tx.getD (16 + j) 0 = (p.presented.map fun y => y.2.1).getD j 0) ∧
      e.al = s.bar.ecat.al ∧ e.latches = s.bar.ecat.latches + 1 ∧
      e.tx.getD 5 0 = (s.bar.at t).now ∧ e.tx.getD 4 0 = (s.bar.at t).liveLine ∧ e.tx.getD 12 0 = s.bar.par.liveGen) ∧
  (∀ (s : State) (t : Nat), s.bar.alive = true → (s.bar.ecat.al = .init ∨ s.bar.ecat.al = .preop) →
    exec (.txpdoLatch t) s = .next { s with bar := (s.bar.at t).after })) ∧
  ((∀ (s : State) (t written : Nat) (bytes : List Byte), s.bar.alive = true → (s.bar.ecat.al = .init ∨ s.bar.ecat.al = .preop) →
    Answers s (.rxpdoSample t ⟨bytes, written⟩) (s.bar.at t)) ∧
  (∀ (s : State) (t written : Nat) (bytes : List Byte), s.bar.alive = true → (s.bar.ecat.al = .safeop ∨ s.bar.ecat.al = .op) →
    s.bar.ecat.annSlot = 4 → s.bar.ecat.checkin6 = false → s.bar.ecat.checkin7 = false → s.bar.ecat.applyPend = false →
    s.bar.ecat.releasePend = false →
    let b := s.bar.at t
    let image := leNat (bytes.take 80)
    let field (lo w : Nat) : Nat := image / 2 ^ lo % 2 ^ w
    ∃ b' : Bar, Answers s (.rxpdoSample t ⟨bytes, written⟩) b' ∧ b'.par = b.par ∧ b'.cap = b.cap ∧ b'.io = b.io ∧
      b'.ecat.rx = [field 0 16, field 16 16, field 32 8, field 40 8, field 48 16, field 64 64, field 128 128, field 256 128,
        field 384 128, field 512 128] ∧
      b'.ecat.rxSeen = true ∧ b'.ecat.sampleTime = b.now ∧ b'.ecat.pdAt = max b.ecat.pdAt (min written b.now) ∧ b'.ecat.sampleLine = b.liveLine ∧ b'.ecat.vack = field 48 16 ∧
      b'.ecat.vackEn = image.testBit 0 ∧ b'.ecat.cycles = (b.ecat.cycles + 1) % 2 ^ 32 ∧
      (let scan : Nat × Bool × Bool := (List.range 4).foldl (fun x k =>   -- ANN_TAKEN so far, has the scan stopped, at a slot ahead?
         let d := (x.1 + 65536 - (field 16 16 + k) % 65536) % 65536
         if x.2.1 then x else if field (192 + 128 * k) 24 = 0 then (x.1, true, false)
         else if d = 0 then ((x.1 + 1) % 65536, false, false) else if d ≤ 32768 then x else (x.1, true, true)) (b.ecat.annTaken, false, false)
       b'.ecat.annGap = scan.2.2 ∧ b'.ecat.annGaps = if scan.2.2 then min 0xFFFFFFFF (b.ecat.annGaps + 1) else b.ecat.annGaps) ∧
      b'.ecat.ctrlReserved = decide (8 ≤ field 0 16) ∧
      b'.ecat.ctrlCycles = (if 8 ≤ field 0 16 then min 0xFFFFFFFF (b.ecat.ctrlCycles + 1) else b.ecat.ctrlCycles)) ∧
  (∀ (s : State) (t : Nat), s.bar.alive = true → 4 ≤ s.bar.ecat.annSlot → Answers s (.announcement t) (s.bar.at t).snRelease) ∧
  (∀ (s : State) (t : Nat), s.bar.alive = true → s.bar.ecat.annSlot < 4 →
    let b := (s.bar.at t).snRelease
    let e := b.ecat
    let slot := e.rx.getD (6 + e.annSlot) 0
    let number := (e.rx.getD 1 0 + e.annSlot) % 65536
    let behind := (e.annTaken + 65536 - number) % 65536
    (slot / 2 ^ 64 % 2 ^ 24 = 0 → Answers s (.announcement t) { b with ecat := { e with annSlot := 4 } }) ∧
    (32768 < behind → Answers s (.announcement t) { b with ecat := { e with annSlot := 4 } }) ∧
    (slot / 2 ^ 64 % 2 ^ 24 ≠ 0 → 0 < behind → behind ≤ 32768 → s.bar.ecat.releasePend = false →
      exec (.announcement t) s = exec (.announcement t) { s with bar := { s.bar with ecat := { s.bar.ecat with annSlot := e.annSlot + 1 } } }) ∧
    (slot / 2 ^ 64 % 2 ^ 24 ≠ 0 → number = e.annTaken → e.annTaken < 65536 → Answers s (.announcement t)
      (({ b with ecat := { e with
        annSlot := e.annSlot + 1, annTaken := (e.annTaken + 1) % 65536, annCount := (e.annCount + 1) % 2 ^ 32 } } : Bar).takeAnnouncement slot e.sampleTime))))

/-- R352: an entry is written. R352: the read pointer. -/
def Obligations.LogRingAndItsReadPointer : Prop :=
  (∀ (b : Bar) (code arg sev : Nat), b.log.entries.length ≤ 16384 →
    let b' := b.logAt code arg sev
    ∃ x : LogEntry, b'.log.entries = x :: b.log.entries.take 16383 ∧ x.time = b.now ∧ x.code = code ∧ x.arg = arg ∧ x.severity = sev ∧
      x.number = b.log.next ∧ x.line = (if b.ecat.session then b.lines - 1 else 0) ∧
      b'.log.next = b.log.next + 1 ∧ b'.log.entries.length ≤ 16384 ∧
      b'.log.overwritten = (if b.log.entries.length = 16384 then min 0xFFFFFFFF (b.log.overwritten + 1) else b.log.overwritten) ∧
      b'.par = b.par ∧ b'.ecat = b.ecat ∧ b'.io = b.io ∧ b'.cap = b.cap ∧ b'.saf = b.saf ∧ b'.sto = b.sto) ∧
  (∀ (s : State) (t : Nat), s.bar.serves 0x2F00 = true → s.bar.log.entries.length ≤ s.bar.log.next →
    let b := s.bar.mailAt t
    let p := max b.sdoM.logPtr (b.log.next - b.log.entries.length)
    (∀ x : LogEntry, p < b.log.next → b.log.entries[b.log.next - 1 - p]? = some x → Answers s (.eventLogRead t)
      (({ b with sdoM := { b.sdoM with logPtr := p + 1 } } : Bar).responds 0x2F00 4 0 x.bytes
        (if b.ecat.session then b.cap.snapAt else b.lines))) ∧
    (b.log.next ≤ p → Answers s (.eventLogRead t)
      (({ b with sdoM := { b.sdoM with logPtr := p } } : Bar).aborts 0x2F00 4 0x08000020 0xF001)))

/-- R353: the Emergency queue of 16 with one place reserved for engagement. -/
def Obligations.EmergenciesFollowSeverity : Prop :=
  ∀ (b : Bar) (code arg sev : Nat) (reserved : Bool),
    let b' := b.logWith code arg sev reserved false
    let message := leBytes 2 (if 0xC000 ≤ code ∧ code ≤ 0xCFFF then 0x4200 else 0xFF00) ++ leBytes 1 b.errorRegister ++ leBytes 2 code
      ++ leBytes 3 b.log.next
    (sev < 2 → b'.sm1 = b.sm1 ∧ b'.log.emergDropped = b.log.emergDropped ∧
      (b'.log.entries.head?.map fun x => (x.sent, x.dropped)) = some (false, false)) ∧
    (2 ≤ sev → emergenciesWaiting b.sm1 < 15 ∨ reserved = true → b'.sm1 = b.sm1 ++ [.emergency message] ∧
      b'.log.emergDropped = b.log.emergDropped ∧ (b'.log.entries.head?.map fun x => (x.sent, x.dropped)) = some (true, false)) ∧
    (2 ≤ sev → 15 ≤ emergenciesWaiting b.sm1 → reserved = false → b'.sm1 = b.sm1 ∧
      b'.log.emergDropped = min 0xFFFFFFFF (b.log.emergDropped + 1) ∧
      (b'.log.entries.head?.map fun x => (x.sent, x.dropped)) = some (false, true))

/-- R327, R332, R333, R335, R338, R349, R497: transfers and what the mailbox does beside them. The layout of the description's error is
log entry 11's (PRESUMED), the next data packet at the read of SM1 log entry 159's choice, the open transfer that a new request ends log
entry 164's reading. -/
def Obligations.SdoServerAnswersAndAborts : Prop :=
  (∀ (s : State) (t index sub : Nat), s.bar.alive = true →
    let b := s.bar.at t
    let m := s.bar.mailAt t
    (b.ecat.al = .init → ∀ f : SdoFrame, Answers s (.sdoDownload t f) b) ∧
    (b.ecat.al ≠ .init → Answers s (.sdoDownload t (.segment index sub)) { b with seg := some ⟨index, sub, b.now⟩ }) ∧
    (b.ecat.al ≠ .init → Answers s (.sdoDownload t (.toggleError index sub)) (m.aborts index sub 0x05030000 0x0016)) ∧
    (b.ecat.al ≠ .init → Answers s (.sdoDownload t (.unknownCommand index sub)) (m.aborts index sub 0x05040001 0x0016)) ∧
    (b.ecat.al ≠ .init → b.indexExists index = false →
      Answers s (.sdoDownload t (.describe index sub)) { b with sm1 := b.sm1 ++ [.sdoInfo 7 (leBytes 4 0x06020000)] }) ∧
    (b.ecat.al ≠ .init → b.par.armedState ≠ .validating → b.indexExists index = false → ∀ v : List Byte,
      Answers s (.sdoDownload t (.request (mailRequest .download index sub v))) (m.aborts index sub 0x06020000 0x0010)) ∧
    (∀ x : SegTransfer, b.seg = some x → x.since + 1000000000 ≤ b.now →
      Answers s (.sdoSegmentTimeout t) (m.aborts x.index x.sub 0x05040000 0x0016)) ∧
    (∀ type : Nat, b.ecat.al ≠ .init → type ≠ 3 → type ≠ 4 →
      Answers s (.mailboxUnsupported t type) { b with sm1 := b.sm1 ++ [.mailboxError 2] }) ∧
    (b.ecat.al ≠ .init → (∀ n d, b.sm1.head? ≠ some (.foeData n d)) → Answers s (.sm1MailboxRead t) { b with sm1 := b.sm1.drop 1 }) ∧
    (∀ n d f, b.ecat.al ≠ .init → b.sm1.head? = some (.foeData n d) → b.foe = some f → Answers s (.sm1MailboxRead t)
      (if f.checking = true then { b with sm1 := b.sm1.drop 1, foe := none }
       else { b with sm1 := b.sm1.drop 1 ++ [.foeData f.nextPacket (f.bytes.take 1012)]
                     foe := some { f with nextPacket := f.nextPacket + 1, bytes := f.bytes.drop 1012, checking := decide (f.bytes.length < 1012) } })) ∧
    (b.ecat.al = .op → 0 < b.ecat.pdTime → b.ecat.pdAt + b.ecat.pdTime ≤ b.now → Answers s (.smWatchdog t) ((({ b with ecat :=
      { b.ecat with al := .safeop, alError := false, alCode := 0, safeopWaiting := none } } : Bar).logEvent 0x0046 0x0804).modEcat (fun e =>
        { e with alError := true, alCode := 0x1B, pdExpiries := min 0xFFFFFFFF (e.pdExpiries + 1) }) |>.logEvent 0x0041 0)) ∧
    (b.ecat.al ≠ .op ∨ b.now < b.ecat.pdAt + b.ecat.pdTime → Answers s (.smWatchdog t) b)) ∧
  (∀ (s : State) (t : Nat), (s.bar.alive = true →
    (∃ b' : Bar, Answers s (.arm t) b') ∧
    (∃ b' : Bar, Answers s (.copyToArmed t) b') ∧
    (∃ b' : Bar, Answers s (.disarm t) b') ∧
    (∃ b' : Bar, Answers s (.applyPoint t) b') ∧
    (∃ b' : Bar, Answers s (.applyLineCommand t) b') ∧
    (∀ (frame : RxFrame), ∃ b' : Bar, Answers s (.rxpdoSample t frame) b') ∧
    (∃ b' : Bar, Answers s (.announcement t) b') ∧
    (∃ b' : Bar, Answers s (.txpdoLatch t) b') ∧
    (∀ (mail : Bool), ∃ b' : Bar, Answers s (.alRequestPreop t mail) b') ∧
    (∀ (sm2 : Nat) (sm3 : Nat) (sync : SyncSetup), ∃ b' : Bar, Answers s (.alRequestSafeop t sm2 sm3 sync) b') ∧
    (∃ b' : Bar, Answers s (.alRequestOp t) b') ∧
    (∃ b' : Bar, Answers s (.alRequestInit t) b') ∧
    (∀ (boot : Bool), ∃ b' : Bar, Answers s (.alRequestBoot t boot) b') ∧
    (∃ b' : Bar, Answers s (.smWatchdog t) b') ∧
    (∀ (type : Nat), ∃ b' : Bar, Answers s (.mailboxUnsupported t type) b') ∧
    (∃ b' : Bar, Answers s (.sm1MailboxRead t) b') ∧
    (∀ (frame : SdoFrame), ∃ b' : Bar, Answers s (.sdoDownload t frame) b') ∧
    (∃ b' : Bar, Answers s (.sdoSegmentTimeout t) b') ∧
    (∃ b' : Bar, Answers s (.store t) b') ∧
    (∃ b' : Bar, Answers s (.restore t) b') ∧
    (∃ b' : Bar, Answers s (.eventLogRead t) b')))

/-- R35: the copies behind the views, for each channel by its own view; a STAGED write reaches the staged copy only. -/
def Obligations.ReadViewsSelectACopy : Prop :=
  (∀ (b : Bar) (e : Entry) (index sub : Nat), e.acc = .staged →
    let shown (st : Store) : List Byte := match e.ty.size with
      | some w => leBytes w (unsigned (8 * w) (st.numAt b.segs index sub))
      | none => if st.rawAt index sub = [] then rawDefault index else st.rawAt index sub
    (b.sdoM.readView = 0 → b.valueOf .mailbox e index sub = shown b.par.staged) ∧
    (b.sdoM.readView = 1 → b.par.armedState = .armed → b.valueOf .mailbox e index sub = shown b.par.armed) ∧
    (b.sdoM.readView = 1 → b.par.armedState = .empty → b.valueOf .mailbox e index sub = shown b.par.live) ∧
    (b.sdoM.readView = 2 → b.valueOf .mailbox e index sub = shown b.par.live) ∧
    (b.sdoB.readView = 0 → b.valueOf .bench e index sub = shown b.par.staged) ∧
    (b.sdoB.readView = 1 → b.par.armedState = .armed → b.valueOf .bench e index sub = shown b.par.armed) ∧
    (b.sdoB.readView = 1 → b.par.armedState = .empty → b.valueOf .bench e index sub = shown b.par.live) ∧
    (b.sdoB.readView = 2 → b.valueOf .bench e index sub = shown b.par.live)) ∧
  (∀ (b : Bar) (e : Entry) (index sub : Nat) (v : List Byte), e.acc = .staged →
    let b' := b.storeValue e index sub v
    b'.par.armed = b.par.armed ∧ b'.par.live = b.par.live ∧ b'.par.rw = b.par.rw ∧ b'.sdoM = b.sdoM ∧ b'.sdoB = b.sdoB ∧
    b'.par.staged.find (objKey index sub) = some (match e.ty.size with | some _ => .num (e.number v) | none => .raw v) ∧
    ∀ key, key ≠ objKey index sub → b'.par.staged.find key = b.par.staged.find key)

/-- R361, Table 12-2: decoding the word of a legal Carousel instruction gives the instruction back. -/
def Obligations.CarouselWordsDecodeBack : Prop :=
  ∀ i : CInstr, i.wf = true → decodeCarousel (encodeCarousel i) = some i

/-- R361: a word with a reserved bit set or a reserved code decodes to nothing; every word that decodes is the word of the
instruction it decodes to. -/
def Obligations.CarouselWordsAreUnique : Prop :=
  ∀ (w : Word16) (i : CInstr), decodeCarousel w = some i → i.wf = true ∧ encodeCarousel i = w

/-- R361: the ten ALU instructions. The equation is the frame too: only the channel's Gd, Z, N and PC change. -/
def Obligations.CarouselAluComputes : Prop :=
  ∀ (s : State) (t : Nat) (k : Fin 64) (lv : Word64) (op : AluOp) (d : Fin 4) (arg : AluArg),
    s.bar.alive = true → (s.bar.stepAt t lv).executes k (.alu op d arg) = true →
    let b := (s.bar.stepAt t lv).takeStep k
    let x := (b.chan k).g[d]
    let y := match arg with | .reg r => (b.chan k).g[r] | .imm v => BitVec.ofNat 32 v
    let r : Word32 := match op with
      | .mov => y | .add => x + y | .sub => x - y | .and => x &&& y | .or => x ||| y | .xor => x ^^^ y
      | .shl => x <<< (y.toNat % 32) | .shr => x >>> (y.toNat % 32) | .cmp => x - y | .tst => x &&& y
    Answers s (op.command t k lv) (b.modChan k fun c =>
      { c.goesOn with g := if op = .cmp ∨ op = .tst then c.g else c.g.set d.val r, z := decide (r = 0), n := r.msb })

/-- R361: loads, PUT and CTL NOP, CLRSH and LOG (Table 12-2; the ARG of CAROUSEL_USER is in Table 12-12). R361, Table 12-4: the twelve jump conditions; a jump changes PC, LOOP changes G3 as well. -/
def Obligations.CarouselLoadsAndJumps : Prop :=
  (∀ (s : State) (t : Nat) (k : Fin 64) (lv : Word64) (r : Fin 4) (imm : Nat), s.bar.alive = true →
    let b0 := s.bar.stepAt t lv
    let b := b0.takeStep k
    (b0.executes k (.ldi r imm) = true → Answers s (.ldi t k lv)
      (b.modChan k fun c => { c.goesOn with g := c.g.set r.val (BitVec.ofNat 32 imm) })) ∧
    (b0.executes k (.ldh r imm) = true → Answers s (.ldh t k lv)
      (b.modChan k fun c => { c.goesOn with g := c.g.set r.val ((c.g[r] <<< 8) ||| BitVec.ofNat 32 imm) })) ∧
    (b0.executes k (.putSh r) = true → Answers s (.putSh t k lv) (b.modChan k fun c => { c.goesOn with sh := c.g[r] })) ∧
    (b0.executes k (.putBc r) = true → Answers s (.putBc t k lv)
      (b.modChan k fun c => { c.goesOn with bc := (c.g[r]).toNat % 256 })) ∧
    (b0.executes k .nop = true → Answers s (.ctlNop t k lv) (b.modChan k fun c => c.goesOn)) ∧
    (b0.executes k .clrsh = true → Answers s (.ctlClrsh t k lv) (b.modChan k fun c => { c.goesOn with sh := 0, bc := 0 })) ∧
    (b0.executes k .log = true → Answers s (.ctlLog t k lv)
      ((b.logEvent 0xA024 (k.val * 2 ^ 56 + ((b.chan k).g[(0 : Fin 4)]).toNat)).modChan k fun c => c.goesOn))) ∧
  (∀ (s : State) (t : Nat) (k : Fin 64) (lv : Word64) (cond target : Nat),
    s.bar.alive = true → (s.bar.stepAt t lv).executes k (.jmp cond target) = true →
    let b := (s.bar.stepAt t lv).takeStep k
    let c := b.chan k
    let home := b.pinSeen (pinAt (b.rwN (0x2A10 + k.val) 2))
    let holds : Prop := match cond with
      | 0 => True | 1 => c.z = true | 2 => c.z = false | 3 => c.n = true | 4 => c.n = false | 5 => home = true | 6 => home = false
      | 7 => c.cq = [] | 8 => c.cq ≠ [] | 9 => c.bc = 0 | 10 => c.bc ≠ 0 | _ => c.g[(3 : Fin 4)] - 1 ≠ 0
    let after (x : ChannelState) : ChannelState := if cond = 11 then { x with g := x.g.set 3 (x.g[(3 : Fin 4)] - 1) } else x
    (holds → Answers s (.jmp t k lv) (b.modChan k fun x => { after x with pc := target, busy := .ready })) ∧
    (¬holds → Answers s (.jmp t k lv) (b.modChan k fun x => (after x).goesOn)))

/-- R361, R362, R369: what WAIT, the events it waits for and its completion do, for every kind of Table 12-3. -/
def Obligations.CarouselWaits : Prop :=
  let stands (b : Bar) (k : Fin 64) (kind arg : Nat) : Prop := match kind with
    | 3 => b.pinSeen (pinAt arg) = true
    | 4 => b.pinSeen (pinAt arg) = false
    | 5 => arg ≤ (b.chan k).cq.length
    | 6 => (b.chan k).rq.length + arg ≤ b.queueDepth k
    | 7 => (BitVec.ofNat 32 b.now - (b.chan k).g[regAt arg 0]).msb = false
    | 8 => (BitVec.ofNat 32 (b.io.pos[(0 : Fin 2)]).toNat - (b.chan k).g[regAt arg 0]).msb = false
    | 9 => (BitVec.ofNat 32 (b.io.pos[(1 : Fin 2)]).toNat - (b.chan k).g[regAt arg 0]).msb = false
    | _ => False
  (∀ (s : State) (t : Nat) (k : Fin 64) (lv : Word64) (kind arg : Nat),
    s.bar.alive = true → (s.bar.stepAt t lv).executes k (.wait kind arg) = true →
    let b := (s.bar.stepAt t lv).takeStep k
    let queued : Prop := kind = 5 ∨ kind = 6
    (queued → b.queueDepth k = 0 → Answers s (.wait t k lv) (b.faultChannel k .joinedQueue)) ∧
    (queued → 0 < b.queueDepth k → arg = 0 ∨ b.queueDepth k < arg → Answers s (.wait t k lv) (b.faultChannel k .illegalOp)) ∧
    let first := b.stepFrom (engineOf k)
    let te := (b.io.pins[pinAt arg]).edgeTime
    let edge : Prop := 0 < te ∧ first ≤ te ∧
      (kind = 0 ∧ b.pinSeen (pinAt arg) = true ∨ kind = 1 ∧ b.pinSeen (pinAt arg) = false ∨ kind = 2)
    ((queued → 0 < arg ∧ arg ≤ b.queueDepth k) →
      (edge ∨ stands b k kind arg → Answers s (.wait t k lv) (b.modChan k fun c => { c.goesOn with ts := if kind ≤ 4 then te else c.ts })) ∧
      (¬edge → ¬stands b k kind arg → Answers s (.wait t k lv) (b.modChan k fun c => { c with busy := .waiting first })))) ∧
  (∀ (b : Bar) (k : Fin 64) (since kind arg : Nat) (ev : StepEvent), decodeCarousel (b.fetched k) = some (.wait kind arg) →
    (b.chan k).busy = .waiting since none → kind ≤ 2 ∨ 10 ≤ kind →
    let due : Option Nat := match kind, ev with
      | 0, .edge i up te => if i = pinAt arg ∧ since ≤ te ∧ (up ^^ b.pinInvert i) = true then some te else none
      | 1, .edge i up te => if i = pinAt arg ∧ since ≤ te ∧ (up ^^ b.pinInvert i) = false then some te else none
      | 2, .edge i _ te => if i = pinAt arg ∧ since ≤ te then some te else none
      | 10, .line te => if since ≤ te then some te else none
      | 11, .tmrMatch n te => if n = arg ∧ since ≤ te then some te else none
      | _, _ => none
    b.noteWait ev k = (if due.isSome = true then b.modChan k fun c => { c with busy := .waiting since due } else b)) ∧
  (∀ (s : State) (t : Nat) (k : Fin 64) (lv : Word64) (te since kind arg : Nat) (met : Option Nat), s.bar.alive = true →
    let b0 := (s.bar.at t).samplePins lv ((s.bar.at t).counterThen te)
    let b := b0.takeStep k
    b0.canStep k = true → decodeCarousel (b0.fetched k) = some (.wait kind arg) → (b0.chan k).busy = .waiting since met →
    (∀ ts, met = some ts → Answers s (.waitComplete t k lv te kind)
      (b.modChan k fun c => { c.goesOn with ts := if kind ≤ 4 ∨ 10 ≤ kind then ts else c.ts })) ∧
    (met = none → stands b k kind arg → Answers s (.waitComplete t k lv te kind)
      (b.modChan k fun c => { c.goesOn with ts := if kind ≤ 4 then (b.io.pins[pinAt arg]).edgeTime else c.ts })) ∧
    (met = none → ¬stands b k kind arg → Answers s (.waitComplete t k lv te kind) b))

/-- R367: SET on a pin the channel owns, and the pin's one output compare. R365, R373: only the owner channel of a pin in output mode may drive it. -/
def Obligations.CarouselSetsOwnedPins : Prop :=
  ((∀ (s : State) (t : Nat) (k i : Fin 64) (lv : Word64) (r : Fin 4) (timed : Bool) (a : PinAction), s.bar.alive = true →
    let b0 := s.bar.stepAt t lv
    let b := b0.takeStep k
    b0.executes k (.set a timed r i) = true → b.ownsPin k i = true →
    let target := (b.chan k).g[r]
    let passed := (BitVec.ofNat 32 b.now - target).msb = false ∧ BitVec.ofNat 32 b.now ≠ target
    let armed (late : Bool) := b.modPin i fun p => { p with compare := some ⟨target, a, late, k, b.stepFrom (engineOf k)⟩ }
    (timed = false → Answers s (a.command t k lv) ((b.actPin i a).modChan k fun c => c.goesOn)) ∧
    (timed = true → (b.io.pins[i]).compare.isSome = true → (b.chan k).busy = .ready →
      Answers s (a.command t k lv) (b.modChan k fun c => { c with busy := .waiting b.now })) ∧
    (timed = true → (b.io.pins[i]).compare = none → ¬passed →
      Answers s (a.command t k lv) ((armed false).modChan k fun c => c.goesOn)) ∧
    (timed = true → (b.io.pins[i]).compare = none → passed →
      Answers s (a.command t k lv)
        (((armed true).logLimited 0xA022 k.val (k.val * 2 ^ 56 + i.val) 1000000000).modChan k fun c =>
          { c.goesOn with outLate := true, lateCount := min 0xFFFFFFFF (c.lateCount + 1) }))) ∧
  (∀ (s : State) (t : Nat) (i : Fin 64) (oc : OutCompare), s.bar.alive = true →
    let b := s.bar.at t
    (b.io.pins[i]).compare = some oc →
    let step := b.stepFrom (engineOf oc.owner)
    let due := (oc.late = true ∧ oc.step < step) ∨ (oc.late = false ∧ (BitVec.ofNat 32 step - oc.target).msb = false)
    (due → b.timerPin i.val = false → Answers s (.outputCompareFire t i) ((b.modPin i fun p => { p with compare := none }).actPin i oc.action)) ∧
    (due → b.timerPin i.val = true → Answers s (.outputCompareFire t i) (b.modPin i fun p => { p with compare := none })) ∧
    (¬due → Answers s (.outputCompareFire t i) b))) ∧
  (∀ (s : State) (t : Nat) (k i : Fin 64) (lv : Word64) (r : Fin 4) (timed msb : Bool) (a : PinAction), s.bar.alive = true →
    let b0 := s.bar.stepAt t lv
    let b := b0.takeStep k
    b.ownsPin k i = false →
    let faulted := ((((b.modChan k fun c => { c with fault := .pinNotOwned }).modEngine (engineOf k) fun e =>
        { e with faults := min 0xFFFFFFFF (e.faults + 1) }).logAt 0xA020 (k.val * 2 ^ 56 + 2 * 256 + (b.chan k).pc) 2).modChan k fun c =>
        { c with active := false, busy := .ready, event := none }).haltPinsOf k
    (b0.executes k (.set a timed r i) = true → Answers s (a.command t k lv) faulted) ∧
    (b0.executes k (.shift false msb timed r i) = true → Answers s (.shiftOut t k lv) faulted))

/-- R368: the two SHIFT instructions; an output SHIFT with AT arms the compare of R367. -/
def Obligations.CarouselShifts : Prop :=
  ∀ (s : State) (t : Nat) (k i : Fin 64) (lv : Word64) (r : Fin 4) (timed msb : Bool), s.bar.alive = true →
    let b0 := s.bar.stepAt t lv
    let b := b0.takeStep k
    let level : Nat := match (b.chan k).busy with | .waiting _ (some l) => if l = 1 then 1 else 0 | _ => b2n (b.pinSeen i)
    let due := (BitVec.ofNat 32 b.now - (b.chan k).g[r]).msb = false
    let out (c : ChannelState) : ChannelState := { c with sh := if msb then c.sh <<< 1 else c.sh >>> 1, bc := c.bc - 1 }
    (b0.executes k (.shift true msb timed r i) = true → (timed = true → due) → Answers s (.shiftIn t k lv) (b.modChan k fun c =>
      { c.goesOn with
        sh := if msb then (c.sh <<< 1) ||| BitVec.ofNat 32 level else (c.sh >>> 1) ||| BitVec.ofNat 32 (level * 2 ^ 31)
        bc := if c.bc < 255 then c.bc + 1 else 255 })) ∧
    (b0.executes k (.shift true msb timed r i) = true → timed = true → ¬due → (b.chan k).busy = .ready →
      Answers s (.shiftIn t k lv) (b.modChan k fun c => { c with busy := .waiting b.now })) ∧
    let bitOut : PinAction := if (if msb then (b.chan k).sh.msb else (b.chan k).sh.getLsbD 0) then .high else .low
    let target := (b.chan k).g[r]
    let passed := due ∧ BitVec.ofNat 32 b.now ≠ target
    let armed (late : Bool) := b.modPin i fun p => { p with compare := some ⟨target, bitOut, late, k, b.stepFrom (engineOf k)⟩ }
    (b0.executes k (.shift false msb false r i) = true → b.ownsPin k i = true →
      Answers s (.shiftOut t k lv) ((b.actPin i bitOut).modChan k fun c => (out c).goesOn)) ∧
    (b0.executes k (.shift false msb true r i) = true → b.ownsPin k i = true →
      ((b.io.pins[i]).compare.isSome = true → (b.chan k).busy = .ready →
        Answers s (.shiftOut t k lv) (b.modChan k fun c => { c with busy := .waiting b.now })) ∧
      ((b.io.pins[i]).compare = none → ¬passed → Answers s (.shiftOut t k lv) ((armed false).modChan k fun c => (out c).goesOn)) ∧
      ((b.io.pins[i]).compare = none → passed → Answers s (.shiftOut t k lv)
        (((armed true).logLimited 0xA022 k.val (k.val * 2 ^ 56 + i.val) 1000000000).modChan k fun c =>
          { (out c).goesOn with outLate := true, lateCount := min 0xFFFFFFFF (c.lateCount + 1) })))

/-- R361, R369: the queue instructions; depth 0 belongs to a channel whose queues its group's first channel took over. R370: posting an event. -/
def Obligations.CarouselQueuesAndEvents : Prop :=
  (∀ (s : State) (t : Nat) (k : Fin 64) (lv : Word64) (r : Fin 4) (oldest peek : Bool), s.bar.alive = true →
    let b0 := s.bar.stepAt t lv
    let b := b0.takeStep k
    let fetch : Instr := if peek then .fetchPeek t k lv else .fetch t k lv
    (b0.executes k (.fetch r peek) = true → 0 < b.queueDepth k → (b.chan k).cq = [] →
      Answers s fetch (b.modChan k fun c => { c.goesOn with e := true })) ∧
    (∀ (w : Word32) (rest : List Word32), b0.executes k (.fetch r peek) = true → 0 < b.queueDepth k → (b.chan k).cq = w :: rest →
      Answers s fetch (b.modChan k fun c =>
        { c.goesOn with g := c.g.set r.val w, e := false, z := decide (w = 0), n := w.msb, cq := if peek then c.cq else rest })) ∧
    (b0.executes k (.send r oldest) = true → (b.chan k).rq.length < b.queueDepth k →
      Answers s (.send t k lv) (b.modChan k fun c => { c.goesOn with rq := c.rq ++ [c.g[r]] })) ∧
    (b0.executes k (.send r oldest) = true → 0 < b.queueDepth k → b.queueDepth k ≤ (b.chan k).rq.length →
      Answers s (.send t k lv) ((b.logLimited 0xA023 k.val 0 1000000000).modChan k fun c =>
        { c.goesOn with rqOvf := true, rq := if oldest then c.rq.drop 1 ++ [c.g[r]] else c.rq })) ∧
    (b0.executes k (.fetch r peek) = true → b.queueDepth k = 0 → Answers s fetch (b.faultChannel k .joinedQueue)) ∧
    (b0.executes k (.send r oldest) = true → b.queueDepth k = 0 → Answers s (.send t k lv) (b.faultChannel k .joinedQueue))) ∧
  (∀ (s : State) (t : Nat) (k : Fin 64) (lv : Word64) (kind : EventKind) (atNow : Bool), s.bar.alive = true →
    let b0 := s.bar.stepAt t lv
    let b := b0.takeStep k
    b0.executes k (.evt kind atNow) = true →
    let c := b.chan k
    (c.event = none → Answers s (eventCommand kind t k lv) (b.modChan k fun c =>
      { c.goesOn with event := some ⟨if atNow then b.now else c.ts, kind, c.evCount⟩
                      evCount := (c.evCount + 1) % 65536, evPosted := min 0xFFFFFFFF (c.evPosted + 1) })) ∧
    (c.event.isSome = true → c.busy = .ready →
      Answers s (eventCommand kind t k lv) (b.modChan k fun c => { c with busy := .waiting b.now })))

/-- R364: the timebase (sources 2 and 3), the two position counters (4 to 7) and the timer pairs (8 and 9); the sources without a
shadow (0, 1, 10 to 13) give their value. -/
def Obligations.CarouselGetReadsShadows : Prop :=
  ∀ (s : State) (t : Nat) (k : Fin 64) (lv : Word64) (r : Fin 4), s.bar.alive = true →
    let b0 := s.bar.stepAt t lv
    let b := b0.takeStep k
    let low (x : Nat) : Word32 := BitVec.ofNat 32 x
    let high (x : Nat) : Word32 := BitVec.ofNat 32 (x / 2 ^ 32)
    let got (v : Word32) (sh : Shadows → Shadows) := b.modChan k fun c =>
      { c.goesOn with g := c.g.set r.val v, z := decide (v = 0), n := v.msb, shadows := sh c.shadows }
    let c := b.chan k
    (b0.executes k (.get 2 r 0) = true → Answers s (.get t k lv) (got (low b.now) fun x => { x with timebase := some (high b.now) })) ∧
    (b0.executes k (.get 3 r 0) = true →
      Answers s (.get t k lv) (got (c.shadows.timebase.getD (high b.now)) fun x => { x with timebase := none })) ∧
    (b0.executes k (.get 4 r 0) = true → Answers s (.get t k lv)
      (got (low (b.io.pos[(0 : Fin 2)]).toNat) fun x => { x with pos0 := some (high (b.io.pos[(0 : Fin 2)]).toNat) })) ∧
    (b0.executes k (.get 5 r 0) = true → Answers s (.get t k lv)
      (got (c.shadows.pos0.getD (high (b.io.pos[(0 : Fin 2)]).toNat)) fun x => { x with pos0 := none })) ∧
    (b0.executes k (.get 6 r 0) = true → Answers s (.get t k lv)
      (got (low (b.io.pos[(1 : Fin 2)]).toNat) fun x => { x with pos1 := some (high (b.io.pos[(1 : Fin 2)]).toNat) })) ∧
    (b0.executes k (.get 7 r 0) = true → Answers s (.get t k lv)
      (got (c.shadows.pos1.getD (high (b.io.pos[(1 : Fin 2)]).toNat)) fun x => { x with pos1 := none })) ∧
    (b0.executes k (.get 0 r 0) = true → Answers s (.get t k lv) (got (low c.ts) id)) ∧
    (b0.executes k (.get 1 r 0) = true → Answers s (.get t k lv) (got (high c.ts) id)) ∧
    (b0.executes k (.get 10 r 0) = true → Answers s (.get t k lv) (got c.sh id)) ∧
    (b0.executes k (.get 11 r 0) = true → Answers s (.get t k lv) (got (low c.bc) id)) ∧
    (b0.executes k (.get 13 r 0) = true → Answers s (.get t k lv) (got (low b.liveLine) id)) ∧
    (∀ j : Fin 8,
      let lo := (b.io.timers[(⟨2 * j.val, by omega⟩ : Fin 16)]).count
      let hi := (b.io.timers[(⟨2 * j.val + 1, by omega⟩ : Fin 16)]).count
      let pair : Nat := if bit (b.rwN (0x2B10 + 2 * j.val) 1) 2 = true then lo else lo % 2 ^ 32 + 2 ^ 32 * (hi % 2 ^ 32)
      (b0.executes k (.get 8 r (2 * j.val)) = true → Answers s (.get t k lv)
        (got (low pair) fun x => { x with pairs := x.pairs.set j.val (some (high pair)) })) ∧
      (b0.executes k (.get 9 r (2 * j.val)) = true → Answers s (.get t k lv)
        (got ((c.shadows.pairs[j]).getD (high pair)) fun x => { x with pairs := x.pairs.set j.val none }))) ∧
    (∀ bank : Fin 8, b0.executes k (.get 12 r bank.val) = true → ∃ v : Word32, Answers s (.get t k lv) (got v id) ∧ v.toNat < 256 ∧
      ∀ i : Fin 8, v.getLsbD i.val = b.pinSeen ⟨8 * bank.val + i.val, by omega⟩)

/-- R373: how a channel and an engine halt. -/
def Obligations.CarouselHaltsAndFaults : Prop :=
  (∀ (s : State) (t : Nat) (k : Fin 64) (lv : Word64), s.bar.alive = true →
    let b0 := s.bar.stepAt t lv
    let b := b0.takeStep k
    (b0.executes k .halt = true → Answers s (.ctlHalt t k lv)
      ((b.modChan k fun c => { c with fault := .haltInstr, active := false, busy := .ready, event := none }).haltPinsOf k)) ∧
    (b0.canStep k = true → decodeCarousel (b0.fetched k) = none → Answers s (.illegalOp t k lv) (b.faultChannel k .illegalOp))) ∧
  (∀ (s : State) (t : Nat) (e : Fin 4), s.bar.alive = true → ((s.bar.at t).engine e).state = .halting →
    ∃ b : Bar, Answers s (.engineHalted t e) (b.logEvent 0xA025 (e.val * 256)) ∧ (b.engine e).state = .halted ∧
      (∀ k : Fin 64, engineOf k = e →
        b.chan k = { (s.bar.at t).chan k with active := false, busy := .ready, event := none }) ∧
      (∀ k : Fin 64, engineOf k ≠ e → ∃ x, b.chan k = { (s.bar.at t).chan k with busy := x } ∧
        (((s.bar.at t).chan k).busy = .ready → x = .ready)) ∧
      (∀ i : Fin 64,
        let b0 := s.bar.at t
        let p := b0.io.pins[i]
        let owned := b0.pinOwner i / 16 = e.val ∧ b0.timerPin i.val = false ∧ (b0.pinMode i = 1 ∨ b0.pinMode i = 2)
        let raised : Drive := if b0.pinMode i = 2 then .released else .high
        (b.io.pins[i]).compare = (p.compare.filter fun c => engineOf c.owner ≠ e) ∧ (b.io.pins[i]).level = p.level ∧
        (b.io.pins[i]).drive = if owned then
          (match b0.pinHaltLevel i with | 1 => .low | 2 => raised | 3 => .released | _ => p.drive) else p.drive) ∧
      (∀ i : Fin 64, b.pinOwner i / 16 ≠ e.val → b.io.pins[i] =
        (let p := (s.bar.at t).io.pins[i]; { p with compare := p.compare.filter fun c => engineOf c.owner ≠ e })) ∧
      b.io.timers = (s.bar.at t).io.timers ∧ b.io.pos = (s.bar.at t).io.pos) ∧
  (∀ (s : State) (t te : Nat) (k : Fin 64) (e : Fin 4) (lv : Word64), s.bar.alive = true →
    (∃ b' : Bar, Answers s (.jmp t k lv) b') ∧
    (∃ b' : Bar, Answers s (.wait t k lv) b') ∧
    (∃ b' : Bar, Answers s (.setLow t k lv) b') ∧
    (∃ b' : Bar, Answers s (.setHigh t k lv) b') ∧
    (∃ b' : Bar, Answers s (.setToggle t k lv) b') ∧
    (∃ b' : Bar, Answers s (.setRelease t k lv) b') ∧
    (∃ b' : Bar, Answers s (.ldi t k lv) b') ∧
    (∃ b' : Bar, Answers s (.ldh t k lv) b') ∧
    (∃ b' : Bar, Answers s (.aluMov t k lv) b') ∧
    (∃ b' : Bar, Answers s (.aluAdd t k lv) b') ∧
    (∃ b' : Bar, Answers s (.aluSub t k lv) b') ∧
    (∃ b' : Bar, Answers s (.aluAnd t k lv) b') ∧
    (∃ b' : Bar, Answers s (.aluOr t k lv) b') ∧
    (∃ b' : Bar, Answers s (.aluXor t k lv) b') ∧
    (∃ b' : Bar, Answers s (.aluShl t k lv) b') ∧
    (∃ b' : Bar, Answers s (.aluShr t k lv) b') ∧
    (∃ b' : Bar, Answers s (.aluCmp t k lv) b') ∧
    (∃ b' : Bar, Answers s (.aluTst t k lv) b') ∧
    (∃ b' : Bar, Answers s (.get t k lv) b') ∧
    (∃ b' : Bar, Answers s (.send t k lv) b') ∧
    (∃ b' : Bar, Answers s (.fetch t k lv) b') ∧
    (∃ b' : Bar, Answers s (.fetchPeek t k lv) b') ∧
    (∃ b' : Bar, Answers s (.shiftOut t k lv) b') ∧
    (∃ b' : Bar, Answers s (.shiftIn t k lv) b') ∧
    (∃ b' : Bar, Answers s (.putSh t k lv) b') ∧
    (∃ b' : Bar, Answers s (.putBc t k lv) b') ∧
    (∃ b' : Bar, Answers s (.evtLeading t k lv) b') ∧
    (∃ b' : Bar, Answers s (.evtTrailing t k lv) b') ∧
    (∃ b' : Bar, Answers s (.evtPulse t k lv) b') ∧
    (∃ b' : Bar, Answers s (.ctlNop t k lv) b') ∧
    (∃ b' : Bar, Answers s (.ctlHalt t k lv) b') ∧
    (∃ b' : Bar, Answers s (.ctlClrsh t k lv) b') ∧
    (∃ b' : Bar, Answers s (.ctlLog t k lv) b') ∧
    (∃ b' : Bar, Answers s (.illegalOp t k lv) b') ∧
    (∀ kind, ∃ b' : Bar, Answers s (.waitComplete t k lv te kind) b') ∧ (∃ b' : Bar, Answers s (.outputCompareFire t k) b') ∧
    (∃ b' : Bar, Answers s (.engineHalted t e) b'))

/-- R373, R374: the engine commands. That HALT of a HALTING engine has no effect and that a start keeps TS, the shadows and the event
number is log entry 165's reading. -/
def Obligations.EngineStartsAtEntry : Prop :=
  (∀ (s : State) (t : Nat) (e : Fin 4) (clear : Bool), s.bar.serves (0x2A00 + e.val) = true →
    let b := s.bar.mailAt t
    let command : Instr := if clear then .runClear t e else .run t e
    ((b.engine e).state = .halted → ∃ b' : Bar, Answers s command ((b'.logEvent 0xA025 (e.val * 256 + 1)).responds (0x2A00 + e.val) 1 0 []) ∧
      (b'.engine e).state = .running ∧ (b'.engine e).program = (b.engine e).program ∧
      ∀ c : Fin 16, b'.chan (chanOf e c) =
        (let x := b.chan (chanOf e c)
         if bit (b.rwN (0x2A00 + e.val) 5) c.val then
           let y : ChannelState := { x with active := true, stepped := none, pc := b.rwN (0x2A10 + (chanOf e c).val) 1, g := Vector.replicate 4 0
                                            z := false, n := false, e := false, busy := .ready, event := none, fault := .none }
           if clear then { y with sh := 0, bc := 0, cq := [], rq := [], outLate := false, rqOvf := false, feedLost := false } else y
         else { x with active := false })) ∧
    ((b.engine e).state ≠ .halted → Answers s command (b.aborts (0x2A00 + e.val) 1 0x08000022 0xA003)) ∧
    ((b.engine e).state = .running → Answers s (.halt t e)
      ((b.modEngine e fun g => { g with state := .halting }).responds (0x2A00 + e.val) 1 0 [])) ∧
    ((b.engine e).state ≠ .running → Answers s (.halt t e) (b.responds (0x2A00 + e.val) 1 0 []))) ∧
  (∀ (s : State) (t : Nat), (s.bar.alive = true →
    (∀ (e : Fin 4), ∃ b' : Bar, Answers s (.run t e) b') ∧
    (∀ (e : Fin 4), ∃ b' : Bar, Answers s (.runClear t e) b') ∧
    (∀ (e : Fin 4), ∃ b' : Bar, Answers s (.halt t e) b')))

/-- R369, R372: what the SDO rows of the Carousel do. -/
def Obligations.ProgramsAndQueuesOverSdo : Prop :=
  ((∀ (s : State) (t : Nat) (e : Fin 4) (bytes : List Byte), s.bar.serves (0x2A04 + e.val) = true →
    let b := s.bar.mailAt t
    ((b.engine e).state = .halted → bytes.length % 2 = 0 → 0 < bytes.length → bytes.length ≤ 512 →
      Answers s (.programWrite t e bytes) ((b.modEngine e fun g =>
        { g with program := Vector.ofFn fun (i : Fin 256) =>
            if 2 * i.val < bytes.length then BitVec.ofNat 16 (leAt bytes (2 * i.val) 2) else g.program[i] }).responds (0x2A04 + e.val) 0 0 [])) ∧
    ((b.engine e).state ≠ .halted → Answers s (.programWrite t e bytes) (b.aborts (0x2A04 + e.val) 0 0x08000022 0xA003))) ∧
  (∀ (s : State) (t : Nat) (k : Fin 64) (w : Word32), s.bar.serves (0x2A10 + k.val) = true →
    let b := s.bar.mailAt t
    (b.rwN (0x2A10 + k.val) 3 = 0 → (b.chan k).cq.length < b.queueDepth k → Answers s (.commandQueueWrite t k w)
      ((b.modChan k fun c => { c with cq := c.cq ++ [w] }).responds (0x2A10 + k.val) 5 0 [])) ∧
    (b.rwN (0x2A10 + k.val) 3 = 0 → b.queueDepth k ≤ (b.chan k).cq.length →
      Answers s (.commandQueueWrite t k w) (b.aborts (0x2A10 + k.val) 5 0x08000020 0xA006)) ∧
    (b.rwN (0x2A10 + k.val) 3 ≠ 0 → Answers s (.commandQueueWrite t k w) (b.aborts (0x2A10 + k.val) 5 0x08000020 0xA005)) ∧
    ((b.chan k).rq = [] → Answers s (.reportQueueRead t k) (b.aborts (0x2A10 + k.val) 6 0x08000020 0xA007)) ∧
    (∀ (x : Word32) (rest : List Word32), (b.chan k).rq = x :: rest → Answers s (.reportQueueRead t k)
      ((b.modChan k fun c => { c with rq := rest }).responds (0x2A10 + k.val) 6 0 (leBytes 4 x.toNat)
        (if b.ecat.session then b.cap.snapAt else b.lines))))) ∧
  (∀ (s : State) (t : Nat), (s.bar.alive = true →
    (∀ (e : Fin 4) (bytes : List Byte), ∃ b' : Bar, Answers s (.programWrite t e bytes) b') ∧
    (∀ (k : Fin 64) (w : Word32), ∃ b' : Bar, Answers s (.commandQueueWrite t k w) b') ∧
    (∀ (k : Fin 64), ∃ b' : Bar, Answers s (.reportQueueRead t k) b')))

/-- R379, R380, R392: one tick of a unit whose present count has been compared. -/
def Obligations.TimerCountsUpAndDown : Prop :=
  ∀ (s : State) (t : Nat) (i : Fin 16), s.bar.alive = true →
    let b := s.bar.at t
    let h := b.tmrHead i
    let u := b.io.timers[h]
    let per := b.tmrPer h.val
    (u.running = true → u.due ≤ b.now → u.settled = true →
      let tick := 2 * (b.rwN (0x2B10 + h.val) 2 + 1)
      let pll := b.cap.tb.mode = .pll
      let moment := if pll then u.due else b.now - (b.now - u.due) / 40 * 40
      let next := (if pll ∨ 40 < tick then u.due else moment) + tick
      let c := if u.down then u.count - 1 else u.count + 1
      Answers s (.timerTick t i) (b.modTimer h fun u =>
        { u with count := c, settled := false, at_ := moment, due := next
                 aheadA := u.aheadA && (!u.down || decide (c ≠ 0)), aheadB := u.aheadB && (!u.down || decide (c ≠ 0))
                 down := if u.down then decide (c ≠ 0) else decide (per ≤ c)
                 halfStart := if u.down then (if c = 0 then 0 else u.halfStart) else if per ≤ c then c else 0
                 halfPer := if u.down && decide (c ≠ 0) then u.halfPer else per })) ∧
    (u.running = false ∨ b.now < u.due → Answers s (.timerTick t i) b)

/-- R71, R382, R384, R386: a match of a unit that stands alone and drives no pin. That a compare above the period in force matches where
a write in that half put it ahead is log entry 98's reading of R382 and R386. -/
def Obligations.TimerMatchActs : Prop :=
  ∀ (s : State) (t : Nat) (i : Fin 16), s.bar.alive = true →
    let b := s.bar.at t
    let u := b.io.timers[i]
    let ctl := b.tmrCtl i.val
    b.tmrHead i = i → 64 ≤ b.rwN (0x2B10 + i.val) 4 → 64 ≤ b.rwN (0x2B10 + i.val) 5 →
    (u.running = true → u.settled = false →
      let hitA := u.count = b.tmrCmpA i.val ∧ (u.aheadA = true ∨ u.count ≤ u.halfPer)
      let hitB := u.count = b.tmrCmpB i.val ∧ (u.aheadB = true ∨ u.count ≤ u.halfPer)
      let act (a : Nat) (x : Bool) : Bool := if a = 0 then x else if a = 1 then false else if a = 2 then true else !x
      let turn := u.count = 0 ∨ (u.down = true ∧ u.count = u.halfStart)
      let out (up dn : Nat) (x : Bool) : Bool :=
        if turn then (if u.down then act dn (act up x) else act up (act dn x)) else act (if u.down then dn else up) x
      let compared := b.modTimer i fun u =>
        { u with settled := true, outA := if hitA then out (bits ctl 4 3) (bits ctl 6 5) u.outA else u.outA
                 outB := if hitB then out (bits ctl 8 7) (bits ctl 10 9) u.outB else u.outB
                 matchesA := if hitA then min 0xFFFFFFFF (u.matchesA + 1) else u.matchesA
                 matchesB := if hitB then min 0xFFFFFFFF (u.matchesB + 1) else u.matchesB }
      Answers s (.timerMatch t i)
        (if hitA then (compared.noteWaits (.tmrMatch i.val u.at_)).routeTrigger (0x40 + i.val) u.at_ else compared)) ∧
    (u.settled = true ∨ u.running = false → Answers s (.timerMatch t i) b)

/-- R381, R389: start and stop. The order of the refusals, the start anew of a running timer and the stop at once are log entry 166's
readings. -/
def Obligations.TimersStartAndStopTogether : Prop :=
  (∀ (s : State) (t : Nat) (mask : Word16), s.bar.serves 0x2B48 = true →
    let b := s.bar.mailAt t
    let named (i : Fin 16) : Prop := mask.getLsbD i.val = true
    let half : Prop := ∃ j : Fin 8, named ⟨2 * j.val + 1, by omega⟩ ∧ b.tmrLinked (2 * j.val + 1) = true
    let range : Prop := ∃ i : Fin 16, named i ∧ b.tmrPer i.val < b.tmrPreset i.val
    let unequal : Prop := ∃ i j : Fin 16, named i ∧ named j ∧ b.rwN (0x2B10 + i.val) 2 ≠ b.rwN (0x2B10 + j.val) 2
    (¬half → ¬range → ¬unequal → ∃ b' : Bar, Answers s (.timerStart t mask) (b'.responds 0x2B48 1 0 []) ∧
      (∀ i : Fin 16, mask.getLsbD i.val = false → b'.io.timers[i] = b.io.timers[i]) ∧
      (∀ i : Fin 16, mask.getLsbD i.val = true →
        let ctl := b.tmrCtl i.val
        let u := b'.io.timers[i]
        u.running = true ∧ u.count = b.tmrPreset i.val ∧ u.settled = true ∧ u.outA = bit ctl 11 ∧ u.outB = bit ctl 12 ∧
        u.at_ = b.now + 2 - (b.now + b.cap.tb.stepPhase) % 2 ∧ u.due = u.at_ + 2 * (b.rwN (0x2B10 + i.val) 2 + 1) ∧
        u.overrun = false ∧ u.miss = false ∧ u.double = false ∧
        u.down = (if b.tmrPreset i.val = b.tmrPer i.val then true else if b.tmrPreset i.val = 0 then false else bit ctl 0)) ∧
      (∀ k : Fin 64, ∃ x, b'.chan k = { b.chan k with busy := x }) ∧ b'.io.engines = b.io.engines ∧ b'.par = b.par) ∧
    (half → Answers s (.timerStart t mask) (b.aborts 0x2B48 1 0x08000020 0xB007)) ∧
    (¬half → range → Answers s (.timerStart t mask) (b.aborts 0x2B48 1 0x08000020 0xB005)) ∧
    (¬half → ¬range → unequal → Answers s (.timerStart t mask) (b.aborts 0x2B48 1 0x08000020 0xB006)) ∧
    (¬half → ∃ b' : Bar, Answers s (.timerStop t mask) (b'.responds 0x2B48 2 0 []) ∧
      (∀ i : Fin 16, (b'.io.timers[i]).count = (b.io.timers[i]).count ∧ (b'.io.timers[i]).due = (b.io.timers[i]).due) ∧
      (∀ i : Fin 16, mask.getLsbD i.val = true → (b'.io.timers[i]).running = false) ∧
      (∀ i : Fin 16, mask.getLsbD i.val = false → b'.io.timers[i] = b.io.timers[i]) ∧ b'.par = b.par) ∧
    (half → Answers s (.timerStop t mask) (b.aborts 0x2B48 2 0x08000020 0xB007))) ∧
  (∀ (s : State) (t : Nat), (s.bar.alive = true →
    (∀ (mask : Word16), ∃ b' : Bar, Answers s (.timerStart t mask) b') ∧
    (∀ (mask : Word16), ∃ b' : Bar, Answers s (.timerStop t mask) b') ∧
    (∀ (i : Fin 16), ∃ b' : Bar, Answers s (.timerMatch t i) b') ∧
    (∀ (i : Fin 16), ∃ b' : Bar, Answers s (.timerTick t i) b') ∧
    (∀ (i : Fin 16) (cmpB : Bool) (v : Word32), ∃ b' : Bar, Answers s (.compareWrite t i cmpB v) b') ∧
    (∀ (i : Fin 16) (v : Word32), ∃ b' : Bar, Answers s (.periodWrite t i v) b') ∧
    (∀ (j : Fin 8) (sub : Fin 4) (v : Word64), ∃ b' : Bar, Answers s (.pairWrite t j sub v) b') ∧
    (∀ (p : Fin 2) (v : Word64), ∃ b' : Bar, Answers s (.positionPreset t p v) b')))

/-- R385, R387, R389, R391: the writes of timer values and position presets. That a pair write renews the landing record of the even unit
alone is log entry 166's reading. R386, Table 13-2: missed and doubled matches of a compare write, from where the old and the new value lie in the half
in progress; a value above the period that a write put ahead is log entry 98's reading. -/
def Obligations.TimerValuesOverSdo : Prop :=
  ((∀ (s : State) (t : Nat) (i : Fin 16) (cmpB : Bool) (v : Word32), s.bar.serves (0x2B00 + i.val) = true →
    let b := s.bar.mailAt t
    b.tmrHead i = i → (b.io.timers[i]).running = false →
    let landed (b : Bar) := b.modTimer i fun u => { u with landing := 2 ^ 38 }
    (Answers s (.compareWrite t i cmpB v)
      ((landed (b.putRw (0x2B00 + i.val) (if cmpB then 3 else 2) (.num v.toNat))).responds (0x2B00 + i.val) (if cmpB then 3 else 2) 0 [])) ∧
    (v ≠ 0 → Answers s (.periodWrite t i v)
      ((landed (b.putRw (0x2B00 + i.val) 1 (.num v.toNat))).responds (0x2B00 + i.val) 1 0 [])) ∧
    (v = 0 → Answers s (.periodWrite t i v) (b.aborts (0x2B00 + i.val) 1 0x06090030 0xB001))) ∧
  (∀ (s : State) (t : Nat) (j : Fin 8) (sub : Fin 4) (v : Word64), s.bar.serves (0x2B30 + j.val) = true →
    let b := s.bar.mailAt t
    let even : Fin 16 := ⟨2 * j.val, by omega⟩
    b.tmrHead even = even → (b.io.timers[even]).running = false → sub.val ≠ 3 → (sub.val = 0 → v ≠ 0) →
    Answers s (.pairWrite t j sub v)
      ((((b.putRw (0x2B00 + 2 * j.val) (sub.val + 1) (.num (v.toNat % 2 ^ 32 : Nat))).putRw (0x2B00 + 2 * j.val + 1) (sub.val + 1)
        (.num (v.toNat / 2 ^ 32 : Nat))).modTimer even fun u => { u with landing := 2 ^ 38 }).responds (0x2B30 + j.val) (sub.val + 2) 0 [])) ∧
  (∀ (s : State) (t : Nat) (j : Fin 8) (v : Word64), s.bar.serves (0x2B30 + j.val) = true →
    let b := s.bar.mailAt t
    let even : Fin 16 := ⟨2 * j.val, by omega⟩
    let odd : Fin 16 := ⟨2 * j.val + 1, by omega⟩
    let period := b.rwN (0x2B00 + 2 * j.val) 1 + 2 ^ 32 * b.pairHigh (2 * j.val) 0x2B00 1 0
    (b.io.timers[even]).running = false → (b.io.timers[odd]).running = false →
    (v.toNat ≤ period → Answers s (.pairWrite t j 3 v)
      (((b.putRw (0x2B10 + 2 * j.val) 3 (.num (v.toNat % 2 ^ 32 : Nat))).putRw (0x2B10 + 2 * j.val + 1) 3
        (.num (v.toNat / 2 ^ 32 : Nat))).responds (0x2B30 + j.val) 5 0 [])) ∧
    (period < v.toNat → Answers s (.pairWrite t j 3 v) (b.aborts (0x2B30 + j.val) 5 0x06090030 0xB001))) ∧
  (∀ (s : State) (t : Nat) (p : Fin 2) (v : Word64), s.bar.serves 0x2B40 = true →
    let b := s.bar.mailAt t
    (b.ecat.al = .preop → Answers s (.positionPreset t p v)
      (((b.putRw 0x2B40 (5 + p.val) (.num v.toInt)).loadPos p v.toInt).responds 0x2B40 (5 + p.val) 0 [])) ∧
    (b.ecat.al ≠ .preop → Answers s (.positionPreset t p v) (b.aborts 0x2B40 (5 + p.val) 0x08000022 0xB002)))) ∧
  (∀ (u : Timer) (arm : Bool) (h per old new : Nat),
    let x := u.count
    let ahead (v : Nat) : Prop := if u.down then v < x else x < v ∧ v ≤ per
    let passed (v : Nat) : Prop := if u.down then x ≤ v ∧ v ≤ h else v ≤ x ∧ v ≤ per
    let matched : Prop := u.down = true → old ≤ u.halfPer ∨ arm = true
    let f := landingFlags (u.oldLies arm h per old) (liesAt u.down x h per new)
    (f.1 = true ↔ matched ∧ ahead old ∧ ¬ahead new) ∧ (f.2 = true ↔ matched ∧ passed old ∧ ahead new))

/-- R64 to R104: timing events complete. -/
def Obligations.TimingCommandsAnswer : Prop :=
  ∀ (s : State) (t : Nat),
    let b := s.bar.at t
    (s.bar.alive = true →
    (∀ (src : Nat) (offset : Int), Answers s (.syncMessage t src offset) (b.syncMessage src offset)) ∧
    (∀ (p : Fin 4) (domain : Nat) (rank : Nat) (interval : Nat), Answers s (.announceReceived t p domain rank interval) (b.announceReceived p domain rank interval)) ∧
    (∀ (p : Fin 4), Answers s (.announceTimeout t p) (b.announceTimeout p)) ∧
    Answers s (.discHold t) (b.discHold) ∧
    (∀ (te : Nat), Answers s (.syncInEdge t te) (b.syncInEdge te)) ∧
    Answers s (.tbUnlock t) (b.tbUnlock) ∧
    Answers s (.tbHoldoverLimit t) (b.tbLimit) ∧
    Answers s (.tbRelock t) (b.tbRelock) ∧
    Answers s (.refclkLost t) (b.refclkLost) ∧
    Answers s (.refclkReturn t) (b.refclkReturn) ∧
    (∀ (e : Fin 2) (dir : CountDir) (held : Nat), Answers s (.encoderCount t e dir held) (b.encoderCount e dir held)) ∧
    (∀ (e : Fin 2) (w : EncWire), Answers s (.encWire t e w) (b.encWire e w)) ∧
    (∀ (edge : HeldEdge), Answers s (.zEdge t edge) (b.zEdge edge.enc edge.held)) ∧
    Answers s (.zeroSpeed t) (b.zeroSpeed) ∧
    Answers s (.overspeedClear t) (b.overspeedClear) ∧
    Answers s (.syncLost t) (b.syncLost) ∧
    (∀ (r : Nat), Answers s (.triggerRequest t r) (b.triggerRequest r)) ∧
    Answers s (.crawlLineTimeout t) (b.crawlTimeout))

/-- R83 to R86, R379, R392: the modes of the timebase. That the lock loss itself was 8 REFCLK cycles (320 ns) before TB_UNLOCK, where R83 allows up to 400 ns, is the model's reading (log entry 38, DEDUCED); that the ticks of the timers are back on the 2 ns grid after a relock is log entry 98 (DEDUCED). -/
def Obligations.TimebaseLockIsLostAndRegained : Prop :=
  ∀ (s : State) (t : Nat), s.bar.alive = true →
    let b := s.bar.at t
    let tb := b.cap.tb
    let mode (m : TbMode) (u : Option Nat) (n : Nat) : Bar :=
      { b with cap := { b.cap with tb := { tb with mode := m, unlockAt := u, holdoverEntries := n } } }
    let onGrid : Vector Timer 16 := Vector.ofFn fun (i : Fin 16) =>
      let u := b.io.timers[i]
      if u.running && decide (2 * (b.rwN (0x2B10 + i.val) 2 + 1) ≤ 40) then { u with due := u.due + (u.due + tb.stepPhase) % 2 } else u
    let back := (({ mode .pll none tb.holdoverEntries with io := { b.io with timers := onGrid } } : Bar).clearCause fun c => { c with tb := false }).logEvent 0x3021 0
    (tb.mode = .pll → Answers s (.tbUnlock t)
      ((mode .holdover (some (b.now - 320)) (min 0xFFFFFFFF (tb.holdoverEntries + 1))).logEvent 0x3020 0)) ∧
    (tb.mode ≠ .pll → Answers s (.tbUnlock t) b) ∧
    (∀ t0, tb.mode = .holdover → tb.unlockAt = some t0 → t0 + 10000000 ≤ b.now → b.saf.sn.causes.tb = false →
      ∃ b' : Bar, Answers s (.tbHoldoverLimit t) (b'.logEvent 0x3022 0) ∧ b'.saf.sn.engaged = true ∧ b'.saf.sn.causes.tb = true ∧
        b'.cap.tb.mode = .holdover ∧ ∀ i ∈ b'.cap.items, i.published = true ∨ b.saf.sn.engaged = true) ∧
    (b.saf.sn.causes.tb = true → Answers s (.tbHoldoverLimit t) b) ∧
    (tb.mode = .holdover → Answers s (.tbRelock t) back) ∧
    (tb.mode ≠ .holdover → Answers s (.tbRelock t) b) ∧
    (tb.mode ≠ .internal → ∃ b' : Bar, Answers s (.refclkLost t) (b'.logEvent 0x3023 0) ∧ b'.cap.tb.mode = .internal ∧
      b'.saf.sn.engaged = true ∧ b'.saf.sn.causes.tb = true) ∧
    (tb.mode = .internal → Answers s (.refclkLost t) b ∧ Answers s (.refclkReturn t) back) ∧
    (tb.mode ≠ .internal → Answers s (.refclkReturn t) b)

/-- R84, R87, R88, R391: the filter and the position counters, with what a count leaves alone. -/
def Obligations.EncoderCountsMoveOnePosition : Prop :=
  ∀ (s : State) (t : Nat) (e : Fin 2) (dir : CountDir) (held : Nat), s.bar.alive = true →
    let b := s.bar.at t
    let pll := b.cap.tb.mode = .pll
    let f := b.rwN (0x2302 + e.val) 2
    let filter := if pll then f else (f + 39) / 40 * 40
    let stood := if pll then held else held / 40 * 40
    let both : Prop := dir = .both ∨ (¬pll ∧ ∃ c, (b.cap.enc[e]).counts.head? = some c ∧ c.1 = b.now - stood)
    let up : Prop := (dir = .up ∧ b.rwN (0x2302 + e.val) 3 ≠ 1) ∨ (dir = .down ∧ b.rwN (0x2302 + e.val) 3 = 1)
    (stood < filter → Answers s (.encoderCount t e dir held) b) ∧
    (filter ≤ stood → (e = b.feeding → b.cap.syn.base = none → ∀ q ∈ b.cap.cues, q.handed = false) → ∃ b' : Bar, Answers s (.encoderCount t e dir held) b' ∧
      (¬both → up → b'.io.pos[e] = b.io.pos[e] + 1) ∧ (¬both → ¬up → b'.io.pos[e] = b.io.pos[e] - 1) ∧
      (both → b'.io.pos[e] = b.io.pos[e] ∧ (b'.cap.enc[e]).quadErrors = min 0xFFFFFFFF ((b.cap.enc[e]).quadErrors + 1)) ∧
      (∀ o : Fin 2, o ≠ e → b'.io.pos[o] = b.io.pos[o]) ∧
      b'.io.timers = b.io.timers ∧ (∀ k : Fin 64, ∃ x, b'.chan k = { b.chan k with busy := x }) ∧ b'.io.pins = b.io.pins ∧
      b'.io.engines = b.io.engines ∧ b'.par = b.par ∧ b'.ecat = b.ecat ∧ b'.sto = b.sto ∧ b'.thm = b.thm ∧ b'.lines = b.lines ∧
      (e ≠ b.feeding → b'.cap.syn = b.cap.syn ∧ b'.cap.items = b.cap.items))

/-- R123 to R130, R195, R365, R370: capture events complete. -/
def Obligations.CaptureCommandsAnswer : Prop :=
  ∀ (s : State) (t : Nat),
    let b := s.bar.at t
    (s.bar.alive = true →
    (∀ (lane : Fin 32) (te : Nat), Answers s (.cueEdge t lane te) (b.cueTaken lane te)) ∧
    (∀ (lane : Fin 32), Answers s (.stuckCue t lane) (b.stuckCue lane)) ∧
    Answers s (.frameClose t) (b.closeFrames) ∧
    (∀ (lane : Fin 32) (number : Nat), Answers s (.verdictPublish t lane number) (b.verdictPublish lane.val number)) ∧
    (∀ (lane : Fin 32) (number : Nat), Answers s (.verdictLate t lane number) (b.verdictLate lane.val number)) ∧
    (∀ (k : Fin 64), Answers s (.eventRouted t k) (b.eventRouted k)) ∧
    (∀ (bank : Fin 8), Answers s (.bankHoldEnd t bank) (b.bankHoldEnd bank)))

/-- R193: the verdict an item gets, over every item and every state. -/
def Obligations.VerdictOrderOfTheRules : Prop :=
  ∀ (b : Bar) (ix : Nat) (i : Item),
    let v := (b.formVerdict ix i).1
    let r := (b.formVerdict ix i).2.1
    let has (n : Nat) : Prop := v.reasons.testBit n = true
    let excluded : Prop := (∃ n < 15, has n) ∨ has 18 ∨ has 19
    let failed : Prop := ∃ c < 7, v.failClasses.testBit c = true
    let degraded : Prop := has 15 ∨ has 16 ∨ has 17
    (excluded → v.verdict = 3) ∧ (¬excluded → failed → v.verdict = 1) ∧
    (¬excluded → ¬failed → degraded → v.verdict = 2) ∧ (¬excluded → ¬failed → ¬degraded → v.verdict = 0) ∧
    ((i.withReason rSafetyNet).reasons.testBit 7 = true ∧ (b.formVerdict ix (i.withReason rSafetyNet)).1.verdict = 3) ∧
    v.counts = r.counts ∧ v.failClasses < 128 ∧
    (∀ c < 7, v.failClasses.testBit c = true ↔
      (b.formVerdict ix i).2.2.1.isSome = true ∧ 0 < b.pN i.laneSet (0x2520 + i.laneN b 0x2510) (0x0E + c) ∧
        b.pN i.laneSet (0x2520 + i.laneN b 0x2510) (0x0E + c) ≤ r.counts.getD c 0) ∧
    v.number = i.number ∧ v.lane = i.lane ∧ v.tPub = b.now

/-- R47, R193 to R195, R345: publication of one item, and the guard's record (VERDICT at [73:72], REASONS from bit 104, Table 6-7). `findItem` finds an item by lane and number while it has no published verdict. -/
def Obligations.VerdictIsPublishedOnce : Prop :=
  ∀ (s : State) (t lane number : Nat) (l : Fin 32), s.bar.alive = true → l.val = lane →
    let b := s.bar.at t
    ((∀ i ∈ b.cap.items, i.lane = lane → i.number = number → i.published = true) →
      Answers s (.verdictPublish t l number) b ∧ Answers s (.verdictLate t l number) b) ∧
    (∀ (ix : Nat) (i : Item), b.findItem lane number = some ix → b.cap.items[ix]? = some i →
      (b.verdictReady i = false → Answers s (.verdictPublish t l number) b) ∧
      (b.verdictReady i = true → ∃ b' : Bar, Answers s (.verdictPublish t l number) b' ∧
        (b'.cap.items[ix]?.map (·.published)) = some true ∧
        (∀ x, x ≠ ix → b'.cap.items[x]? = b.cap.items[x]?) ∧ b'.cap.insp.published = min 0xFFFFFFFF (b.cap.insp.published + 1) ∧
        b'.par.live = b.par.live ∧ b'.lines = b.lines ∧ b'.saf.sn = b.saf.sn) ∧
      (∀ due, b.deadline i = some due → due ≤ b.now + 50000 → ∃ q : Bar,
        let b' := q.engage 0x5053 fun c => { c with late := true }
        Answers s (.verdictLate t l number) (b'.logEvent 0x5053 (lane * 2 ^ 32 + i.seq.getD 0)) ∧
        (q.cap.items[ix]?.map fun j => (j.published, j.reasons.testBit 8)) = some (true, true) ∧
        (b.ecat.session = true → ∃ record, q.ecat.vq.getLast? = some (b.ecat.vqNext, record, none) ∧ record / 2 ^ 72 % 4 = 3 ∧
          record.testBit 112 = true ∧ record / 2 ^ 64 % 256 = lane ∧ record / 2 ^ 32 % 2 ^ 32 = number % 2 ^ 32) ∧
        q.cap.insp.late = min 0xFFFFFFFF (b.cap.insp.late + 1) ∧ b'.saf.sn.engaged = true ∧ b'.saf.sn.causes.late = true ∧
        (b'.cap.items[ix]?.map (·.published)) = some true) ∧
      (∀ due, b.deadline i = some due → b.now + 50000 < due → Answers s (.verdictLate t l number) b) ∧
      (b.deadline i = none → Answers s (.verdictLate t l number) b))

/-- R208 to R225: nozzle events complete. -/
def Obligations.NozzleCommandsAnswer : Prop :=
  ∀ (s : State) (t : Nat),
    let b := s.bar.at t
    (s.bar.alive = true →
    Answers s (.windowBoundary t) (b.windowBoundary) ∧
    Answers s (.windowClose t) (b.windowClose) ∧
    Answers s (.nozzleLate t) (b.nozzleLate) ∧
    (∀ (j : Fin 16), Answers s (.serialFrameWrite t j) (b.serialWrite j)) ∧
    (∀ (te : Nat), Answers s (.ladderCue t te) (b.ladderCue te)) ∧
    Answers s (.ladderEnd t) (b.ladderEnd))

/-- R216, R217: the five track commands. R172: deletion of a reference. The model's choices: REF_UNKNOWN for an absent handle that an item still names (log entry 129, DESIGN CHOICE), REF_IN_USE for an INGESTING one (log entry 83, DEDUCED). -/
def Obligations.TrackAndReferenceCommands : Prop :=
  ((∀ (s : State) (t : Nat), s.bar.serves 0x2620 = true →
    let b := s.bar.mailAt t
    let first := b.rwN 0x2620 1
    let stop := b.rwN 0x2620 2
    let queued (op : TrackOp) : Bar :=
      ({ b with nz := { b.nz with cmds := b.nz.cmds ++ [⟨op, first, stop, b.now, none⟩] } } : Bar).responds 0x2620 3 0 []
    (first < stop → Answers s (.mask t) (queued .mask) ∧ Answers s (.unmask t) (queued .unmask) ∧
      Answers s (.compensate t) (queued .compensate) ∧ Answers s (.uncompensate t) (queued .uncompensate) ∧
      Answers s (.trackReset t) (queued .reset)) ∧
    (stop ≤ first → ∀ c ∈ [Instr.mask t, .unmask t, .compensate t, .uncompensate t, .trackReset t],
      Answers s c (b.aborts 0x2620 3 0x06090030 0x6001))) ∧
  (∀ (s : State) (t : Nat), (s.bar.alive = true →
    (∃ b' : Bar, Answers s (.mask t) b') ∧
    (∃ b' : Bar, Answers s (.unmask t) b') ∧
    (∃ b' : Bar, Answers s (.compensate t) b') ∧
    (∃ b' : Bar, Answers s (.uncompensate t) b') ∧
    (∃ b' : Bar, Answers s (.trackReset t) b')))) ∧
  ((∀ (s : State) (t handle : Nat), s.bar.serves 0x2540 = true → handle < 2 ^ 32 →
    let b := s.bar.mailAt t
    (b.ref? handle = none → Answers s (.referenceDelete t handle) (b.aborts 0x2540 9 0x06090030 0x5048)) ∧
    (∀ r : Reference, b.ref? handle = some r →
      let used : Prop := r.state = .ingesting ∨ ∃ i ∈ b.cap.items, i.handle = handle ∧ (i.published = false ∨ i.queued = true)
      (used → Answers s (.referenceDelete t handle) (b.aborts 0x2540 9 0x08000022 0x5047)) ∧
      (¬used → ∃ b' : Bar, Answers s (.referenceDelete t handle) (b'.responds 0x2540 9 0 []) ∧ b'.ref? handle = none ∧
        (∀ h, h ≠ handle → b'.ref? h = b.ref? h) ∧ b'.cap.items = b.cap.items ∧ b'.par = b.par))) ∧
  (∀ (s : State) (t : Nat), (s.bar.alive = true →
    (∀ (handle : Nat), ∃ b' : Bar, Answers s (.referenceDelete t handle) b'))))

/-- R171, R246, R248, R251: codec events complete. -/
def Obligations.CodecCommandsAnswer : Prop :=
  ∀ (s : State) (t : Nat),
    let b := s.bar.at t
    (s.bar.alive = true →
    (∀ (descriptor : List Byte) (input : List Byte) (chain : List (List Byte)), Answers s (.jobSubmit t descriptor input chain) (b.submitJob (jobOf .firmware descriptor input chain) chain)) ∧
    Answers s (.inflateJobDone t) (b.inflateDone) ∧
    Answers s (.deflateJobDone t) (b.deflateDone) ∧
    (∀ (handle : Nat), Answers s (.refCommit t handle) (b.refCommit handle)))

/-- R246, R248, R249, R251: the queues of the two engines. DESCRIPTOR_INVALID for a BEST_EFFORT job of more than 1 MiB is the model's choice
(log entry 183). -/
def Obligations.DeflateEnginesServeTheirQueues : Prop :=
  ∀ (s : State) (t : Nat), s.bar.alive = true →
    let b := s.bar.at t
    let c := b.cod
    let becomes (k : Codec) : Bar := { b with cod := k }
    let running (j : Job) : Job := { j with status := .running }
    let next (n : Nat) : Nat := min 0xFFFFFFFF (n + 1)
    (∀ (descriptor input : List Byte) (chain : List (List Byte)),
      let j := jobOf .firmware descriptor input chain
      let invalid : Prop := (∃ d ∈ chain, leAt d 8 4 < 1024 ∨ 16777216 < leAt d 8 4 ∨ leAt d 0x1C 4 ≠ 0 ∨ leAt d 0x18 4 / 4 % 2 ^ 30 ≠ 0) ∨
        (j.deflate = true ∧ j.guaranteed = false ∧ 1048576 < j.input.length)
      j.status = .queued ∧
      (invalid → Answers s (.jobSubmit t descriptor input chain) (becomes { c with lastJob := some { j with error := 0x704D } })) ∧
      (¬invalid → j.deflate = false → Answers s (.jobSubmit t descriptor input chain)
        (becomes { c with inflateQ := c.inflateQ ++ [if c.inflateQ = [] then running j else j] })) ∧
      (¬invalid → j.deflate = true → c.deflateRun = none → Answers s (.jobSubmit t descriptor input chain)
        (becomes { c with deflateRun := some (running j) })) ∧
      (¬invalid → j.deflate = true → c.deflateRun ≠ none → Answers s (.jobSubmit t descriptor input chain)
        (becomes (if j.guaranteed = true then { c with deflateG := c.deflateG ++ [j] } else { c with deflateB := c.deflateB ++ [j] })))) ∧
    (c.inflateQ = [] → Answers s (.inflateJobDone t) b) ∧
    (∀ (j : Job) (rest : List Job), c.inflateQ = j :: rest → j.owner = .firmware → ∃ e : Job,
      e.owner = .firmware ∧ (j.error = 0 → (e.status = .done ∧ e.error = 0) ∨ (e.status = .error ∧ e.error ≠ 0)) ∧
      (e.status = .done → e.check = adler32 e.output ∧ e.produced = e.output.length) ∧
      Answers s (.inflateJobDone t) (becomes { c with
        inflateQ := (rest.take 1).map running ++ rest.drop 1, lastJob := some e
        inflateDone := if e.status = .done then next c.inflateDone else c.inflateDone
        inflateErrors := if e.status = .done then c.inflateErrors else next c.inflateErrors
        lastError := if e.status = .done then c.lastError else e.error
        lastOffset := if e.status = .done then c.lastOffset else e.consumed
        exhausted := if e.error = 0x704B then next c.exhausted else c.exhausted })) ∧
    (c.deflateRun = none → Answers s (.deflateJobDone t) b) ∧
    (∀ j : Job, c.deflateRun = some j → j.owner = .firmware → ∃ e : Job,
      e.owner = .firmware ∧ (e.status = .done ∨ e.status = .noGain ∨ e.status = .error) ∧ (e.status = .noGain → e.error = 0x704C) ∧
      (e.status = .done → e.consumed = j.input.length ∧ e.produced = e.output.length ∧ e.check = adler32 j.input ∧
        (j.wrap = true → e.output.take 2 = [0x78, 0x9C])) ∧
      Answers s (.deflateJobDone t) (becomes { c with
        deflateRun := ((c.deflateG ++ c.deflateB).map running).head?
        deflateG := c.deflateG.drop 1, deflateB := if c.deflateG = [] then c.deflateB.drop 1 else c.deflateB, lastJob := some e
        deflateDone := if e.status = .done then next c.deflateDone else c.deflateDone
        noGain := if e.status = .noGain then next c.noGain else c.noGain
        exhausted := if e.error = 0x704B then next c.exhausted else c.exhausted }))

/-- R265 to R293: storage events complete. -/
def Obligations.StorageCommandsAnswer : Prop :=
  ∀ (s : State) (t : Nat),
    let b := s.bar.at t
    (s.bar.alive = true →
    (∀ (found : Found) (ms : Nat), Answers s (.mount t found ms) (b.mountNow found ms)) ∧
    Answers s (.formatDone t) (b.formatDone) ∧
    Answers s (.pfailAccepted t) (b.pfailAccepted) ∧
    Answers s (.pfailSealed t) (b.sealDone) ∧
    Answers s (.pfailResumed t) (b.sealResume) ∧
    Answers s (.critSealResume t) (b.critSealResume) ∧
    Answers s (.checkpoint t) (b.checkpoint) ∧
    Answers s (.journalFlush t) (b.journalFlush) ∧
    (∀ (handle : Nat) (data : StripeData), Answers s (.stripeRead t handle data) (b.stripeDelivered handle data)) ∧
    (∀ (handle : Nat) (data : StripeData) (pages : BitVec 8), Answers s (.stripeBudget t handle data pages) (b.stripeBudget handle data pages)) ∧
    (∀ (handle : Nat) (stripe : Nat) (lost : Bool), Answers s (.spoolRetryDone t handle stripe lost) (b.spoolRetryDone handle stripe lost)) ∧
    (∀ (place : PlaneAt) (group : Nat), Answers s (.programFailure t place group) (b.retire place.lun place.plane group)) ∧
    (∀ (place : PlaneAt) (group : Nat), Answers s (.eraseFailure t place group) (b.retire place.lun place.plane group)) ∧
    (∀ (group : Nat), Answers s (.eraseDone t group) (b.eraseDone group)) ∧
    (∀ (evidence : Bool), Answers s (.archiveReclaim t evidence) (b.reclaim (if evidence then .evidence else .archive))) ∧
    (∀ (group : Nat), Answers s (.compaction t group) (b.compact group)) ∧
    (∀ (group : Nat) (place : PageAt) (hard : List (Option Nat)) (soft1 : List (Option Nat)) (soft2 : List (Option Nat)) (soft3 : List (Option Nat)), Answers s (.patrolRead t group place hard soft1 soft2 soft3) (b.patrolRead group place (codewords hard soft1 soft2 soft3))) ∧
    Answers s (.patrolBehind t) (b.patrolEnd b.flashHottest) ∧
    Answers s (.seal t) (b.sealEntry) ∧
    (∀ (seq : Nat), Answers s (.itemEntry t seq) (b.itemEntry seq)) ∧
    Answers s (.wearAhead t) (b.wearAhead) ∧
    Answers s (.stagingWrite t) (b.stagingWrite) ∧
    Answers s (.stagingRoom t) (b.stagingRoom) ∧
    (∀ (n : Nat), Answers s (.dataCommitted t n) (b.committed n)))

/-- R265, R273: the storage commands of the dictionary. -/
def Obligations.FormatAndPins : Prop :=
  ((∀ (s : State) (t : Nat), s.bar.serves 0x2800 = true →
    let b := s.bar.mailAt t
    (b.ecat.al ≠ .preop → Answers s (.format t) (b.aborts 0x2800 2 0x08000022 0x8002)) ∧
    (b.ecat.al = .preop → b.rwN 0x2800 3 ≠ 0x464F524D → Answers s (.format t) (b.aborts 0x2800 2 0x08000020 0x8003)) ∧
    (b.ecat.al = .preop → b.rwN 0x2800 3 = 0x464F524D → b.quotaInvalid = false → b.sto.state ≠ .absent → b.sto.state ≠ .mounting → b.sto.state ≠ .sealing →
      ∃ b' : Bar, Answers s (.format t) (b'.responds 0x2800 2 0 []) ∧ b'.rwN 0x2800 3 = 0 ∧ b'.sto.state = .formatting ∧
        b'.cap.refs = [] ∧ b'.sto.pins = [] ∧ b'.sto.chunks = [] ∧ b'.sto.ledger.length = 1 ∧ b'.sto.nextIndex = 1) ∧
    (b.ecat.al = .preop → b.rwN 0x2800 3 = 0x464F524D → b.quotaInvalid = false → b.sto.state = .mounting ∨ b.sto.state = .sealing →
      let c := b.putRw 0x2800 3 (.num 0)
      let q : FormatValues := ⟨c.rwN 0x2801 1, c.rwN 0x2801 2, c.rwN 0x2801 3, c.rwN 0x2801 4⟩
      Answers s (.format t) (({ c with sto := { c.sto with formatPending := some q } } : Bar).responds 0x2800 2 0 []))) ∧
  (∀ (s : State) (t : Nat), s.bar.serves 0x2805 = true →
    let b := s.bar.mailAt t
    let item := (b.rwN 0x2805 1, b.rwN 0x2805 2)
    (b.sto.pinKnown item.1 item.2 = none → Answers s (.pin t) (b.aborts 0x2805 3 0x06090030 0x8005) ∧
      Answers s (.unpin t) (b.aborts 0x2805 3 0x06090030 0x8005)) ∧
    (∀ cs, b.sto.pinKnown item.1 item.2 = some cs →
      (item ∈ b.sto.pins → Answers s (.pin t) (b.responds 0x2805 3 0 [])) ∧
      (item ∉ b.sto.pins → Answers s (.unpin t) (b.responds 0x2805 3 0 [])) ∧
      (∃ b' : Bar, Answers s (.unpin t) (b'.responds 0x2805 3 0 []) ∧ item ∉ b'.sto.pins ∧
        (∀ x, x ≠ item → (x ∈ b'.sto.pins ↔ x ∈ b.sto.pins))) ∧
      ((b.pinItem item.1 item.2 cs).2 = true → ∃ b' : Bar, Answers s (.pin t) (b'.responds 0x2805 3 0 []) ∧ item ∈ b'.sto.pins ∧
        (∀ x, x ≠ item → (x ∈ b'.sto.pins ↔ x ∈ b.sto.pins)) ∧ b'.sto.stored = b.sto.stored)))) ∧
  (∀ (s : State) (t : Nat), (s.bar.alive = true →
    (∃ b' : Bar, Answers s (.format t) b') ∧
    (∃ b' : Bar, Answers s (.pin t) b') ∧
    (∃ b' : Bar, Answers s (.unpin t) b')))

/-- R298 to R314: events of the data plane complete. -/
def Obligations.DeliveryCommandsAnswer : Prop :=
  ∀ (s : State) (t : Nat),
    let b := s.bar.at t
    (s.bar.alive = true →
    (∀ (rx : Rx), Answers s (.hello t rx) (b.hello rx)) ∧
    (∀ (rx : Rx), Answers s (.close t rx) (b.receive rx (onlyType 0 3 fun b h => b.closeSession h.peer 0x9023))) ∧
    (∀ (k : Fin 16), Answers s (.keepaliveSend t k) (b.keepalive k.val)) ∧
    (∀ (rx : Rx), Answers s (.keepaliveReceived t rx) (b.receive rx fun b _ => b)) ∧
    (∀ (k : Fin 16), Answers s (.sessionTimeout t k) (b.sessionTimeout k.val)) ∧
    (∀ (rx : Rx), Answers s (.replayReq t rx) (b.receive rx (onlyType 0 5 Bar.replay))) ∧
    (∀ (rx : Rx) (more : List Rx), Answers s (.benchReq t rx more) (b.benchReceive rx more)) ∧
    (∀ (rx : Rx), Answers s (.spoolBegin t rx) (b.receive rx (onlyType 7 1 Bar.spoolBegin))) ∧
    (∀ (rx : Rx), Answers s (.spoolData t rx) (b.receive rx (onlyType 7 2 Bar.spoolData))) ∧
    (∀ (k : Fin 16), Answers s (.spoolAck t k) (b.spoolAck k.val)) ∧
    (∀ (k : Fin 16), Answers s (.uploadAborted t k) (b.uploadTimeout k.val)) ∧
    (∀ (rx : Rx), Answers s (.readbackRequest t rx) (b.receive rx (onlyType 8 1 Bar.readbackRequest))) ∧
    (∀ (rx : Rx), Answers s (.credit t rx) (b.receive rx (onlyType 8 2 Bar.credit))) ∧
    (∀ (rx : Rx), Answers s (.commandRecord t rx) (b.receive rx (onlyType 2 1 Bar.nozzleRecords))) ∧
    (∀ (rx : Rx), Answers s (.snapshot t rx) (b.receive rx (onlyType 2 1 Bar.nozzleRecords))) ∧
    (∀ (rx : Rx), Answers s (.kspMalformed t rx) (b.kspMalformed rx)) ∧
    (∀ (p : Ingress) (mac : List Byte) (sender : List Byte) (target : List Byte), Answers s (.arpRequest t p mac sender target) (b.arpRequest p.port p.tag mac sender target)) ∧
    (∀ (p : Ingress) (sender : List Byte) (target : List Byte), Answers s (.neighbourSolicitation t p sender target) (b.neighbourSolicitation p.port p.tag p.fragment sender target)) ∧
    (∀ (p : Ingress) (v6 : Bool) (sender : List Byte) (target : List Byte) (rest : List Byte), Answers s (.echoRequest t p v6 sender target rest) (b.echoRequest p.port p.tag v6 p.fragment sender target rest)) ∧
    (∀ (p : Fin 4), Answers s (.peerDelayRequest t p) (b.peerDelayRequest p)) ∧
    (∀ (p : Fin 4), Answers s (.linkDown t p) (b.linkDown p)) ∧
    (∀ (p : Fin 4), Answers s (.linkUp t p) (b.linkUp p)) ∧
    (∀ (p : Fin 4), Answers s (.gateEntryStart t p) (((b.gateEntryStart p).benchResume p).readbackResume p)))

/-- R299, R309: links and the session timeout. -/
def Obligations.LinkChangesLeaveSessions : Prop :=
  (∀ (s : State) (t : Nat) (p : Fin 4), s.bar.alive = true →
    let b := s.bar.at t
    ((b.dlv.ports[p]).up = true → ∃ b' : Bar, Answers s (.linkDown t p) (b'.logEvent 0x9024 0) ∧
      (b'.dlv.ports[p]).up = false ∧ (b'.dlv.ports[p]).queue = [] ∧
      b'.dlv.discarded = min 0xFFFFFFFF (b.dlv.discarded + (b.dlv.ports[p]).queue.length) ∧
      (∀ o : Fin 4, o ≠ p → b'.dlv.ports[o] = b.dlv.ports[o]) ∧ b'.dlv.sessions = b.dlv.sessions ∧ b'.cap = b.cap ∧
      b'.saf = b.saf ∧ b'.ecat = b.ecat ∧ b'.par = b.par) ∧
    ((b.dlv.ports[p]).up = false → Answers s (.linkDown t p) b) ∧
    ((b.dlv.ports[p]).up = true ∨ b.portOn p = false → Answers s (.linkUp t p) b) ∧
    ((b.dlv.ports[p]).up = false → b.portOn p = true → ∃ b' : Bar, Answers s (.linkUp t p) (b'.logEvent 0x9025 0) ∧
      (b'.dlv.ports[p]).up = true ∧ (∀ o : Fin 4, o ≠ p → b'.dlv.ports[o] = b.dlv.ports[o]) ∧ b'.dlv.sessions = b.dlv.sessions)) ∧
  (∀ (s : State) (t : Nat) (k : Fin 16) (x : Session), s.bar.alive = true →
    let b := s.bar.at t
    b.session? k.val = some x →
    (b.now < x.lastRx + 1000000000 → Answers s (.sessionTimeout t k) b) ∧
    (x.lastRx + 1000000000 ≤ b.now → ∃ b' : Bar, Answers s (.sessionTimeout t k) (b'.logEvent 0x9022 0) ∧ b'.session? k.val = none ∧
      (∀ j, j ≠ k.val → (b'.session? j).isSome = (b.session? j).isSome) ∧ b'.saf = b.saf ∧ b'.cap.items = b.cap.items))

/-- R349 to R351 and the rules of the files: FoE requests complete. -/
def Obligations.FilesAreAnswered : Prop :=
  ∀ (s : State) (t : Nat),
    let b := s.bar.at t
    (s.bar.alive = true →
    (∀ (step : FoeStep), Answers s (.firmwareWrite t step) (b.foeWrite .firmware step)) ∧
    (∀ (step : FoeStep), Answers s (.calibrationWrite t step) (b.foeWrite .calibration step)) ∧
    (∀ (step : FoeStep), Answers s (.mapWrite t step) (b.foeWrite .nozzleMap step)) ∧
    (∀ (step : FoeStep), Answers s (.profileWrite t step) (b.foeWrite .mediaProfile step)) ∧
    Answers s (.jobContainerWrite t) (b.foeJob) ∧
    (∀ (packet : Nat) (bytes : List Byte), Answers s (.foeDataPacket t packet bytes) (b.foePacket packet bytes)) ∧
    Answers s (.eventlogFileRead t) (b.foeEventlog) ∧
    Answers s (.logbundleRead t) (b.foeBundle) ∧
    Answers s (.identityCertRead t) (b.foeIdentity) ∧
    Answers s (.quoteRead t) (b.foeQuote) ∧
    (∀ (file : Option FoeFile), Answers s (.foeUnknownName t file) (b.foeUnknown file)))

/-- R333, R349, R350, Table 11-12: refusals, and the data packets of a transfer. The model's readings: a packet without a transfer has no effect (log entry 164, DEDUCED), and the BUSY goes out at once after the last packet (log entry 84, DEDUCED). -/
def Obligations.FoeRequestsAreRefused : Prop :=
  ∀ (s : State) (t : Nat), s.bar.alive = true →
    let b := s.bar.at t
    let refused (error detail : Nat) : Bar :=
      ({ b with sm1 := b.sm1 ++ [.foeError error (foeText detail)], foeDetail := detail } : Bar).logEvent detail 0
    (b.ecat.al = .init → (∀ f, Answers s (.foeUnknownName t f) b) ∧ Answers s (.eventlogFileRead t) b ∧ Answers s (.quoteRead t) b ∧
      Answers s (.firmwareWrite t .request) b ∧ Answers s (.calibrationWrite t .request) b ∧ Answers s (.mapWrite t .request) b ∧
      Answers s (.profileWrite t .request) b) ∧
    (b.ecat.al ≠ .init → b.foe = none → Answers s (.foeUnknownName t none) (refused 0x8001 0x30) ∧
      ∀ f, Answers s (.foeUnknownName t (some f)) (refused 0x8002 0x31)) ∧
    (b.ecat.al ≠ .init → b.ecat.al ≠ .preop → b.foe = none → b.sec.recovery = false →
      Answers s (.firmwareWrite t .request) (refused 0x8002 0x31) ∧
      Answers s (.calibrationWrite t .request) (refused 0x8002 0x4008) ∧
      Answers s (.profileWrite t .request) (refused 0x8002 0x8002)) ∧
    (b.ecat.al ≠ .init → ∀ f, b.foe = some f →
      Answers s (.firmwareWrite t .request) (refused 0x8000 0x34) ∧ Answers s (.jobContainerWrite t) (refused 0x8000 0x34) ∧
      Answers s (.quoteRead t) (refused 0x8000 0x34) ∧ ∀ g, Answers s (.foeUnknownName t g) (refused 0x8000 0x34)) ∧
    (b.foe = none → (∀ (n : Nat) (data : List Byte), Answers s (.foeDataPacket t n data) b) ∧ Answers s (.firmwareWrite t .checked) b ∧
      Answers s (.calibrationWrite t .checked) b ∧ Answers s (.mapWrite t .checked) b ∧ Answers s (.profileWrite t .checked) b) ∧
    (∀ (f : FoeTransfer) (n : Nat) (data : List Byte), b.foe = some f → f.file = .nozzleMap → f.checking = false →
      (n ≠ f.nextPacket → Answers s (.foeDataPacket t n data)
        (({ b with foe := none, sm1 := b.sm1 ++ [.foeError 0x8005 (foeText 0x33)], foeDetail := 0x33 } : Bar).logEvent 0x33 0)) ∧
      (n = f.nextPacket → 81956 < (f.bytes ++ data).length → Answers s (.foeDataPacket t n data)
        (({ b with foe := none, sm1 := b.sm1 ++ [.foeError 0x8003 (foeText 0x32)], foeDetail := 0x32 } : Bar).logEvent 0x32 0)) ∧
      (n = f.nextPacket → (f.bytes ++ data).length ≤ 81956 → data.length = 1012 → Answers s (.foeDataPacket t n data)
        { b with foe := some { f with nextPacket := n + 1, bytes := f.bytes ++ data }, sm1 := b.sm1 ++ [.foeAck n] }) ∧
      (n = f.nextPacket → (f.bytes ++ data).length ≤ 81956 → data.length < 1012 → Answers s (.foeDataPacket t n data)
        { b with foe := some { f with nextPacket := n + 1, bytes := f.bytes ++ data, checking := true, busySince := some b.now }
                 sm1 := b.sm1 ++ [.foeBusy] }))

/-- R20, R21, R120, R397 to R412: thermal events complete. -/
def Obligations.ThermalCommandsAnswer : Prop :=
  ∀ (s : State) (t : Nat),
    let b := s.bar.at t
    (s.bar.alive = true →
    (∀ (ms : List (Nat × Nat × Nat)), Answers s (.slackMeasurement t ms) (b.slackMeasure ms)) ∧
    (∀ (ack : Bool) (pec : Bool), Answers s (.slackInterval ⟨t, ack, pec⟩) (b.slackInterval (b.writeTaken ack pec))) ∧
    (∀ (ack : Bool) (pec : Bool), Answers s (.vcoreLower ⟨t, ack, pec⟩) (b.vcoreLower (b.writeTaken ack pec))) ∧
    Answers s (.slackSafetyNet t) (b.slackNet) ∧
    (∀ (answer : PmbusAnswer), Answers s (.pmbusPoll t answer) (b.pmbusPoll (b.pecChecked answer.vout) (b.pecChecked answer.status) answer.clear)) ∧
    (∀ (answer : PmbusAnswer), Answers s (.pmbusRetry t answer) (b.pmbusRetry (b.pecChecked answer.vout) answer.clear)) ∧
    (∀ (i : Fin 26), Answers s (.demandStepUp t i) (b.demandUp i)) ∧
    (∀ (i : Fin 26), Answers s (.demandStepDown t i) (b.demandDown i)) ∧
    Answers s (.compStep t) (b.settlePStep b.lines) ∧
    Answers s (.bStep t) (b.settleB) ∧
    (∀ (i : Fin 26) (word : Word32), Answers s (.substituteAssign t i word) (b.sdoFrame (.request (mailRequest .download 0x2C02 (i.val + 1) (leBytes 4 word.toNat)))))) ∧
    (s.bar.alive = true ∨ s.bar.saf.power = .shutdown →
    (∀ (i : Fin 26) (reading : Nat) (flagged : Bool), Answers s (.sensorSample t i reading flagged) (b.sensorSample i reading flagged)) ∧
    Answers s (.thermalRestart t) (b.thermalRestart)) ∧
    (
    (∀ (i : Fin 26) (peak : Int) (openFor : Nat), exec (.thermalTrip t i peak openFor) s = .next { s with bar := (b.thermalTrip i peak openFor).after }))

/-- R397, R402, R415: filter and demand. That any sensor's filtered sample puts the settings in force is log entry 142's
choice; rounds and slots as multiples of their length on the timebase are log entry 90's. -/
def Obligations.SensorsAreFilteredAndDemand : Prop :=
  (∀ (s : State) (t reading : Nat) (i : Fin 26) (r1 r2 r3 : Int) (rest : List Int), s.bar.alive = true →
    let b := s.bar.at t
    let raw := b.sensorTemp i reading
    let mid := (raw + r1 + r2 + r3 - max (max raw r1) (max r2 r3) - min (min raw r1) (min r2 r3)) / 2
    b.sensorThere i.val = true → b.sensorDue i = true → (b.thm.sensors[i]).failed = false → (b.thm.sensors[i]).raws = r1 :: r2 :: r3 :: rest →
    -640 ≤ raw → raw ≤ 2400 → ∃ b' : Bar, Answers s (.sensorSample t i reading false) b' ∧ (b'.thm.sensors[i]).filtered = some mid ∧
      (b'.thm.sensors[i]).raws = [raw, r1, r2, r3] ∧ b'.thm.inForce = some (b.par.rw.filter fun e => atFiltered e.1) ∧
      ∀ j : Fin 26, j ≠ i → (b'.thm.sensors[j]).raws = (b.thm.sensors[j]).raws) ∧
  (∀ (b : Bar) (i : Fin 26), b.sensorOn i.val = false → b.driveOf i = 0) ∧
  (∀ (s : State) (t u reading : Nat) (i : Fin 26) (flagged : Bool), s.bar.alive = true →
    let b := s.bar.at t
    let round := if b.sensorFast i = true then 1000000 else 8000000
    (b.sensorThere i.val = false → Answers s (.sensorSample t i reading flagged) b) ∧
    ((b.thm.sensors[i]).sampledAt = some u → u / round = b.now / round → Answers s (.sensorSample t i reading flagged) b) ∧
    (b.thm.slotAt = some u → u / 25000 = b.now / 25000 → Answers s (.sensorSample t i reading flagged) b) ∧
    (∀ j : Fin 26, i < j → b.sensorFast i = false → b.sensorFast j = false → (b.thm.sensors[j]).sampledAt = some u →
      u / 8000000 = b.now / 8000000 → Answers s (.sensorSample t i reading flagged) b)) ∧
  (∀ (s : State) (t u : Nat) (i : Fin 26), s.bar.alive = true →
    let b := s.bar.at t
    let x := b.thm.sensors[i]
    let moved (c : Instr) (d : Nat) : Prop := ∃ b' : Bar, Answers s c b' ∧ (b'.thm.sensors[i]).demand = d ∧
      (∀ j : Fin 26, j ≠ i → b'.thm.sensors[j] = b.thm.sensors[j]) ∧ b'.par = b.par ∧ b'.sto = b.sto
    (x.stepFrom = some u → x.hot = true → u + (b.forceI 0x2C10 1).toNat * 1000000 ≤ b.now →
      moved (.demandStepUp t i) (min 8 (x.demand + 1))) ∧
    (x.leftAt = some u → x.hot = false → 0 < x.demand → u + (b.forceI 0x2C10 2).toNat * 1000000 ≤ b.now →
      moved (.demandStepDown t i) (x.demand - 1)) ∧
    (x.stepFrom = none ∨ x.hot = false → Answers s (.demandStepUp t i) b) ∧
    (x.stepFrom = some u → b.now < u + (b.forceI 0x2C10 1).toNat * 1000000 → Answers s (.demandStepUp t i) b) ∧
    (x.leftAt = none ∨ x.hot = true → Answers s (.demandStepDown t i) b) ∧
    (x.leftAt = some u → b.now < u + (b.forceI 0x2C10 2).toNat * 1000000 → Answers s (.demandStepDown t i) b))

/-- R21, R410 to R412: PMBus transactions. The last clause is the worked example of R411. The 100 ms begun anew after 5 mV less, the
new voltage taking over the waiting retry's count, rounding half up and a nonzero STATUS_WORD as a fault are log entry 92's choices. -/
def Obligations.VcoreIsAskedFor : Prop :=
  (∀ (s : State) (t : Nat), s.bar.alive = true →
    let b := s.bar.at t
    let m := b.thm
    let msg (cmd : Nat) (data : Option Nat) : PmbusSent := ⟨b.rwN 0x2C20 2, cmd, data, decide (b.rwN 0x2C20 4 = 1)⟩
    let polled : List PmbusSent := msg 0x79 none :: msg 0x8B none :: m.sent
    let lower := max 550 (m.vcore - 5)
    let restored : AvsState := if m.avs = .fault then .active else m.avs
    let Lost (r : PmbusReply) : Prop := r.value = none ∨ (b.rwN 0x2C20 4 = 1 ∧ r.pec = false)
    let p : Thermal := { m with polledAt := some b.now, sent := polled }
    (b.pollDue = true → m.waiting .readVout = none → m.waiting .readStatus = none → ∀ x y v clear,
      (Lost x → Lost y → Answers s (.pmbusPoll t ⟨x, y, clear⟩)
        { b with thm := { p with retries := m.retries ++ [⟨.readVout, 1, b.now⟩, ⟨.readStatus, 1, b.now⟩] } }) ∧
      (Lost x → Answers s (.pmbusPoll t ⟨x, ⟨some 0, true⟩, clear⟩)
        { b with thm := { p with retries := m.retries ++ [⟨.readVout, 1, b.now⟩], avs := restored, statusWord := 0 } }) ∧
      (Lost y → v ≤ m.vcore + 20 → m.vcore ≤ v + 20 → Answers s (.pmbusPoll t ⟨⟨some v, true⟩, y, clear⟩)
        { b with thm := { p with retries := m.retries ++ [⟨.readStatus, 1, b.now⟩], avs := restored, vread := v, mismatch := 0 } })) ∧
    (∀ u a, m.polledAt = some u → b.now < u + 100000000 → Answers s (.pmbusPoll t a) b) ∧
    (b.pollDue = true → ∀ v clear, v ≤ m.vcore + 20 → m.vcore ≤ v + 20 → Answers s (.pmbusPoll t ⟨⟨some v, true⟩, ⟨some 0, true⟩, clear⟩)
      { b with thm := { p with retries := ({ m with retries := m.notWaiting .readVout } : Thermal).notWaiting .readStatus
                               avs := restored, vread := v, statusWord := 0, mismatch := 0 } }) ∧
    (b.pollDue = true → ∀ v w clear, w ≠ 0 → ∃ b' : Bar, Answers s (.pmbusPoll t ⟨⟨some v, true⟩, ⟨some w, true⟩, clear⟩) b' ∧
      b'.thm.sent = msg 0x03 none :: polled ∧ b'.thm.statusWord = w ∧ b'.thm.vread = v) ∧
    ((∀ r ∈ m.retries, b.now < r.at_ + 1000000) → ∀ a, Answers s (.pmbusRetry t a) b) ∧
    (∀ (v n u : Nat) (e : Int) (rest : List PmbusRetry), m.retries = ⟨.vout v, n, u⟩ :: rest → u + 1000000 ≤ b.now → m.vexp = some e →
      let sent : List PmbusSent := msg 0x21 (some (voutCommand v e)) :: m.sent
      (∀ a y clear, Answers s (.pmbusRetry t ⟨⟨some a, true⟩, y, clear⟩)
        { b with thm := { m with sent := sent, retries := m.notWaiting (.vout v), avs := restored, vcore := v } }) ∧
      (n < 2 → ∀ x y clear, Lost x → Answers s (.pmbusRetry t ⟨x, y, clear⟩)
        { b with thm := { m with sent := sent, retries := m.notWaiting (.vout v) ++ [⟨.vout v, n + 1, b.now⟩] } }) ∧
      (2 ≤ n → ∀ x y clear, Lost x → Answers s (.pmbusRetry t ⟨x, y, clear⟩)
        (({ b with thm := { m with sent := sent, retries := m.notWaiting (.vout v), pmbusFaults := min 0xFFFFFFFF (m.pmbusFaults + 1)
                                   avs := if m.avs = .disabled then .disabled else .fault } } : Bar).logEvent 0xC031 0))) ∧
    (∀ u e, m.highSince = some u → u + 100000000 ≤ b.now → 550 < m.vcore → m.vcore ≤ 850 → m.avs = .active → m.vexp = some e →
      let sent : List PmbusSent := msg 0x21 (some (voutCommand lower e)) :: m.sent
      (m.waiting (.vout lower) = none → Answers s (.vcoreLower ⟨t, true, true⟩) { b with thm := { m with
        highSince := some b.now, sent := sent, retries := m.notWaiting (.vout lower), avs := restored, vcore := lower } }) ∧
      (m.waiting (.vout lower) = none → ∀ pec, Answers s (.vcoreLower ⟨t, false, pec⟩) { b with thm := { m with
        highSince := some b.now, sent := sent, retries := m.notWaiting (.vout lower) ++ [⟨.vout lower, 1, b.now⟩] } }) ∧
      (∀ r, m.waiting (.vout lower) = some r → b.now < r.at_ + 1000000 → ∀ ack pec, Answers s (.vcoreLower ⟨t, ack, pec⟩) { b with thm := { m with
        highSince := some b.now, retries := m.notWaiting (.vout lower) ++ [{ r with op := .vout lower }] } })) ∧
    (m.highSince = none → ∀ ack pec, Answers s (.vcoreLower ⟨t, ack, pec⟩) b)) ∧
  voutCommand 760 (-12) = 0x0C29

/-- R344, R420 to R437: events of the Ringmaster complete. -/
def Obligations.RingmasterCommandsAnswer : Prop :=
  ∀ (s : State) (t : Nat),
    let b := s.bar.at t
    (s.bar.alive = true →
    (∀ (seven : Bool), Answers s (.hostCheckin t seven) (b.hostCheckin seven)) ∧
    Answers s (.snRelease t) (b.snRelease) ∧
    Answers s (.watchdogPeriodClose t) (b.periodClose) ∧
    (∀ (slot : Fin 6), Answers s (.firmwareCheckin t slot) (b.checkIn ⟨slot.val, by omega⟩ b.now)) ∧
    Answers s (.resetHubAndSegments t) (b.resetHub) ∧
    (∀ (level : Bool) (held : Nat), Answers s (.faultnReadback ⟨t, level, held⟩) (b.faultReadback level held)) ∧
    Answers s (.lockstepMismatch t) (b.lockstepMismatch) ∧
    (∀ (seg : Nat) (cls : Nat), Answers s (.stageStall t seg cls) (b.stageStall seg cls)) ∧
    (∀ (region : Fin 8) (addr : Nat), Answers s (.dramUncorrectable t region addr) (b.dramUncorrectable region addr)) ∧
    Answers s (.stolenLine t) (b.stolenLine) ∧
    (∀ (test : Nat) (seg : Nat) (unit : Nat) (r : TestReading), Answers s (.inServiceTest t test seg unit r) (b.serviceTest test seg unit r)) ∧
    Answers s (.coveragePassEnd t) (b.passEnd) ∧
    Answers s (.coveragePassOverrun t) (b.passOverrun) ∧
    (∀ (found : List (Fin 8 × Nat)), Answers s (.dramScrub t found) (b.dramScrub found)) ∧
    (∀ (lost : List (Fin 13 × Nat)), Answers s (.mramScrub ⟨t, lost⟩) (b.mramScrub lost)) ∧
    (∀ (cause : ClearCause), Answers s (.causeClears t cause) (b.causeClears cause)))

/-- R46, R47, R422: engagement as one event, on the cause that holds until reset (R421). -/
def Obligations.SafetyNetEngagesOnce : Prop :=
  ∀ (s : State) (t : Nat), s.bar.alive = true →
    let b := s.bar.at t
    let n := b.saf.sn
    let causes : Causes := { n.causes with lockstep := true }
    (n.engaged = false → ∃ b' : Bar, Answers s (.lockstepMismatch t) (b'.logEvent 0xD02C 0) ∧
      b'.saf.sn.engaged = true ∧ b'.saf.sn.causes = causes ∧ b'.saf.sn.lastEngaged = b.now ∧ b'.saf.sn.lastCode = 0xD02C ∧
      b'.saf.sn.engagements = min 0xFFFFFFFF (n.engagements + 1) ∧ b'.faultHigh = false ∧
      b'.cap.items.length = b.cap.items.length ∧ (∀ i ∈ b'.cap.items, i.published = true) ∧
      (∀ (x : Nat) (i : Item), b.cap.items[x]? = some i → i.published = true → b'.cap.items[x]? = some i) ∧
      (b'.log.entries.head?.map fun e => (e.code, e.severity, e.arg)) = some (0xD020, 3, n.since ||| causes.bits) ∧
      b'.par.live = b.par.live ∧ b'.lines = b.lines ∧ b'.ecat.al = b.ecat.al) ∧
    (n.engaged = true → Answers s (.lockstepMismatch t)
      (({ b with saf := { b.saf with sn := { n with causes := causes, since := n.since ||| causes.bits } } } : Bar).logEvent 0xD02C 0))

/-- R425, R426: release. Log entry 13: a request while the Safety Net is released has no effect. -/
def Obligations.SafetyNetRelease : Prop :=
  ∀ (s : State) (t : Nat), s.bar.alive = true →
    let b := s.bar.at t
    let n := b.saf.sn
    let taken : Bar := { b with ecat := { b.ecat with releasePend := false } }
    let passed : Prop := ∃ u, b.saf.ist.cleanPass = some u ∧ n.lastClear ≤ u
    let fit : Prop := n.causes.bits = 0 ∧ passed ∧ (b.ecat.al = .safeop ∨ b.ecat.al = .op)
    (b.ecat.releasePend = false → Answers s (.snRelease t) b) ∧
    (b.ecat.releasePend = true → n.engaged = false → Answers s (.snRelease t) taken) ∧
    (b.ecat.releasePend = true → n.engaged = true → fit → Answers s (.snRelease t)
      (({ taken with saf := { b.saf with sn := { n with engaged := false, since := 0, lastRelease := b.ecat.sampleTime } } } : Bar).logWith
        0xD021 0 1 false true)) ∧
    (b.ecat.releasePend = true → n.engaged = true → ¬fit → ∃ arg, Answers s (.snRelease t) (taken.logEvent 0xD022 arg) ∧
      (passed → arg = n.causes.bits) ∧ (¬passed → arg = n.causes.bits + 2 ^ 16))

/-- R433 to R435: the close of a period. The host slots' consequences (R436) are not stated here. The model's readings (log entry 168, DEDUCED): PASSED of an unsupervised host slot follows its check-ins and its MISSES do not; a period does not close once a reset is decided. -/
def Obligations.WatchdogPeriodCloses : Prop :=
  ∀ (s : State) (t : Nat), s.bar.alive = true →
    let b := s.bar.at t
    let stop := b.saf.wdg.tk + b.saf.wdg.inForce.period
    let w := (if b.ecat.sampleTime < stop then (b.hostCheckin false).hostCheckin true else b).saf.wdg
    let window (i : Fin 8) : Nat × Nat :=
      if i.val < 6 then (w.tk + w.inForce.fo, w.tk + w.inForce.fc) else (w.tk + w.inForce.ho, w.tk + w.inForce.hc)
    let good (i : Fin 8) : Prop := ∃ u, ((w.slots[i]).times.filter fun x => x < stop) = [u] ∧ (window i).1 ≤ u ∧ u < (window i).2
    let missed (i : Fin 8) : Prop := (w.slots[i]).supervised = true ∧ ¬good i
    (b.saf.wdg.started = false ∨ b.now < stop ∨ b.saf.resetAt.isSome = true → Answers s (.watchdogPeriodClose t) b) ∧
    (b.saf.wdg.started = true → stop ≤ b.now → b.saf.resetAt = none → ∃ b' : Bar, Answers s (.watchdogPeriodClose t) b' ∧
      b'.saf.wdg.k = w.k + 1 ∧ b'.saf.wdg.tk = stop ∧ b'.saf.wdg.inForce = b.wdgSettings ∧
      (∀ i : Fin 8, let x := b'.saf.wdg.slots[i]
        (x.passed = true ↔ good i) ∧ (missed i → x.misses = min 0xFFFF ((w.slots[i]).misses + 1)) ∧
        (¬missed i → x.misses = (w.slots[i]).misses) ∧ x.times = ((w.slots[i]).times.filter fun u => stop ≤ u)) ∧
      ((∃ i : Fin 8, i.val < 6 ∧ missed i) → w.fwMissed = false → b'.saf.sn.engaged = true ∧ b'.saf.sn.causes.fw = true ∧
        b'.saf.wdg.fwMissed = true) ∧
      ((∃ i : Fin 8, i.val < 6 ∧ missed i) → w.fwMissed = true → b'.saf.resetAt = some (b.now, 0xD029)) ∧
      ((∀ i : Fin 8, i.val < 6 → ¬missed i) → b'.saf.sn.causes.fw = false ∧ b'.saf.wdg.fwMissed = false))

/-- R421, R424, R437: the request of FAULT_N as an invariant of every step, and the reset its readback decides. That a difference
counts from the change of the request on, where that is the later, is the model's reading (log entry 168, DEDUCED). -/
def Obligations.FaultRequestFollowsTheState : Prop :=
  (∀ s s' : State, s.bar.faultNoted = true → step s = .next s' → s'.bar.faultNoted = true) ∧
  (∀ (s : State) (t : Nat) (level : Bool) (held : Nat), s.bar.alive = true →
    let b := s.bar.at t
    (b.faultHigh = true ↔ b.ecat.al = .op ∧ b.saf.sn.engaged = false ∧ b.saf.ist.done = true ∧ b.saf.power = .running ∧
      b.saf.resetAt = none ∧ b.saf.faultMismatch = false) ∧
    (level = b.faultHigh ∨ held < 2000 ∨ b.now < b.saf.faultAt + 2000 → Answers s (.faultnReadback ⟨t, level, held⟩) b) ∧
    (level ≠ b.faultHigh → 2000 ≤ held → b.saf.faultAt + 2000 ≤ b.now → b.saf.resetAt = none → ∃ b' : Bar,
      Answers s (.faultnReadback ⟨t, level, held⟩) b' ∧ b'.saf.resetAt = some (b.now, 0xD02D) ∧ b'.faultHigh = false ∧
      b'.saf.ret.lastCause = 0xD02D ∧ b'.saf.ret.running = false ∧ b'.saf.ret.wdgResets = min 0xFFFF (b.saf.ret.wdgResets + 1) ∧
      (∃ e ∈ b'.log.entries, e.code = 0xD02D ∧ e.time = b.now) ∧ (b.sto.state = .mounted → b'.sto.state = .sealing)))

/-- R427 to R431, Table 15-3: one test, the claim of a stolen line, and the end of a pass. The model's reading of R427's sources, and of
the order in which tests take stolen lines, is log entry 143. -/
def Obligations.InServiceTestsCoverAndFail : Prop :=
  ∀ (s : State) (t test seg unit : Nat) (r : TestReading), s.bar.alive = true →
    let b := s.bar.at t
    let ist := b.saf.ist
    let key := (test, seg, unit)
    let units (c g : Nat) : Nat :=
      if 1 ≤ c ∧ c ≤ 6 then
        (if g < b.segs ∧ (b.cap.segs[segIx g]).present = true then (if c = 1 then 30720 else if c = 2 then 30 else 1) else 0)
      else if g ≠ 0xFF then 0 else if 7 ≤ c ∧ c ≤ 9 then 1 else if c = 10 then 16 else 0
    let near (tol : Nat) : Prop := r.got.length = r.want.length ∧ ∀ p ∈ r.got.zip r.want, (p.1 - p.2).natAbs ≤ tol
    let passes : Prop :=
      if test = 1 then r.want.length = 2 ∧ near (b.rwN 0x2D10 0x0A)
      else if test = 2 then ∀ e ∈ ist.darkRuns, e.1 = (seg, unit) → e.2.2 = false
      else if test = 5 then r.got = r.want ∧ r.faults ≤ 1 else if test = 10 then near 1 else r.got = r.want
    let lines : List Nat := [1, 3, 4, 5, 6]
    let served : Prop := test ∉ lines ∨ (b.testSource test).isSome = true
    let lookback : Nat := match ist.passed.find? fun e => e.1 = key with | some e => e.2 | none => 0
    let word := test % 256 + seg % 256 * 256 + unit % 65536 * 65536
    let interval := b.now / (max 1 (b.rwN 0x2D10 1) * 4000)
    let covered : Prop := ∀ c g, c < 11 → g < b.segs ∨ g = 0xFF →
      (ist.tested.countP fun (e : Nat × Nat × Nat) => e.1 = c && e.2.1 = g) = units c g
    let d := b.now - ist.passStart
    (units test seg ≤ unit ∨ ¬served → Answers s (.inServiceTest t test seg unit r) b) ∧
    (b.ecat.session = false → b.testSource test = some 1) ∧
    (unit < units test seg → served → passes → ∃ b' : Bar, Answers s (.inServiceTest t test seg unit r) b' ∧
      key ∈ b'.saf.ist.tested ∧ (key, b.liveLine) ∈ b'.saf.ist.passed ∧ b'.saf.ist.passClean = ist.passClean ∧
      (test = 2 → (b'.cap.segs[segIx seg]).darkOk = true) ∧
      b'.saf.ist.stolenReady = (if test ∈ lines ∧ b.testSource test = some 4 ∧ test ∉ ist.linesFor
        then ist.stolenReady - (if test = 3 then 4 else 2) else ist.stolenReady) ∧
      b'.saf.sn.causes = (if key ∈ ist.tested then b.saf.sn.causes else { b.saf.sn.causes with
        istFails := (b.saf.sn.causes.istFails.map fun e => if e.1 = key then (e.1, e.2 + 1) else e).filter fun e => decide (e.2 < 3) }) ∧
      b'.saf.sn.engaged = b.saf.sn.engaged ∧ b'.log = b.log ∧ b'.par = b.par ∧ b'.ecat = b.ecat ∧ b'.cap.items = b.cap.items ∧
      b'.lines = b.lines ∧ b'.sto = b.sto ∧ b'.io = b.io) ∧
    (unit < units test seg → served → ¬passes → ∃ b' : Bar,
      Answers s (.inServiceTest t test seg unit r) (b'.logEvent 0xD031 (word * 2 ^ 32 + lookback % 2 ^ 32)) ∧
      key ∈ b'.saf.ist.tested ∧ b'.saf.ist.lastFail = word ∧ b'.saf.ist.lookback = lookback ∧ b'.saf.ist.passClean = false ∧
      (test = 2 → (b'.cap.segs[segIx seg]).darkOk = false) ∧ (key, 0) ∈ b'.saf.sn.causes.istFails ∧ b'.saf.sn.engaged = true) ∧
    b.linesWanted ≤ 12 ∧
    (b.ecat.session = true → ist.claimed = false → ist.lastSteal ≠ some interval → ist.idleServed ≠ some interval →
      ist.stolenReady < b.linesWanted →
      Answers s (.stolenLine t) { b with saf := { b.saf with ist := { ist with claimed := true } } }) ∧
    (b.ecat.session = false ∨ ist.claimed = true ∨ ist.lastSteal = some interval ∨ ist.idleServed = some interval ∨
      b.linesWanted ≤ ist.stolenReady → Answers s (.stolenLine t) b) ∧
    (¬covered → Answers s (.coveragePassEnd t) b) ∧
    (covered → ∃ b' : Bar, Answers s (.coveragePassEnd t) b' ∧ b'.saf.ist.done = true ∧
      b'.saf.ist.passes = min 0xFFFFFFFF (ist.passes + 1) ∧ b'.saf.ist.lastDuration = d / 1000 ∧ b'.saf.ist.passStart = b.now ∧
      b'.saf.ist.tested = [] ∧ b'.saf.ist.stolenReady = 0 ∧ b'.saf.ist.linesFor = [] ∧ b'.saf.ist.passClean = true ∧
      b'.saf.ist.cleanPass = (if ist.passClean = true then some ist.passStart else ist.cleanPass) ∧
      (2000000000 < d → ist.overrun = false → b'.saf.sn.engaged = true ∧ b'.saf.sn.causes.istOverrun = true) ∧
      (d ≤ 1000000000 → b'.saf.sn.causes.istOverrun = false ∧ b'.saf.sn.engaged = b.saf.sn.engaged))

/-- R421, R444, R454, R490, R495: start, resets and the fuse re-read complete. -/
def Obligations.StartAndResetCommandsAnswer : Prop :=
  ∀ (s : State) (t : Nat),
    let b := s.bar.at t
    (s.bar.alive = true →
    (∀ (seg : Option (Fin 8)) (row : Nat) (low : Nat) (high : Nat), Answers s (.fuseReread t seg row low high) (b.fuseReread seg row low high))) ∧
    (
    (∀ (boot : BootInput), exec (.startup t boot) s = .next { s with bar := b.startup boot }) ∧
    (∀ (level : Bool) (held : Nat), exec (.externalReset ⟨t, level, held⟩) s = .next { s with bar := if level then b else b.externalReset held }) ∧
    (∀ (rail : RailReading), exec (.brownOut t rail) s = .next { s with bar := b.brownOut rail.rail rail.mv rail.held }) ∧
    exec (.extest t) s = .next { s with bar := b.extest } ∧
    exec (.tapReset t) s = .next { s with bar := b.tapReset })

/-- R421, R439, R440, R490, R495: two resets, and what they keep. RESET_N ignored in a thermal shutdown and a brown-out acting in it are
log entry 32's readings, and what a reset keeps beyond Table 16-5 (references, ledger) log entry 33's. -/
def Obligations.ResetsKeepWhatIsRetained : Prop :=
  ∀ (s : State) (t low mv held : Nat) (rail : Fin 6) (level : Bool),
    let b := s.bar.at t
    let limits : Nat × Nat := match rail with
      | 0 => (500, 900) | 1 => (2600, 3000) | 2 => (1670, 1930) | 3 => (3070, 3530) | 4 => (840, 960) | _ => (1120, 1280)
    let outside : Prop := 5000 ≤ held ∧ (mv < limits.1 ∨ limits.2 < mv)
    let kept (c : Instr) (code arg : Nat) : Prop := ∃ b' : Bar, exec c s = .next { s with bar := b' } ∧
      b'.saf.power = (if b.saf.tap = .extest then .extest else .reset) ∧ b'.saf.tap = b.saf.tap ∧ b'.faultHigh = false ∧ b'.ecat.al = .init ∧ b'.ecat.session = false ∧ b'.saf.sn.engaged = false ∧
      b'.par = Params.reset ∧ b'.cap.items = [] ∧ b'.lines = 0 ∧ b'.now = 0 ∧
      b'.persist = b.persist ∧ b'.sec.slotA = b.sec.slotA ∧ b'.sec.slotB = b.sec.slotB ∧ b'.sec.anchor = b.sec.anchor ∧
      b'.sec.hub = b.sec.hub ∧ b'.sec.segOtp = b.sec.segOtp ∧ b'.sec.calSlots = b.sec.calSlots ∧ b'.nz.mapFile = b.nz.mapFile ∧
      b'.cap.refs = b.cap.refs ∧ b'.sto.ledger = b.sto.ledger ∧ b'.sto.stored = b.sto.stored ∧ b'.segs = b.segs ∧
      b'.log.next = b.log.next + 1 ∧ (b'.log.entries.head?.map fun e => (e.code, e.arg, e.time)) = some (code, arg, b.now) ∧
      b'.saf.ret.lastCause = code ∧ b'.saf.ret.lastTime = b.now ∧ b'.saf.ret.running = false ∧ b'.saf.ret.boots = b.saf.ret.boots
    (outside → kept (.brownOut t ⟨rail, mv, held⟩) 0xD02E rail.val) ∧
    (¬outside → exec (.brownOut t ⟨rail, mv, held⟩) s = .next { s with bar := b }) ∧
    (b.saf.power ≠ .shutdown → 2000 ≤ low → kept (.externalReset ⟨t, false, low⟩) 0xD030 0) ∧
    (b.saf.power = .shutdown ∨ low < 2000 ∨ level = true → exec (.externalReset ⟨t, level, low⟩) s = .next { s with bar := b })

/-- R456 to R458, R465 to R468: the commands of 0x2E10:01. The layout of THERMO_ADVANCED's ARG is log entry 95's choice. -/
def Obligations.SecurityCommandsAnswer : Prop :=
  (∀ (s : State) (t : Nat), s.bar.serves 0x2E10 = true →
    let b := s.bar.mailAt t
    let c : Bar := { b with par := { b.par with rw := b.par.rw.put (objKey 0x2E10 2) (.num 0) } }
    let commands : List Instr := [.reset t, .confirm t, .advanceSvn t [], .advanceKeyRev t [], .advanceCalGen t [], .fieldClose t 0]
    let running := b.runningImage
    let raised (i : Instr) (group row v : Nat) : Prop := ∃ h : FuseArray,
      Answers s i ((({ c with sec := { c.sec with hub := h } } : Bar).logEvent 0xE02A (group * 65536 + v)).responds 0x2E10 1 0 []) ∧
      thermoValue h row = v ∧ ∀ r, r < row ∨ row + 4 ≤ r → fuseAt h r = fuseAt b.sec.hub r
    (b.ecat.al ≠ .preop → ∀ i ∈ commands, Answers s i (c.aborts 0x2E10 1 0x08000022 0xE002)) ∧
    (b.ecat.al = .preop →
      Answers s (.reset t) ((({ c with foe := none } : Bar).decideReset 0xE02C).responds 0x2E10 1 0 []) ∧
      (b.sec.anchor.trial = true → b.sec.running = some b.sec.anchor.preferred → Answers s (.confirm t)
        (({ c with sec := { c.sec with anchor := { c.sec.anchor with trial := false } } } : Bar).responds 0x2E10 1 0 [])) ∧
      (b.sec.anchor.trial = false ∨ b.sec.running ≠ some b.sec.anchor.preferred →
        Answers s (.confirm t) (c.aborts 0x2E10 1 0x08000022 0xE004)) ∧
      (b.rwN 0x2E10 2 ≠ 0x46555345 → ∀ i ∈ commands.drop 2, Answers s i (c.aborts 0x2E10 1 0x08000020 0xE003)) ∧
      (b.rwN 0x2E10 2 = 0x46555345 → b.sec.running = none ∨ b.sec.anchor.trial = true →
        Answers s (.advanceSvn t []) (c.aborts 0x2E10 1 0x08000022 0xE004) ∧
        Answers s (.advanceKeyRev t []) (c.aborts 0x2E10 1 0x08000022 0xE004)) ∧
      (b.rwN 0x2E10 2 = 0x46555345 → b.sec.running ≠ none → b.sec.anchor.trial = false →
        (imgSvn running ≤ b.svnCounter → Answers s (.advanceSvn t []) (c.responds 0x2E10 1 0 [])) ∧
        (b.svnCounter < imgSvn running → imgSvn running ≤ 256 → raised (.advanceSvn t []) 6 28 (imgSvn running)) ∧
        (∀ stuck : List Nat, imgSvn running ≤ 256 → (∃ i ∈ stuck, b.svnCounter ≤ i ∧ i < imgSvn running) →
          ∃ b' : Bar, Answers s (.advanceSvn t stuck) b' ∧ b'.log.next = b.log.next + 1 ∧
            (b'.log.entries.head?.map fun e => (e.code, e.arg)) = some (0xE005, 0) ∧ b'.rwN 0x2E10 2 = 0 ∧
            thermoValue b'.sec.hub 28 ≤ imgSvn running ∧ (∀ r, r < 28 ∨ 32 ≤ r → fuseAt b'.sec.hub r = fuseAt b.sec.hub r) ∧
            ((∀ i, b.svnCounter ≤ i → i < imgSvn running → i ∈ stuck) → b'.sec.hub = b.sec.hub)) ∧
        (imgKeyRev running ≤ b.keyRevCounter → Answers s (.advanceKeyRev t []) (c.responds 0x2E10 1 0 [])) ∧
        (b.keyRevCounter < imgKeyRev running → imgKeyRev running ≤ 256 → raised (.advanceKeyRev t []) 8 36 (imgKeyRev running))) ∧
      (b.rwN 0x2E10 2 = 0x46555345 → b.sec.uncalibrated = false →
        (calGeneration b.calStore ≤ b.calGenCounter → Answers s (.advanceCalGen t []) (c.responds 0x2E10 1 0 [])) ∧
        (b.calGenCounter < calGeneration b.calStore → calGeneration b.calStore ≤ 256 →
          raised (.advanceCalGen t []) 7 32 (calGeneration b.calStore))) ∧
      (b.rwN 0x2E10 2 = 0x46555345 → b.fieldBits < 8 → ∃ h : FuseArray,
        Answers s (.fieldClose t 0) ((({ c with sec := { c.sec with hub := h } } : Bar).logEvent 0xE029 0).responds 0x2E10 1 0 []) ∧
        ({ c with sec := { c.sec with hub := h } } : Bar).fieldClosed = true ∧ ∀ r, r ≠ 27 → fuseAt h r = fuseAt b.sec.hub r))) ∧
  (∀ (s : State) (t : Nat), (s.bar.alive = true →
    (∃ b' : Bar, Answers s (.reset t) b') ∧
    (∃ b' : Bar, Answers s (.confirm t) b') ∧
    (∀ (stuck : List Nat), ∃ b' : Bar, Answers s (.advanceSvn t stuck) b') ∧
    (∀ (stuck : List Nat), ∃ b' : Bar, Answers s (.advanceKeyRev t stuck) b') ∧
    (∀ (stuck : List Nat), ∃ b' : Bar, Answers s (.advanceCalGen t stuck) b') ∧
    (∀ (stuckMask : Nat), ∃ b' : Bar, Answers s (.fieldClose t stuckMask) b')))
end

