-- ==== Sys2Proof/Laws/State.lean ====
section
/-! SUPPORT. One lemma per field and update of the state, so that no proof unfolds a record update. -/

namespace Sys2Proof.Machine

variable (b : Bar) (s : State)

@[simp] theorem Bar.modCap_cap (f : Capture → Capture) : (b.modCap f).cap = f b.cap := rfl
@[simp] theorem Bar.modCap_now (f : Capture → Capture) : (b.modCap f).now = b.now := rfl
@[simp] theorem Bar.modCap_free (f : Capture → Capture) : (b.modCap f).free = b.free := rfl
@[simp] theorem Bar.modCap_segs (f : Capture → Capture) : (b.modCap f).segs = b.segs := rfl
@[simp] theorem Bar.modCap_lines (f : Capture → Capture) : (b.modCap f).lines = b.lines := rfl
@[simp] theorem Bar.modCap_par (f : Capture → Capture) : (b.modCap f).par = b.par := rfl
@[simp] theorem Bar.modCap_persist (f : Capture → Capture) : (b.modCap f).persist = b.persist := rfl
@[simp] theorem Bar.modCap_ecat (f : Capture → Capture) : (b.modCap f).ecat = b.ecat := rfl
@[simp] theorem Bar.modCap_log (f : Capture → Capture) : (b.modCap f).log = b.log := rfl
@[simp] theorem Bar.modCap_sm1 (f : Capture → Capture) : (b.modCap f).sm1 = b.sm1 := rfl
@[simp] theorem Bar.modCap_sdoM (f : Capture → Capture) : (b.modCap f).sdoM = b.sdoM := rfl
@[simp] theorem Bar.modCap_sdoB (f : Capture → Capture) : (b.modCap f).sdoB = b.sdoB := rfl
@[simp] theorem Bar.modCap_seg (f : Capture → Capture) : (b.modCap f).seg = b.seg := rfl
@[simp] theorem Bar.modCap_foe (f : Capture → Capture) : (b.modCap f).foe = b.foe := rfl
@[simp] theorem Bar.modCap_foeDetail (f : Capture → Capture) : (b.modCap f).foeDetail = b.foeDetail := rfl
@[simp] theorem Bar.modCap_io (f : Capture → Capture) : (b.modCap f).io = b.io := rfl
@[simp] theorem Bar.modCap_saf (f : Capture → Capture) : (b.modCap f).saf = b.saf := rfl
@[simp] theorem Bar.modCap_thm (f : Capture → Capture) : (b.modCap f).thm = b.thm := rfl
@[simp] theorem Bar.modCap_nz (f : Capture → Capture) : (b.modCap f).nz = b.nz := rfl
@[simp] theorem Bar.modCap_cod (f : Capture → Capture) : (b.modCap f).cod = b.cod := rfl
@[simp] theorem Bar.modCap_sto (f : Capture → Capture) : (b.modCap f).sto = b.sto := rfl
@[simp] theorem Bar.modCap_dlv (f : Capture → Capture) : (b.modCap f).dlv = b.dlv := rfl
@[simp] theorem Bar.modCap_sec (f : Capture → Capture) : (b.modCap f).sec = b.sec := rfl

@[simp] theorem Bar.modSto_sto (f : Storage → Storage) : (b.modSto f).sto = f b.sto := rfl
@[simp] theorem Bar.modSto_now (f : Storage → Storage) : (b.modSto f).now = b.now := rfl
@[simp] theorem Bar.modSto_free (f : Storage → Storage) : (b.modSto f).free = b.free := rfl
@[simp] theorem Bar.modSto_segs (f : Storage → Storage) : (b.modSto f).segs = b.segs := rfl
@[simp] theorem Bar.modSto_lines (f : Storage → Storage) : (b.modSto f).lines = b.lines := rfl
@[simp] theorem Bar.modSto_par (f : Storage → Storage) : (b.modSto f).par = b.par := rfl
@[simp] theorem Bar.modSto_persist (f : Storage → Storage) : (b.modSto f).persist = b.persist := rfl
@[simp] theorem Bar.modSto_ecat (f : Storage → Storage) : (b.modSto f).ecat = b.ecat := rfl
@[simp] theorem Bar.modSto_log (f : Storage → Storage) : (b.modSto f).log = b.log := rfl
@[simp] theorem Bar.modSto_sm1 (f : Storage → Storage) : (b.modSto f).sm1 = b.sm1 := rfl
@[simp] theorem Bar.modSto_sdoM (f : Storage → Storage) : (b.modSto f).sdoM = b.sdoM := rfl
@[simp] theorem Bar.modSto_sdoB (f : Storage → Storage) : (b.modSto f).sdoB = b.sdoB := rfl
@[simp] theorem Bar.modSto_seg (f : Storage → Storage) : (b.modSto f).seg = b.seg := rfl
@[simp] theorem Bar.modSto_foe (f : Storage → Storage) : (b.modSto f).foe = b.foe := rfl
@[simp] theorem Bar.modSto_foeDetail (f : Storage → Storage) : (b.modSto f).foeDetail = b.foeDetail := rfl
@[simp] theorem Bar.modSto_io (f : Storage → Storage) : (b.modSto f).io = b.io := rfl
@[simp] theorem Bar.modSto_cap (f : Storage → Storage) : (b.modSto f).cap = b.cap := rfl
@[simp] theorem Bar.modSto_saf (f : Storage → Storage) : (b.modSto f).saf = b.saf := rfl
@[simp] theorem Bar.modSto_thm (f : Storage → Storage) : (b.modSto f).thm = b.thm := rfl
@[simp] theorem Bar.modSto_nz (f : Storage → Storage) : (b.modSto f).nz = b.nz := rfl
@[simp] theorem Bar.modSto_cod (f : Storage → Storage) : (b.modSto f).cod = b.cod := rfl
@[simp] theorem Bar.modSto_dlv (f : Storage → Storage) : (b.modSto f).dlv = b.dlv := rfl
@[simp] theorem Bar.modSto_sec (f : Storage → Storage) : (b.modSto f).sec = b.sec := rfl

@[simp] theorem Bar.modSec_sec (f : Security → Security) : (b.modSec f).sec = f b.sec := rfl
@[simp] theorem Bar.modSec_now (f : Security → Security) : (b.modSec f).now = b.now := rfl
@[simp] theorem Bar.modSec_free (f : Security → Security) : (b.modSec f).free = b.free := rfl
@[simp] theorem Bar.modSec_segs (f : Security → Security) : (b.modSec f).segs = b.segs := rfl
@[simp] theorem Bar.modSec_lines (f : Security → Security) : (b.modSec f).lines = b.lines := rfl
@[simp] theorem Bar.modSec_par (f : Security → Security) : (b.modSec f).par = b.par := rfl
@[simp] theorem Bar.modSec_persist (f : Security → Security) : (b.modSec f).persist = b.persist := rfl
@[simp] theorem Bar.modSec_ecat (f : Security → Security) : (b.modSec f).ecat = b.ecat := rfl
@[simp] theorem Bar.modSec_log (f : Security → Security) : (b.modSec f).log = b.log := rfl
@[simp] theorem Bar.modSec_sm1 (f : Security → Security) : (b.modSec f).sm1 = b.sm1 := rfl
@[simp] theorem Bar.modSec_sdoM (f : Security → Security) : (b.modSec f).sdoM = b.sdoM := rfl
@[simp] theorem Bar.modSec_sdoB (f : Security → Security) : (b.modSec f).sdoB = b.sdoB := rfl
@[simp] theorem Bar.modSec_seg (f : Security → Security) : (b.modSec f).seg = b.seg := rfl
@[simp] theorem Bar.modSec_foe (f : Security → Security) : (b.modSec f).foe = b.foe := rfl
@[simp] theorem Bar.modSec_foeDetail (f : Security → Security) : (b.modSec f).foeDetail = b.foeDetail := rfl
@[simp] theorem Bar.modSec_io (f : Security → Security) : (b.modSec f).io = b.io := rfl
@[simp] theorem Bar.modSec_cap (f : Security → Security) : (b.modSec f).cap = b.cap := rfl
@[simp] theorem Bar.modSec_saf (f : Security → Security) : (b.modSec f).saf = b.saf := rfl
@[simp] theorem Bar.modSec_thm (f : Security → Security) : (b.modSec f).thm = b.thm := rfl
@[simp] theorem Bar.modSec_nz (f : Security → Security) : (b.modSec f).nz = b.nz := rfl
@[simp] theorem Bar.modSec_cod (f : Security → Security) : (b.modSec f).cod = b.cod := rfl
@[simp] theorem Bar.modSec_sto (f : Security → Security) : (b.modSec f).sto = b.sto := rfl
@[simp] theorem Bar.modSec_dlv (f : Security → Security) : (b.modSec f).dlv = b.dlv := rfl

@[simp] theorem Bar.modEcat_ecat (f : Ecat → Ecat) : (b.modEcat f).ecat = f b.ecat := rfl
@[simp] theorem Bar.modEcat_now (f : Ecat → Ecat) : (b.modEcat f).now = b.now := rfl
@[simp] theorem Bar.modEcat_free (f : Ecat → Ecat) : (b.modEcat f).free = b.free := rfl
@[simp] theorem Bar.modEcat_segs (f : Ecat → Ecat) : (b.modEcat f).segs = b.segs := rfl
@[simp] theorem Bar.modEcat_lines (f : Ecat → Ecat) : (b.modEcat f).lines = b.lines := rfl
@[simp] theorem Bar.modEcat_par (f : Ecat → Ecat) : (b.modEcat f).par = b.par := rfl
@[simp] theorem Bar.modEcat_persist (f : Ecat → Ecat) : (b.modEcat f).persist = b.persist := rfl
@[simp] theorem Bar.modEcat_log (f : Ecat → Ecat) : (b.modEcat f).log = b.log := rfl
@[simp] theorem Bar.modEcat_sm1 (f : Ecat → Ecat) : (b.modEcat f).sm1 = b.sm1 := rfl
@[simp] theorem Bar.modEcat_sdoM (f : Ecat → Ecat) : (b.modEcat f).sdoM = b.sdoM := rfl
@[simp] theorem Bar.modEcat_sdoB (f : Ecat → Ecat) : (b.modEcat f).sdoB = b.sdoB := rfl
@[simp] theorem Bar.modEcat_seg (f : Ecat → Ecat) : (b.modEcat f).seg = b.seg := rfl
@[simp] theorem Bar.modEcat_foe (f : Ecat → Ecat) : (b.modEcat f).foe = b.foe := rfl
@[simp] theorem Bar.modEcat_foeDetail (f : Ecat → Ecat) : (b.modEcat f).foeDetail = b.foeDetail := rfl
@[simp] theorem Bar.modEcat_io (f : Ecat → Ecat) : (b.modEcat f).io = b.io := rfl
@[simp] theorem Bar.modEcat_cap (f : Ecat → Ecat) : (b.modEcat f).cap = b.cap := rfl
@[simp] theorem Bar.modEcat_saf (f : Ecat → Ecat) : (b.modEcat f).saf = b.saf := rfl
@[simp] theorem Bar.modEcat_thm (f : Ecat → Ecat) : (b.modEcat f).thm = b.thm := rfl
@[simp] theorem Bar.modEcat_nz (f : Ecat → Ecat) : (b.modEcat f).nz = b.nz := rfl
@[simp] theorem Bar.modEcat_cod (f : Ecat → Ecat) : (b.modEcat f).cod = b.cod := rfl
@[simp] theorem Bar.modEcat_sto (f : Ecat → Ecat) : (b.modEcat f).sto = b.sto := rfl
@[simp] theorem Bar.modEcat_dlv (f : Ecat → Ecat) : (b.modEcat f).dlv = b.dlv := rfl
@[simp] theorem Bar.modEcat_sec (f : Ecat → Ecat) : (b.modEcat f).sec = b.sec := rfl

@[simp] theorem Bar.modSaf_saf (f : Safety → Safety) : (b.modSaf f).saf = f b.saf := rfl
@[simp] theorem Bar.modSaf_now (f : Safety → Safety) : (b.modSaf f).now = b.now := rfl
@[simp] theorem Bar.modSaf_free (f : Safety → Safety) : (b.modSaf f).free = b.free := rfl
@[simp] theorem Bar.modSaf_segs (f : Safety → Safety) : (b.modSaf f).segs = b.segs := rfl
@[simp] theorem Bar.modSaf_lines (f : Safety → Safety) : (b.modSaf f).lines = b.lines := rfl
@[simp] theorem Bar.modSaf_par (f : Safety → Safety) : (b.modSaf f).par = b.par := rfl
@[simp] theorem Bar.modSaf_persist (f : Safety → Safety) : (b.modSaf f).persist = b.persist := rfl
@[simp] theorem Bar.modSaf_ecat (f : Safety → Safety) : (b.modSaf f).ecat = b.ecat := rfl
@[simp] theorem Bar.modSaf_log (f : Safety → Safety) : (b.modSaf f).log = b.log := rfl
@[simp] theorem Bar.modSaf_sm1 (f : Safety → Safety) : (b.modSaf f).sm1 = b.sm1 := rfl
@[simp] theorem Bar.modSaf_sdoM (f : Safety → Safety) : (b.modSaf f).sdoM = b.sdoM := rfl
@[simp] theorem Bar.modSaf_sdoB (f : Safety → Safety) : (b.modSaf f).sdoB = b.sdoB := rfl
@[simp] theorem Bar.modSaf_seg (f : Safety → Safety) : (b.modSaf f).seg = b.seg := rfl
@[simp] theorem Bar.modSaf_foe (f : Safety → Safety) : (b.modSaf f).foe = b.foe := rfl
@[simp] theorem Bar.modSaf_foeDetail (f : Safety → Safety) : (b.modSaf f).foeDetail = b.foeDetail := rfl
@[simp] theorem Bar.modSaf_io (f : Safety → Safety) : (b.modSaf f).io = b.io := rfl
@[simp] theorem Bar.modSaf_cap (f : Safety → Safety) : (b.modSaf f).cap = b.cap := rfl
@[simp] theorem Bar.modSaf_thm (f : Safety → Safety) : (b.modSaf f).thm = b.thm := rfl
@[simp] theorem Bar.modSaf_nz (f : Safety → Safety) : (b.modSaf f).nz = b.nz := rfl
@[simp] theorem Bar.modSaf_cod (f : Safety → Safety) : (b.modSaf f).cod = b.cod := rfl
@[simp] theorem Bar.modSaf_sto (f : Safety → Safety) : (b.modSaf f).sto = b.sto := rfl
@[simp] theorem Bar.modSaf_dlv (f : Safety → Safety) : (b.modSaf f).dlv = b.dlv := rfl
@[simp] theorem Bar.modSaf_sec (f : Safety → Safety) : (b.modSaf f).sec = b.sec := rfl

@[simp] theorem Bar.modPar_par (f : Params → Params) : (b.modPar f).par = f b.par := rfl
@[simp] theorem Bar.modPar_now (f : Params → Params) : (b.modPar f).now = b.now := rfl
@[simp] theorem Bar.modPar_free (f : Params → Params) : (b.modPar f).free = b.free := rfl
@[simp] theorem Bar.modPar_segs (f : Params → Params) : (b.modPar f).segs = b.segs := rfl
@[simp] theorem Bar.modPar_lines (f : Params → Params) : (b.modPar f).lines = b.lines := rfl
@[simp] theorem Bar.modPar_persist (f : Params → Params) : (b.modPar f).persist = b.persist := rfl
@[simp] theorem Bar.modPar_ecat (f : Params → Params) : (b.modPar f).ecat = b.ecat := rfl
@[simp] theorem Bar.modPar_log (f : Params → Params) : (b.modPar f).log = b.log := rfl
@[simp] theorem Bar.modPar_sm1 (f : Params → Params) : (b.modPar f).sm1 = b.sm1 := rfl
@[simp] theorem Bar.modPar_sdoM (f : Params → Params) : (b.modPar f).sdoM = b.sdoM := rfl
@[simp] theorem Bar.modPar_sdoB (f : Params → Params) : (b.modPar f).sdoB = b.sdoB := rfl
@[simp] theorem Bar.modPar_seg (f : Params → Params) : (b.modPar f).seg = b.seg := rfl
@[simp] theorem Bar.modPar_foe (f : Params → Params) : (b.modPar f).foe = b.foe := rfl
@[simp] theorem Bar.modPar_foeDetail (f : Params → Params) : (b.modPar f).foeDetail = b.foeDetail := rfl
@[simp] theorem Bar.modPar_io (f : Params → Params) : (b.modPar f).io = b.io := rfl
@[simp] theorem Bar.modPar_cap (f : Params → Params) : (b.modPar f).cap = b.cap := rfl
@[simp] theorem Bar.modPar_saf (f : Params → Params) : (b.modPar f).saf = b.saf := rfl
@[simp] theorem Bar.modPar_thm (f : Params → Params) : (b.modPar f).thm = b.thm := rfl
@[simp] theorem Bar.modPar_nz (f : Params → Params) : (b.modPar f).nz = b.nz := rfl
@[simp] theorem Bar.modPar_cod (f : Params → Params) : (b.modPar f).cod = b.cod := rfl
@[simp] theorem Bar.modPar_sto (f : Params → Params) : (b.modPar f).sto = b.sto := rfl
@[simp] theorem Bar.modPar_dlv (f : Params → Params) : (b.modPar f).dlv = b.dlv := rfl
@[simp] theorem Bar.modPar_sec (f : Params → Params) : (b.modPar f).sec = b.sec := rfl

@[simp] theorem Bar.modNz_nz (f : Nozzle → Nozzle) : (b.modNz f).nz = f b.nz := rfl
@[simp] theorem Bar.modNz_now (f : Nozzle → Nozzle) : (b.modNz f).now = b.now := rfl
@[simp] theorem Bar.modNz_free (f : Nozzle → Nozzle) : (b.modNz f).free = b.free := rfl
@[simp] theorem Bar.modNz_segs (f : Nozzle → Nozzle) : (b.modNz f).segs = b.segs := rfl
@[simp] theorem Bar.modNz_lines (f : Nozzle → Nozzle) : (b.modNz f).lines = b.lines := rfl
@[simp] theorem Bar.modNz_par (f : Nozzle → Nozzle) : (b.modNz f).par = b.par := rfl
@[simp] theorem Bar.modNz_persist (f : Nozzle → Nozzle) : (b.modNz f).persist = b.persist := rfl
@[simp] theorem Bar.modNz_ecat (f : Nozzle → Nozzle) : (b.modNz f).ecat = b.ecat := rfl
@[simp] theorem Bar.modNz_log (f : Nozzle → Nozzle) : (b.modNz f).log = b.log := rfl
@[simp] theorem Bar.modNz_sm1 (f : Nozzle → Nozzle) : (b.modNz f).sm1 = b.sm1 := rfl
@[simp] theorem Bar.modNz_sdoM (f : Nozzle → Nozzle) : (b.modNz f).sdoM = b.sdoM := rfl
@[simp] theorem Bar.modNz_sdoB (f : Nozzle → Nozzle) : (b.modNz f).sdoB = b.sdoB := rfl
@[simp] theorem Bar.modNz_seg (f : Nozzle → Nozzle) : (b.modNz f).seg = b.seg := rfl
@[simp] theorem Bar.modNz_foe (f : Nozzle → Nozzle) : (b.modNz f).foe = b.foe := rfl
@[simp] theorem Bar.modNz_foeDetail (f : Nozzle → Nozzle) : (b.modNz f).foeDetail = b.foeDetail := rfl
@[simp] theorem Bar.modNz_io (f : Nozzle → Nozzle) : (b.modNz f).io = b.io := rfl
@[simp] theorem Bar.modNz_cap (f : Nozzle → Nozzle) : (b.modNz f).cap = b.cap := rfl
@[simp] theorem Bar.modNz_saf (f : Nozzle → Nozzle) : (b.modNz f).saf = b.saf := rfl
@[simp] theorem Bar.modNz_thm (f : Nozzle → Nozzle) : (b.modNz f).thm = b.thm := rfl
@[simp] theorem Bar.modNz_cod (f : Nozzle → Nozzle) : (b.modNz f).cod = b.cod := rfl
@[simp] theorem Bar.modNz_sto (f : Nozzle → Nozzle) : (b.modNz f).sto = b.sto := rfl
@[simp] theorem Bar.modNz_dlv (f : Nozzle → Nozzle) : (b.modNz f).dlv = b.dlv := rfl
@[simp] theorem Bar.modNz_sec (f : Nozzle → Nozzle) : (b.modNz f).sec = b.sec := rfl

@[simp] theorem Bar.modCod_cod (f : Codec → Codec) : (b.modCod f).cod = f b.cod := rfl
@[simp] theorem Bar.modCod_now (f : Codec → Codec) : (b.modCod f).now = b.now := rfl
@[simp] theorem Bar.modCod_free (f : Codec → Codec) : (b.modCod f).free = b.free := rfl
@[simp] theorem Bar.modCod_segs (f : Codec → Codec) : (b.modCod f).segs = b.segs := rfl
@[simp] theorem Bar.modCod_lines (f : Codec → Codec) : (b.modCod f).lines = b.lines := rfl
@[simp] theorem Bar.modCod_par (f : Codec → Codec) : (b.modCod f).par = b.par := rfl
@[simp] theorem Bar.modCod_persist (f : Codec → Codec) : (b.modCod f).persist = b.persist := rfl
@[simp] theorem Bar.modCod_ecat (f : Codec → Codec) : (b.modCod f).ecat = b.ecat := rfl
@[simp] theorem Bar.modCod_log (f : Codec → Codec) : (b.modCod f).log = b.log := rfl
@[simp] theorem Bar.modCod_sm1 (f : Codec → Codec) : (b.modCod f).sm1 = b.sm1 := rfl
@[simp] theorem Bar.modCod_sdoM (f : Codec → Codec) : (b.modCod f).sdoM = b.sdoM := rfl
@[simp] theorem Bar.modCod_sdoB (f : Codec → Codec) : (b.modCod f).sdoB = b.sdoB := rfl
@[simp] theorem Bar.modCod_seg (f : Codec → Codec) : (b.modCod f).seg = b.seg := rfl
@[simp] theorem Bar.modCod_foe (f : Codec → Codec) : (b.modCod f).foe = b.foe := rfl
@[simp] theorem Bar.modCod_foeDetail (f : Codec → Codec) : (b.modCod f).foeDetail = b.foeDetail := rfl
@[simp] theorem Bar.modCod_io (f : Codec → Codec) : (b.modCod f).io = b.io := rfl
@[simp] theorem Bar.modCod_cap (f : Codec → Codec) : (b.modCod f).cap = b.cap := rfl
@[simp] theorem Bar.modCod_saf (f : Codec → Codec) : (b.modCod f).saf = b.saf := rfl
@[simp] theorem Bar.modCod_thm (f : Codec → Codec) : (b.modCod f).thm = b.thm := rfl
@[simp] theorem Bar.modCod_nz (f : Codec → Codec) : (b.modCod f).nz = b.nz := rfl
@[simp] theorem Bar.modCod_sto (f : Codec → Codec) : (b.modCod f).sto = b.sto := rfl
@[simp] theorem Bar.modCod_dlv (f : Codec → Codec) : (b.modCod f).dlv = b.dlv := rfl
@[simp] theorem Bar.modCod_sec (f : Codec → Codec) : (b.modCod f).sec = b.sec := rfl

@[simp] theorem Bar.modDlv_dlv (f : Delivery → Delivery) : (b.modDlv f).dlv = f b.dlv := rfl
@[simp] theorem Bar.modDlv_now (f : Delivery → Delivery) : (b.modDlv f).now = b.now := rfl
@[simp] theorem Bar.modDlv_free (f : Delivery → Delivery) : (b.modDlv f).free = b.free := rfl
@[simp] theorem Bar.modDlv_segs (f : Delivery → Delivery) : (b.modDlv f).segs = b.segs := rfl
@[simp] theorem Bar.modDlv_lines (f : Delivery → Delivery) : (b.modDlv f).lines = b.lines := rfl
@[simp] theorem Bar.modDlv_par (f : Delivery → Delivery) : (b.modDlv f).par = b.par := rfl
@[simp] theorem Bar.modDlv_persist (f : Delivery → Delivery) : (b.modDlv f).persist = b.persist := rfl
@[simp] theorem Bar.modDlv_ecat (f : Delivery → Delivery) : (b.modDlv f).ecat = b.ecat := rfl
@[simp] theorem Bar.modDlv_log (f : Delivery → Delivery) : (b.modDlv f).log = b.log := rfl
@[simp] theorem Bar.modDlv_sm1 (f : Delivery → Delivery) : (b.modDlv f).sm1 = b.sm1 := rfl
@[simp] theorem Bar.modDlv_sdoM (f : Delivery → Delivery) : (b.modDlv f).sdoM = b.sdoM := rfl
@[simp] theorem Bar.modDlv_sdoB (f : Delivery → Delivery) : (b.modDlv f).sdoB = b.sdoB := rfl
@[simp] theorem Bar.modDlv_seg (f : Delivery → Delivery) : (b.modDlv f).seg = b.seg := rfl
@[simp] theorem Bar.modDlv_foe (f : Delivery → Delivery) : (b.modDlv f).foe = b.foe := rfl
@[simp] theorem Bar.modDlv_foeDetail (f : Delivery → Delivery) : (b.modDlv f).foeDetail = b.foeDetail := rfl
@[simp] theorem Bar.modDlv_io (f : Delivery → Delivery) : (b.modDlv f).io = b.io := rfl
@[simp] theorem Bar.modDlv_cap (f : Delivery → Delivery) : (b.modDlv f).cap = b.cap := rfl
@[simp] theorem Bar.modDlv_saf (f : Delivery → Delivery) : (b.modDlv f).saf = b.saf := rfl
@[simp] theorem Bar.modDlv_thm (f : Delivery → Delivery) : (b.modDlv f).thm = b.thm := rfl
@[simp] theorem Bar.modDlv_nz (f : Delivery → Delivery) : (b.modDlv f).nz = b.nz := rfl
@[simp] theorem Bar.modDlv_cod (f : Delivery → Delivery) : (b.modDlv f).cod = b.cod := rfl
@[simp] theorem Bar.modDlv_sto (f : Delivery → Delivery) : (b.modDlv f).sto = b.sto := rfl
@[simp] theorem Bar.modDlv_sec (f : Delivery → Delivery) : (b.modDlv f).sec = b.sec := rfl

@[simp] theorem Bar.modThm_thm (f : Thermal → Thermal) : (b.modThm f).thm = f b.thm := rfl
@[simp] theorem Bar.modThm_now (f : Thermal → Thermal) : (b.modThm f).now = b.now := rfl
@[simp] theorem Bar.modThm_free (f : Thermal → Thermal) : (b.modThm f).free = b.free := rfl
@[simp] theorem Bar.modThm_segs (f : Thermal → Thermal) : (b.modThm f).segs = b.segs := rfl
@[simp] theorem Bar.modThm_lines (f : Thermal → Thermal) : (b.modThm f).lines = b.lines := rfl
@[simp] theorem Bar.modThm_par (f : Thermal → Thermal) : (b.modThm f).par = b.par := rfl
@[simp] theorem Bar.modThm_persist (f : Thermal → Thermal) : (b.modThm f).persist = b.persist := rfl
@[simp] theorem Bar.modThm_ecat (f : Thermal → Thermal) : (b.modThm f).ecat = b.ecat := rfl
@[simp] theorem Bar.modThm_log (f : Thermal → Thermal) : (b.modThm f).log = b.log := rfl
@[simp] theorem Bar.modThm_sm1 (f : Thermal → Thermal) : (b.modThm f).sm1 = b.sm1 := rfl
@[simp] theorem Bar.modThm_sdoM (f : Thermal → Thermal) : (b.modThm f).sdoM = b.sdoM := rfl
@[simp] theorem Bar.modThm_sdoB (f : Thermal → Thermal) : (b.modThm f).sdoB = b.sdoB := rfl
@[simp] theorem Bar.modThm_seg (f : Thermal → Thermal) : (b.modThm f).seg = b.seg := rfl
@[simp] theorem Bar.modThm_foe (f : Thermal → Thermal) : (b.modThm f).foe = b.foe := rfl
@[simp] theorem Bar.modThm_foeDetail (f : Thermal → Thermal) : (b.modThm f).foeDetail = b.foeDetail := rfl
@[simp] theorem Bar.modThm_io (f : Thermal → Thermal) : (b.modThm f).io = b.io := rfl
@[simp] theorem Bar.modThm_cap (f : Thermal → Thermal) : (b.modThm f).cap = b.cap := rfl
@[simp] theorem Bar.modThm_saf (f : Thermal → Thermal) : (b.modThm f).saf = b.saf := rfl
@[simp] theorem Bar.modThm_nz (f : Thermal → Thermal) : (b.modThm f).nz = b.nz := rfl
@[simp] theorem Bar.modThm_cod (f : Thermal → Thermal) : (b.modThm f).cod = b.cod := rfl
@[simp] theorem Bar.modThm_sto (f : Thermal → Thermal) : (b.modThm f).sto = b.sto := rfl
@[simp] theorem Bar.modThm_dlv (f : Thermal → Thermal) : (b.modThm f).dlv = b.dlv := rfl
@[simp] theorem Bar.modThm_sec (f : Thermal → Thermal) : (b.modThm f).sec = b.sec := rfl

@[simp] theorem Bar.modSn_sn (f : SafetyNet → SafetyNet) : (b.modSn f).saf.sn = f b.saf.sn := rfl
@[simp] theorem Bar.modSn_now (f : SafetyNet → SafetyNet) : (b.modSn f).now = b.now := rfl
@[simp] theorem Bar.modSn_free (f : SafetyNet → SafetyNet) : (b.modSn f).free = b.free := rfl
@[simp] theorem Bar.modSn_segs (f : SafetyNet → SafetyNet) : (b.modSn f).segs = b.segs := rfl
@[simp] theorem Bar.modSn_lines (f : SafetyNet → SafetyNet) : (b.modSn f).lines = b.lines := rfl
@[simp] theorem Bar.modSn_par (f : SafetyNet → SafetyNet) : (b.modSn f).par = b.par := rfl
@[simp] theorem Bar.modSn_persist (f : SafetyNet → SafetyNet) : (b.modSn f).persist = b.persist := rfl
@[simp] theorem Bar.modSn_ecat (f : SafetyNet → SafetyNet) : (b.modSn f).ecat = b.ecat := rfl
@[simp] theorem Bar.modSn_log (f : SafetyNet → SafetyNet) : (b.modSn f).log = b.log := rfl
@[simp] theorem Bar.modSn_sm1 (f : SafetyNet → SafetyNet) : (b.modSn f).sm1 = b.sm1 := rfl
@[simp] theorem Bar.modSn_sdoM (f : SafetyNet → SafetyNet) : (b.modSn f).sdoM = b.sdoM := rfl
@[simp] theorem Bar.modSn_sdoB (f : SafetyNet → SafetyNet) : (b.modSn f).sdoB = b.sdoB := rfl
@[simp] theorem Bar.modSn_seg (f : SafetyNet → SafetyNet) : (b.modSn f).seg = b.seg := rfl
@[simp] theorem Bar.modSn_foe (f : SafetyNet → SafetyNet) : (b.modSn f).foe = b.foe := rfl
@[simp] theorem Bar.modSn_foeDetail (f : SafetyNet → SafetyNet) : (b.modSn f).foeDetail = b.foeDetail := rfl
@[simp] theorem Bar.modSn_io (f : SafetyNet → SafetyNet) : (b.modSn f).io = b.io := rfl
@[simp] theorem Bar.modSn_cap (f : SafetyNet → SafetyNet) : (b.modSn f).cap = b.cap := rfl
@[simp] theorem Bar.modSn_thm (f : SafetyNet → SafetyNet) : (b.modSn f).thm = b.thm := rfl
@[simp] theorem Bar.modSn_nz (f : SafetyNet → SafetyNet) : (b.modSn f).nz = b.nz := rfl
@[simp] theorem Bar.modSn_cod (f : SafetyNet → SafetyNet) : (b.modSn f).cod = b.cod := rfl
@[simp] theorem Bar.modSn_sto (f : SafetyNet → SafetyNet) : (b.modSn f).sto = b.sto := rfl
@[simp] theorem Bar.modSn_dlv (f : SafetyNet → SafetyNet) : (b.modSn f).dlv = b.dlv := rfl
@[simp] theorem Bar.modSn_sec (f : SafetyNet → SafetyNet) : (b.modSn f).sec = b.sec := rfl

@[simp] theorem Bar.modIst_ist (f : Ist → Ist) : (b.modIst f).saf.ist = f b.saf.ist := rfl
@[simp] theorem Bar.modIst_now (f : Ist → Ist) : (b.modIst f).now = b.now := rfl
@[simp] theorem Bar.modIst_free (f : Ist → Ist) : (b.modIst f).free = b.free := rfl
@[simp] theorem Bar.modIst_segs (f : Ist → Ist) : (b.modIst f).segs = b.segs := rfl
@[simp] theorem Bar.modIst_lines (f : Ist → Ist) : (b.modIst f).lines = b.lines := rfl
@[simp] theorem Bar.modIst_par (f : Ist → Ist) : (b.modIst f).par = b.par := rfl
@[simp] theorem Bar.modIst_persist (f : Ist → Ist) : (b.modIst f).persist = b.persist := rfl
@[simp] theorem Bar.modIst_ecat (f : Ist → Ist) : (b.modIst f).ecat = b.ecat := rfl
@[simp] theorem Bar.modIst_log (f : Ist → Ist) : (b.modIst f).log = b.log := rfl
@[simp] theorem Bar.modIst_sm1 (f : Ist → Ist) : (b.modIst f).sm1 = b.sm1 := rfl
@[simp] theorem Bar.modIst_sdoM (f : Ist → Ist) : (b.modIst f).sdoM = b.sdoM := rfl
@[simp] theorem Bar.modIst_sdoB (f : Ist → Ist) : (b.modIst f).sdoB = b.sdoB := rfl
@[simp] theorem Bar.modIst_seg (f : Ist → Ist) : (b.modIst f).seg = b.seg := rfl
@[simp] theorem Bar.modIst_foe (f : Ist → Ist) : (b.modIst f).foe = b.foe := rfl
@[simp] theorem Bar.modIst_foeDetail (f : Ist → Ist) : (b.modIst f).foeDetail = b.foeDetail := rfl
@[simp] theorem Bar.modIst_io (f : Ist → Ist) : (b.modIst f).io = b.io := rfl
@[simp] theorem Bar.modIst_cap (f : Ist → Ist) : (b.modIst f).cap = b.cap := rfl
@[simp] theorem Bar.modIst_thm (f : Ist → Ist) : (b.modIst f).thm = b.thm := rfl
@[simp] theorem Bar.modIst_nz (f : Ist → Ist) : (b.modIst f).nz = b.nz := rfl
@[simp] theorem Bar.modIst_cod (f : Ist → Ist) : (b.modIst f).cod = b.cod := rfl
@[simp] theorem Bar.modIst_sto (f : Ist → Ist) : (b.modIst f).sto = b.sto := rfl
@[simp] theorem Bar.modIst_dlv (f : Ist → Ist) : (b.modIst f).dlv = b.dlv := rfl
@[simp] theorem Bar.modIst_sec (f : Ist → Ist) : (b.modIst f).sec = b.sec := rfl

@[simp] theorem Bar.modWdg_wdg (f : Watchdog → Watchdog) : (b.modWdg f).saf.wdg = f b.saf.wdg := rfl
@[simp] theorem Bar.modWdg_now (f : Watchdog → Watchdog) : (b.modWdg f).now = b.now := rfl
@[simp] theorem Bar.modWdg_free (f : Watchdog → Watchdog) : (b.modWdg f).free = b.free := rfl
@[simp] theorem Bar.modWdg_segs (f : Watchdog → Watchdog) : (b.modWdg f).segs = b.segs := rfl
@[simp] theorem Bar.modWdg_lines (f : Watchdog → Watchdog) : (b.modWdg f).lines = b.lines := rfl
@[simp] theorem Bar.modWdg_par (f : Watchdog → Watchdog) : (b.modWdg f).par = b.par := rfl
@[simp] theorem Bar.modWdg_persist (f : Watchdog → Watchdog) : (b.modWdg f).persist = b.persist := rfl
@[simp] theorem Bar.modWdg_ecat (f : Watchdog → Watchdog) : (b.modWdg f).ecat = b.ecat := rfl
@[simp] theorem Bar.modWdg_log (f : Watchdog → Watchdog) : (b.modWdg f).log = b.log := rfl
@[simp] theorem Bar.modWdg_sm1 (f : Watchdog → Watchdog) : (b.modWdg f).sm1 = b.sm1 := rfl
@[simp] theorem Bar.modWdg_sdoM (f : Watchdog → Watchdog) : (b.modWdg f).sdoM = b.sdoM := rfl
@[simp] theorem Bar.modWdg_sdoB (f : Watchdog → Watchdog) : (b.modWdg f).sdoB = b.sdoB := rfl
@[simp] theorem Bar.modWdg_seg (f : Watchdog → Watchdog) : (b.modWdg f).seg = b.seg := rfl
@[simp] theorem Bar.modWdg_foe (f : Watchdog → Watchdog) : (b.modWdg f).foe = b.foe := rfl
@[simp] theorem Bar.modWdg_foeDetail (f : Watchdog → Watchdog) : (b.modWdg f).foeDetail = b.foeDetail := rfl
@[simp] theorem Bar.modWdg_io (f : Watchdog → Watchdog) : (b.modWdg f).io = b.io := rfl
@[simp] theorem Bar.modWdg_cap (f : Watchdog → Watchdog) : (b.modWdg f).cap = b.cap := rfl
@[simp] theorem Bar.modWdg_thm (f : Watchdog → Watchdog) : (b.modWdg f).thm = b.thm := rfl
@[simp] theorem Bar.modWdg_nz (f : Watchdog → Watchdog) : (b.modWdg f).nz = b.nz := rfl
@[simp] theorem Bar.modWdg_cod (f : Watchdog → Watchdog) : (b.modWdg f).cod = b.cod := rfl
@[simp] theorem Bar.modWdg_sto (f : Watchdog → Watchdog) : (b.modWdg f).sto = b.sto := rfl
@[simp] theorem Bar.modWdg_dlv (f : Watchdog → Watchdog) : (b.modWdg f).dlv = b.dlv := rfl
@[simp] theorem Bar.modWdg_sec (f : Watchdog → Watchdog) : (b.modWdg f).sec = b.sec := rfl

@[simp] theorem Bar.modRet_ret (f : Retained → Retained) : (b.modRet f).saf.ret = f b.saf.ret := rfl
@[simp] theorem Bar.modRet_now (f : Retained → Retained) : (b.modRet f).now = b.now := rfl
@[simp] theorem Bar.modRet_free (f : Retained → Retained) : (b.modRet f).free = b.free := rfl
@[simp] theorem Bar.modRet_segs (f : Retained → Retained) : (b.modRet f).segs = b.segs := rfl
@[simp] theorem Bar.modRet_lines (f : Retained → Retained) : (b.modRet f).lines = b.lines := rfl
@[simp] theorem Bar.modRet_par (f : Retained → Retained) : (b.modRet f).par = b.par := rfl
@[simp] theorem Bar.modRet_persist (f : Retained → Retained) : (b.modRet f).persist = b.persist := rfl
@[simp] theorem Bar.modRet_ecat (f : Retained → Retained) : (b.modRet f).ecat = b.ecat := rfl
@[simp] theorem Bar.modRet_log (f : Retained → Retained) : (b.modRet f).log = b.log := rfl
@[simp] theorem Bar.modRet_sm1 (f : Retained → Retained) : (b.modRet f).sm1 = b.sm1 := rfl
@[simp] theorem Bar.modRet_sdoM (f : Retained → Retained) : (b.modRet f).sdoM = b.sdoM := rfl
@[simp] theorem Bar.modRet_sdoB (f : Retained → Retained) : (b.modRet f).sdoB = b.sdoB := rfl
@[simp] theorem Bar.modRet_seg (f : Retained → Retained) : (b.modRet f).seg = b.seg := rfl
@[simp] theorem Bar.modRet_foe (f : Retained → Retained) : (b.modRet f).foe = b.foe := rfl
@[simp] theorem Bar.modRet_foeDetail (f : Retained → Retained) : (b.modRet f).foeDetail = b.foeDetail := rfl
@[simp] theorem Bar.modRet_io (f : Retained → Retained) : (b.modRet f).io = b.io := rfl
@[simp] theorem Bar.modRet_cap (f : Retained → Retained) : (b.modRet f).cap = b.cap := rfl
@[simp] theorem Bar.modRet_thm (f : Retained → Retained) : (b.modRet f).thm = b.thm := rfl
@[simp] theorem Bar.modRet_nz (f : Retained → Retained) : (b.modRet f).nz = b.nz := rfl
@[simp] theorem Bar.modRet_cod (f : Retained → Retained) : (b.modRet f).cod = b.cod := rfl
@[simp] theorem Bar.modRet_sto (f : Retained → Retained) : (b.modRet f).sto = b.sto := rfl
@[simp] theorem Bar.modRet_dlv (f : Retained → Retained) : (b.modRet f).dlv = b.dlv := rfl
@[simp] theorem Bar.modRet_sec (f : Retained → Retained) : (b.modRet f).sec = b.sec := rfl

@[simp] theorem Bar.modSyn_syn (f : Synth → Synth) : (b.modSyn f).cap.syn = f b.cap.syn := rfl
@[simp] theorem Bar.modSyn_now (f : Synth → Synth) : (b.modSyn f).now = b.now := rfl
@[simp] theorem Bar.modSyn_free (f : Synth → Synth) : (b.modSyn f).free = b.free := rfl
@[simp] theorem Bar.modSyn_segs (f : Synth → Synth) : (b.modSyn f).segs = b.segs := rfl
@[simp] theorem Bar.modSyn_lines (f : Synth → Synth) : (b.modSyn f).lines = b.lines := rfl
@[simp] theorem Bar.modSyn_par (f : Synth → Synth) : (b.modSyn f).par = b.par := rfl
@[simp] theorem Bar.modSyn_persist (f : Synth → Synth) : (b.modSyn f).persist = b.persist := rfl
@[simp] theorem Bar.modSyn_ecat (f : Synth → Synth) : (b.modSyn f).ecat = b.ecat := rfl
@[simp] theorem Bar.modSyn_log (f : Synth → Synth) : (b.modSyn f).log = b.log := rfl
@[simp] theorem Bar.modSyn_sm1 (f : Synth → Synth) : (b.modSyn f).sm1 = b.sm1 := rfl
@[simp] theorem Bar.modSyn_sdoM (f : Synth → Synth) : (b.modSyn f).sdoM = b.sdoM := rfl
@[simp] theorem Bar.modSyn_sdoB (f : Synth → Synth) : (b.modSyn f).sdoB = b.sdoB := rfl
@[simp] theorem Bar.modSyn_seg (f : Synth → Synth) : (b.modSyn f).seg = b.seg := rfl
@[simp] theorem Bar.modSyn_foe (f : Synth → Synth) : (b.modSyn f).foe = b.foe := rfl
@[simp] theorem Bar.modSyn_foeDetail (f : Synth → Synth) : (b.modSyn f).foeDetail = b.foeDetail := rfl
@[simp] theorem Bar.modSyn_io (f : Synth → Synth) : (b.modSyn f).io = b.io := rfl
@[simp] theorem Bar.modSyn_saf (f : Synth → Synth) : (b.modSyn f).saf = b.saf := rfl
@[simp] theorem Bar.modSyn_thm (f : Synth → Synth) : (b.modSyn f).thm = b.thm := rfl
@[simp] theorem Bar.modSyn_nz (f : Synth → Synth) : (b.modSyn f).nz = b.nz := rfl
@[simp] theorem Bar.modSyn_cod (f : Synth → Synth) : (b.modSyn f).cod = b.cod := rfl
@[simp] theorem Bar.modSyn_sto (f : Synth → Synth) : (b.modSyn f).sto = b.sto := rfl
@[simp] theorem Bar.modSyn_dlv (f : Synth → Synth) : (b.modSyn f).dlv = b.dlv := rfl
@[simp] theorem Bar.modSyn_sec (f : Synth → Synth) : (b.modSyn f).sec = b.sec := rfl

@[simp] theorem Bar.modTb_tb (f : Timebase → Timebase) : (b.modTb f).cap.tb = f b.cap.tb := rfl
@[simp] theorem Bar.modTb_now (f : Timebase → Timebase) : (b.modTb f).now = b.now := rfl
@[simp] theorem Bar.modTb_free (f : Timebase → Timebase) : (b.modTb f).free = b.free := rfl
@[simp] theorem Bar.modTb_segs (f : Timebase → Timebase) : (b.modTb f).segs = b.segs := rfl
@[simp] theorem Bar.modTb_lines (f : Timebase → Timebase) : (b.modTb f).lines = b.lines := rfl
@[simp] theorem Bar.modTb_par (f : Timebase → Timebase) : (b.modTb f).par = b.par := rfl
@[simp] theorem Bar.modTb_persist (f : Timebase → Timebase) : (b.modTb f).persist = b.persist := rfl
@[simp] theorem Bar.modTb_ecat (f : Timebase → Timebase) : (b.modTb f).ecat = b.ecat := rfl
@[simp] theorem Bar.modTb_log (f : Timebase → Timebase) : (b.modTb f).log = b.log := rfl
@[simp] theorem Bar.modTb_sm1 (f : Timebase → Timebase) : (b.modTb f).sm1 = b.sm1 := rfl
@[simp] theorem Bar.modTb_sdoM (f : Timebase → Timebase) : (b.modTb f).sdoM = b.sdoM := rfl
@[simp] theorem Bar.modTb_sdoB (f : Timebase → Timebase) : (b.modTb f).sdoB = b.sdoB := rfl
@[simp] theorem Bar.modTb_seg (f : Timebase → Timebase) : (b.modTb f).seg = b.seg := rfl
@[simp] theorem Bar.modTb_foe (f : Timebase → Timebase) : (b.modTb f).foe = b.foe := rfl
@[simp] theorem Bar.modTb_foeDetail (f : Timebase → Timebase) : (b.modTb f).foeDetail = b.foeDetail := rfl
@[simp] theorem Bar.modTb_io (f : Timebase → Timebase) : (b.modTb f).io = b.io := rfl
@[simp] theorem Bar.modTb_saf (f : Timebase → Timebase) : (b.modTb f).saf = b.saf := rfl
@[simp] theorem Bar.modTb_thm (f : Timebase → Timebase) : (b.modTb f).thm = b.thm := rfl
@[simp] theorem Bar.modTb_nz (f : Timebase → Timebase) : (b.modTb f).nz = b.nz := rfl
@[simp] theorem Bar.modTb_cod (f : Timebase → Timebase) : (b.modTb f).cod = b.cod := rfl
@[simp] theorem Bar.modTb_sto (f : Timebase → Timebase) : (b.modTb f).sto = b.sto := rfl
@[simp] theorem Bar.modTb_dlv (f : Timebase → Timebase) : (b.modTb f).dlv = b.dlv := rfl
@[simp] theorem Bar.modTb_sec (f : Timebase → Timebase) : (b.modTb f).sec = b.sec := rfl

@[simp] theorem Bar.modSn_saf_power (f : SafetyNet → SafetyNet) : (b.modSn f).saf.power = b.saf.power := rfl
@[simp] theorem Bar.modSn_saf_ist (f : SafetyNet → SafetyNet) : (b.modSn f).saf.ist = b.saf.ist := rfl
@[simp] theorem Bar.modSn_saf_wdg (f : SafetyNet → SafetyNet) : (b.modSn f).saf.wdg = b.saf.wdg := rfl
@[simp] theorem Bar.modSn_saf_ret (f : SafetyNet → SafetyNet) : (b.modSn f).saf.ret = b.saf.ret := rfl
@[simp] theorem Bar.modSn_saf_resetAt (f : SafetyNet → SafetyNet) : (b.modSn f).saf.resetAt = b.saf.resetAt := rfl
@[simp] theorem Bar.modSn_saf_faultMismatch (f : SafetyNet → SafetyNet) : (b.modSn f).saf.faultMismatch = b.saf.faultMismatch := rfl
@[simp] theorem Bar.modIst_saf_power (f : Ist → Ist) : (b.modIst f).saf.power = b.saf.power := rfl
@[simp] theorem Bar.modIst_saf_sn (f : Ist → Ist) : (b.modIst f).saf.sn = b.saf.sn := rfl
@[simp] theorem Bar.modIst_saf_wdg (f : Ist → Ist) : (b.modIst f).saf.wdg = b.saf.wdg := rfl
@[simp] theorem Bar.modIst_saf_ret (f : Ist → Ist) : (b.modIst f).saf.ret = b.saf.ret := rfl
@[simp] theorem Bar.modIst_saf_resetAt (f : Ist → Ist) : (b.modIst f).saf.resetAt = b.saf.resetAt := rfl
@[simp] theorem Bar.modIst_saf_faultMismatch (f : Ist → Ist) : (b.modIst f).saf.faultMismatch = b.saf.faultMismatch := rfl
@[simp] theorem Bar.modWdg_saf_power (f : Watchdog → Watchdog) : (b.modWdg f).saf.power = b.saf.power := rfl
@[simp] theorem Bar.modWdg_saf_sn (f : Watchdog → Watchdog) : (b.modWdg f).saf.sn = b.saf.sn := rfl
@[simp] theorem Bar.modWdg_saf_ist (f : Watchdog → Watchdog) : (b.modWdg f).saf.ist = b.saf.ist := rfl
@[simp] theorem Bar.modWdg_saf_ret (f : Watchdog → Watchdog) : (b.modWdg f).saf.ret = b.saf.ret := rfl
@[simp] theorem Bar.modWdg_saf_resetAt (f : Watchdog → Watchdog) : (b.modWdg f).saf.resetAt = b.saf.resetAt := rfl
@[simp] theorem Bar.modWdg_saf_faultMismatch (f : Watchdog → Watchdog) : (b.modWdg f).saf.faultMismatch = b.saf.faultMismatch := rfl
@[simp] theorem Bar.modRet_saf_power (f : Retained → Retained) : (b.modRet f).saf.power = b.saf.power := rfl
@[simp] theorem Bar.modRet_saf_sn (f : Retained → Retained) : (b.modRet f).saf.sn = b.saf.sn := rfl
@[simp] theorem Bar.modRet_saf_ist (f : Retained → Retained) : (b.modRet f).saf.ist = b.saf.ist := rfl
@[simp] theorem Bar.modRet_saf_wdg (f : Retained → Retained) : (b.modRet f).saf.wdg = b.saf.wdg := rfl
@[simp] theorem Bar.modRet_saf_resetAt (f : Retained → Retained) : (b.modRet f).saf.resetAt = b.saf.resetAt := rfl
@[simp] theorem Bar.modRet_saf_faultMismatch (f : Retained → Retained) : (b.modRet f).saf.faultMismatch = b.saf.faultMismatch := rfl

@[simp] theorem Bar.at_now (t : Nat) : (b.at t).now = b.counterAt t := rfl
@[simp] theorem Bar.at_free (t : Nat) : (b.at t).free = b.free := rfl
@[simp] theorem Bar.at_segs (t : Nat) : (b.at t).segs = b.segs := rfl
@[simp] theorem Bar.at_lines (t : Nat) : (b.at t).lines = b.lines := rfl
@[simp] theorem Bar.at_par (t : Nat) : (b.at t).par = b.par := rfl
@[simp] theorem Bar.at_persist (t : Nat) : (b.at t).persist = b.persist := rfl
@[simp] theorem Bar.at_ecat (t : Nat) : (b.at t).ecat = b.ecat := rfl
@[simp] theorem Bar.at_log (t : Nat) : (b.at t).log = b.log := rfl
@[simp] theorem Bar.at_sm1 (t : Nat) : (b.at t).sm1 = b.sm1 := rfl
@[simp] theorem Bar.at_sdoM (t : Nat) : (b.at t).sdoM = b.sdoM := rfl
@[simp] theorem Bar.at_sdoB (t : Nat) : (b.at t).sdoB = b.sdoB := rfl
@[simp] theorem Bar.at_seg (t : Nat) : (b.at t).seg = b.seg := rfl
@[simp] theorem Bar.at_foe (t : Nat) : (b.at t).foe = b.foe := rfl
@[simp] theorem Bar.at_foeDetail (t : Nat) : (b.at t).foeDetail = b.foeDetail := rfl
@[simp] theorem Bar.at_io (t : Nat) : (b.at t).io = b.io := rfl
@[simp] theorem Bar.at_cap (t : Nat) : (b.at t).cap = b.cap := rfl
@[simp] theorem Bar.at_saf (t : Nat) : (b.at t).saf = b.saf := rfl
@[simp] theorem Bar.at_thm (t : Nat) : (b.at t).thm = b.thm := rfl
@[simp] theorem Bar.at_nz (t : Nat) : (b.at t).nz = b.nz := rfl
@[simp] theorem Bar.at_cod (t : Nat) : (b.at t).cod = b.cod := rfl
@[simp] theorem Bar.at_sto (t : Nat) : (b.at t).sto = b.sto := rfl
@[simp] theorem Bar.at_dlv (t : Nat) : (b.at t).dlv = b.dlv := rfl
@[simp] theorem Bar.at_sec (t : Nat) : (b.at t).sec = b.sec := rfl

/-! ### A log entry -/

@[simp] theorem Bar.logWith_now (code arg sev : Nat) (r e : Bool) : (b.logWith code arg sev r e).now = b.now := rfl
@[simp] theorem Bar.logWith_free (code arg sev : Nat) (r e : Bool) : (b.logWith code arg sev r e).free = b.free := rfl
@[simp] theorem Bar.logWith_segs (code arg sev : Nat) (r e : Bool) : (b.logWith code arg sev r e).segs = b.segs := rfl
@[simp] theorem Bar.logWith_lines (code arg sev : Nat) (r e : Bool) : (b.logWith code arg sev r e).lines = b.lines := rfl
@[simp] theorem Bar.logWith_par (code arg sev : Nat) (r e : Bool) : (b.logWith code arg sev r e).par = b.par := rfl
@[simp] theorem Bar.logWith_persist (code arg sev : Nat) (r e : Bool) : (b.logWith code arg sev r e).persist = b.persist := rfl
@[simp] theorem Bar.logWith_ecat (code arg sev : Nat) (r e : Bool) : (b.logWith code arg sev r e).ecat = b.ecat := rfl
@[simp] theorem Bar.logWith_sdoM (code arg sev : Nat) (r e : Bool) : (b.logWith code arg sev r e).sdoM = b.sdoM := rfl
@[simp] theorem Bar.logWith_sdoB (code arg sev : Nat) (r e : Bool) : (b.logWith code arg sev r e).sdoB = b.sdoB := rfl
@[simp] theorem Bar.logWith_seg (code arg sev : Nat) (r e : Bool) : (b.logWith code arg sev r e).seg = b.seg := rfl
@[simp] theorem Bar.logWith_foe (code arg sev : Nat) (r e : Bool) : (b.logWith code arg sev r e).foe = b.foe := rfl
@[simp] theorem Bar.logWith_foeDetail (code arg sev : Nat) (r e : Bool) : (b.logWith code arg sev r e).foeDetail = b.foeDetail := rfl
@[simp] theorem Bar.logWith_io (code arg sev : Nat) (r e : Bool) : (b.logWith code arg sev r e).io = b.io := rfl
@[simp] theorem Bar.logWith_cap (code arg sev : Nat) (r e : Bool) : (b.logWith code arg sev r e).cap = b.cap := rfl
@[simp] theorem Bar.logWith_saf (code arg sev : Nat) (r e : Bool) : (b.logWith code arg sev r e).saf = b.saf := rfl
@[simp] theorem Bar.logWith_thm (code arg sev : Nat) (r e : Bool) : (b.logWith code arg sev r e).thm = b.thm := rfl
@[simp] theorem Bar.logWith_nz (code arg sev : Nat) (r e : Bool) : (b.logWith code arg sev r e).nz = b.nz := rfl
@[simp] theorem Bar.logWith_cod (code arg sev : Nat) (r e : Bool) : (b.logWith code arg sev r e).cod = b.cod := rfl
@[simp] theorem Bar.logWith_sto (code arg sev : Nat) (r e : Bool) : (b.logWith code arg sev r e).sto = b.sto := rfl
@[simp] theorem Bar.logWith_dlv (code arg sev : Nat) (r e : Bool) : (b.logWith code arg sev r e).dlv = b.dlv := rfl
@[simp] theorem Bar.logWith_sec (code arg sev : Nat) (r e : Bool) : (b.logWith code arg sev r e).sec = b.sec := rfl
@[simp] theorem Bar.logEvent_now (code arg : Nat) : (b.logEvent code arg).now = b.now := rfl
@[simp] theorem Bar.logEvent_free (code arg : Nat) : (b.logEvent code arg).free = b.free := rfl
@[simp] theorem Bar.logEvent_segs (code arg : Nat) : (b.logEvent code arg).segs = b.segs := rfl
@[simp] theorem Bar.logEvent_lines (code arg : Nat) : (b.logEvent code arg).lines = b.lines := rfl
@[simp] theorem Bar.logEvent_par (code arg : Nat) : (b.logEvent code arg).par = b.par := rfl
@[simp] theorem Bar.logEvent_persist (code arg : Nat) : (b.logEvent code arg).persist = b.persist := rfl
@[simp] theorem Bar.logEvent_ecat (code arg : Nat) : (b.logEvent code arg).ecat = b.ecat := rfl
@[simp] theorem Bar.logEvent_sdoM (code arg : Nat) : (b.logEvent code arg).sdoM = b.sdoM := rfl
@[simp] theorem Bar.logEvent_sdoB (code arg : Nat) : (b.logEvent code arg).sdoB = b.sdoB := rfl
@[simp] theorem Bar.logEvent_seg (code arg : Nat) : (b.logEvent code arg).seg = b.seg := rfl
@[simp] theorem Bar.logEvent_foe (code arg : Nat) : (b.logEvent code arg).foe = b.foe := rfl
@[simp] theorem Bar.logEvent_foeDetail (code arg : Nat) : (b.logEvent code arg).foeDetail = b.foeDetail := rfl
@[simp] theorem Bar.logEvent_io (code arg : Nat) : (b.logEvent code arg).io = b.io := rfl
@[simp] theorem Bar.logEvent_cap (code arg : Nat) : (b.logEvent code arg).cap = b.cap := rfl
@[simp] theorem Bar.logEvent_saf (code arg : Nat) : (b.logEvent code arg).saf = b.saf := rfl
@[simp] theorem Bar.logEvent_thm (code arg : Nat) : (b.logEvent code arg).thm = b.thm := rfl
@[simp] theorem Bar.logEvent_nz (code arg : Nat) : (b.logEvent code arg).nz = b.nz := rfl
@[simp] theorem Bar.logEvent_cod (code arg : Nat) : (b.logEvent code arg).cod = b.cod := rfl
@[simp] theorem Bar.logEvent_sto (code arg : Nat) : (b.logEvent code arg).sto = b.sto := rfl
@[simp] theorem Bar.logEvent_dlv (code arg : Nat) : (b.logEvent code arg).dlv = b.dlv := rfl
@[simp] theorem Bar.logEvent_sec (code arg : Nat) : (b.logEvent code arg).sec = b.sec := rfl

/-! ### The queue -/

@[simp] theorem State.withQueue_pending (s : State) (b : List Instr) : ({ s with pending := b } : State).pending = b := rfl
@[simp] theorem State.withQueue_bar (s : State) (b : List Instr) : ({ s with pending := b } : State).bar = s.bar := rfl

end Sys2Proof.Machine
end

