-- ==== Sys2Proof/Laws/Ops.lean ====
section
/-! SUPPORT. What the shared operations can do, said once: how a command reaches the bar, the event log, the parameter
stores. -/

namespace Sys2Proof.Machine

/-! ### Commands -/

@[simp] theorem State.occur_next (s : State) (t : Nat) (f : Bar → Bar) :
    s.occur t f = .next { s with bar := f (s.bar.at t) } := rfl

@[simp] theorem Bar.at_alive (b : Bar) (t : Nat) : (b.at t).alive = b.alive := rfl

theorem State.live_alive {s : State} (t : Nat) (f : Bar → Bar) (h : s.bar.alive = true) :
    s.live t f = .next { s with bar := (f (s.bar.at t)).after } := by
  simp [State.live, h]

theorem State.live_idle {s : State} (t : Nat) (f : Bar → Bar) (h : s.bar.alive = false) :
    s.live t f = .next { s with bar := s.bar.at t } := by
  simp [State.live, h]

/-- No command of the running bar faults or is refused, and none touches the queue. -/
theorem State.live_next (s : State) (t : Nat) (f : Bar → Bar) : ∃ b, s.live t f = .next { s with bar := b } := ⟨_, rfl⟩

theorem State.request_next (s : State) (t : Nat) (f : Bar → Bar) : ∃ b, s.request t f = .next { s with bar := b } := ⟨_, rfl⟩

theorem State.measured_next (s : State) (t : Nat) (f : Bar → Bar) : ∃ b, s.measured t f = .next { s with bar := b } := ⟨_, rfl⟩

theorem State.ofSegment_cases (s : State) (seg : Fin 8) (t : Nat) (f : Bar → Bar) :
    (s.bar.segs ≤ seg.val ∧ s.ofSegment seg t f = .fault .absentSegment) ∨
    (seg.val < s.bar.segs ∧ s.ofSegment seg t f = s.live t f) := by
  unfold State.ofSegment
  split
  · exact .inl ⟨‹_›, rfl⟩
  · exact .inr ⟨by omega, rfl⟩

theorem ingestGuard_of_empty {b : Bar} (h : b.cap.ingests = []) : b.ingestGuard = b := by
  simp [Bar.ingestGuard, h]

/-! ### What follows every command -/

@[simp] theorem Bar.at_faultHigh (b : Bar) (t : Nat) : (b.at t).faultHigh = b.faultHigh := rfl

theorem Bar.noteFault_faultHigh (b : Bar) : b.noteFault.faultHigh = b.faultHigh := by
  unfold Bar.noteFault
  split <;> rfl

theorem Bar.noteFault_faultWas (b : Bar) : b.noteFault.saf.faultWas = b.faultHigh := by
  unfold Bar.noteFault
  split
  · exact Eq.symm ‹_›
  · rfl

/-- After every command the request of FAULT_N that is held is the one of the state (R424). -/
theorem Bar.after_faultWas (b : Bar) : b.after.saf.faultWas = b.after.faultHigh := by
  rw [Bar.after, Bar.noteFault_faultWas, Bar.noteFault_faultHigh]

/-! ### The event log (R352) -/

theorem Bar.logWith_entries (b : Bar) (code arg sev : Nat) (r e : Bool) :
    ∃ x, (b.logWith code arg sev r e).log.entries = x :: b.log.entries.take (logSize - 1) ∧ x.code = code ∧ x.arg = arg
      ∧ x.severity = sev ∧ x.number = b.log.next ∧ x.time = b.now := ⟨_, rfl, rfl, rfl, rfl, rfl, rfl⟩

theorem Bar.logWith_next (b : Bar) (code arg sev : Nat) (r e : Bool) : (b.logWith code arg sev r e).log.next = b.log.next + 1 := rfl

theorem Bar.logWith_bound (b : Bar) (code arg sev : Nat) (r e : Bool) :
    (b.logWith code arg sev r e).log.entries.length ≤ logSize := by
  obtain ⟨x, h, -⟩ := b.logWith_entries code arg sev r e
  rw [h, List.length_cons, List.length_take]
  unfold logSize
  omega

/-! ### Stores (R33) -/

theorem Store.find_put_self : (st : Store) → (k : Nat) → (v : Val) → (Store.put st k v).find k = some v
  | [], k, v => by simp [Store.put, Store.find]
  | (a, w) :: rest, k, v => by
    unfold Store.put
    split
    · simp [Store.find]
    · split
      · simp [Store.find]
      · rename_i h1 h2
        have : a ≠ k := fun e => h2 e.symm
        simp [Store.find, this, Store.find_put_self rest k v]

theorem Store.find_put_other : (st : Store) → (k j : Nat) → (v : Val) → j ≠ k → (Store.put st k v).find j = st.find j
  | [], k, j, v, h => by simp [Store.put, Store.find, Ne.symm h]
  | (a, w) :: rest, k, j, v, h => by
    unfold Store.put
    split
    · simp [Store.find, Ne.symm h]
    · split
      · rename_i h2; subst h2; simp [Store.find, Ne.symm h]
      · simp [Store.find, Store.find_put_other rest k j v h]

end Sys2Proof.Machine
end

