-- ==== Sys2Proof/Machine/Pins.lean ====
section
/-! DEFINITION. What the bar's output pins show (R114 to R117, R365, R408, R421, R424, R487, R495), as functions of its
state: strobes and current setpoints of the segment ports, the control outputs of J1, and the IDCODE. -/

namespace Sys2Proof.Machine

/-- Lines run (R116): a DAC output is enabled, a session is open, and the synthesiser, where it triggers them, is not STOPPED.
Before a session's first line the outputs are already its own (R117). -/
def Bar.linesRun (b : Bar) : Bool :=
  b.alive && b.rwN 0x2215 2 ≠ 0 && b.ecat.session && (!b.usesEncoder || b.cap.syn.state ≠ .stopped || b.cap.lineLog.isEmpty)

/-- The last line issued. -/
def Bar.lastIssued (b : Bar) : Option LineRec := b.cap.lineLog.find? fun l => !l.dropped

/-- Over which times strobe o is asserted for a line (R114), by the width in effect (R118). -/
def Bar.strobeWindow (b : Bar) (l : LineRec) (o : Nat) : Option (Nat × Nat) :=
  match b.strobeMode (b.setAt l.n) l.ctx o with
  | 1 => some (l.t, l.tx)
  | 2 => some (l.tx - (b.lightAt l).w.getD o 0, l.tx)
  | _ => none

/-- Strobe o is asserted now, on every segment port. -/
def Bar.strobeAsserted (b : Bar) (o : Fin 2) : Bool :=
  b.linesRun && match b.lastIssued.bind fun l => b.strobeWindow l o.val with
    | some (from_, until_) => decide (from_ ≤ b.now) && decide (b.now < until_)
    | none => false

/-- The persisted configuration has been applied: pins have left the Reset column of Table 17-7, which recovery mode, in which no
firmware runs, never does. -/
def Bar.configured (b : Bar) : Bool := b.saf.power = .running

/-- The level of STROBE o of a segment port; none while it is high-impedance, in reset and in shutdown (Table 17-7).
The polarity gives the inactive level (R116). -/
def Bar.strobePin (b : Bar) (s : Fin 8) (o : Fin 2) : Option Bool :=
  if b.configured && decide (s.val < b.segs) then some (b.strobeAsserted o ^^ bit (b.rwN 0x2215 1) o.val) else none

/-- The code in DAC o of a segment port (R117): that of the last line issued until its t_x, then that of the next line,
with the set, the context and the cap that line will have; 0 V while no line runs or the output is not enabled. -/
def Bar.dacPin (b : Bar) (s : Fin 8) (o : Fin 2) : Nat :=
  if !b.linesRun || !bit (b.rwN 0x2215 2) o.val || decide (b.segs ≤ s.val) then 0
  else
    let next := b.beforeLine b.lines
    let st := next.par.live
    let coming := next.dacCode st s.val o.val (next.patCtx st ((b.lines - next.cap.patAnchor) % next.patLen st)) next.cap.pstep
    match b.lastIssued with
    | some l => if b.now < l.tx then b.dacCode (b.setAt l.n) s.val o.val l.ctx l.pstep else coming
    | none => coming

/-- THERM_N is low in a hardware shutdown and released otherwise (R408, R409). -/
def Bar.thermReleased (b : Bar) : Bool := b.saf.power ≠ .shutdown

/-- ECAT_PHY_RST_N is high while the bar runs (Table 17-7). DEDUCED (log 162): in recovery mode too, since the slave reaches PRE-OP in
it (R446). -/
def Bar.phyRunning (b : Bar) : Bool := b.alive

/-- A 25G transmitter is active while its port is enabled, and in electrical idle otherwise (Table 17-7). -/
def Bar.txActive (b : Bar) (p : Fin 4) : Bool := b.alive && b.portOn p

/-- CEx_n are high and WP_n is low: the NAND is neither selected nor written in reset and in shutdown (Table 17-7). -/
def Bar.nandHeld (b : Bar) : Bool := !b.configured

/-- What the TAP controller of the JTAG port does, as far as Table 17-7 tells its states apart. -/
inductive TapState where
  | shiftDr
  | shiftIr
  | other
  deriving DecidableEq, Repr

/-- The level of TDO, `out` being the bit that the TAP shifts out; none while it is high-impedance: in reset, in shutdown and in every
state but Shift-DR and Shift-IR (Table 17-7). DEDUCED (log 162): while EXTEST holds the bar in reset it shifts, or the boundary
register could not be read (R495). -/
def Bar.tdoPin (b : Bar) (tap : TapState) (out : Bool) : Option Bool :=
  if tap = .other || b.saf.power = .reset || b.saf.power = .shutdown then none else some out

/-! ### Where a signal stands (R483 to R486) -/

/-- The J1 pins of port p's 25G lane: TX_P, TX_N, RX_P, RX_N. -/
def lanePins (p : Fin 4) : Nat × Nat × Nat × Nat := (73 + 4 * p.val, 74 + 4 * p.val, 75 + 4 * p.val, 76 + 4 * p.val)

/-- The J2 pin at an offset of 1 to 48 within an ONFI channel. -/
def onfiPin (k : Fin 8) (offset : Nat) : Nat := 48 * k.val + offset

/-- The J3 pin of Carousel pin 8b + i. -/
def carouselJ3 (i : Fin 64) : Nat := 10 * (i.val / 8) + i.val % 8 + 1

/-- The remote temperature input of R398 that segment port Ps's input o is. -/
def remoteInput (s : Fin 8) (o : Fin 2) : Nat := 2 * s.val + o.val

/-- The IDCODE (R495): die revision, variant, and the manufacturer bits the spec does not state. -/
def Bar.idcode (b : Bar) : Nat :=
  Config.openObject 0x1DC0DE1 % 16 * 2 ^ 28 + (0x4800 + b.segs) * 2 ^ 12 + Config.openObject 0x1DC0DE0 % 4096

end Sys2Proof.Machine
end

