-- ==== Sys2Proof/Machine/Statistics.lean ====
section
/-! DEFINITION. Statistics over lines (R31, R44, R131): the frame, context and generation that each pixel counts in, what a
statistic's parts are, and what block frames count. They are functions of the line record, which holds all the session's
lines, its items and its sets. -/

namespace Sys2Proof.Machine

/-- What a statistic belongs to: an item's frame, or a block frame. -/
inductive FrameId where
  | item (ix : Nat)
  | block (k : Nat)
  deriving DecidableEq, Repr

/-- Is line n in the frame of an item, [s, f), as far as it has come? -/
def Bar.frameHas (b : Bar) (i : Item) (n : Nat) : Bool := i.started && decide (i.s ≤ n) && decide (n < i.f.getD b.lines)

/-- The frame that the pixel of line n and host column c belongs to (R131). -/
def Bar.pixelFrame (b : Bar) (n c : Nat) : FrameId :=
  match (List.range b.cap.items.length).find? fun ix =>
      match b.cap.items[ix]? with
      | some i => b.frameHas i n && decide (i.laneN b 0x2500 ≤ c) && decide (c < i.laneN b 0x2501)
      | none => false with
  | some ix => .item ix
  | none => .block (n / 4096)

/-- Lines of a frame: those triggered in [s, f), or those of the block frame. A block frame exists whatever items there
are (R31). -/
def Bar.frameRange (b : Bar) : FrameId → Nat × Nat
  | .item ix => match b.cap.items[ix]? with | some i => if i.started then (i.s, i.f.getD b.lines) else (0, 0) | none => (0, 0)
  | .block k => (4096 * k, 4096 * (k + 1))

/-- A part of a statistic: a line range of one generation (R44). -/
structure StatPart where
  first : Nat
  stop : Nat
  gen : Nat
  deriving DecidableEq, Repr

/-- A range closed and reopened at each apply line within it (R44); a change of thermal step splits nothing (R120). -/
def Bar.statParts (b : Bar) (fr : FrameId) : List StatPart :=
  let (x, y) := b.frameRange fr
  let cuts := x :: ((b.cap.sets.reverse.map (·.line)).filter fun n => decide (x < n) && decide (n < y)) ++ [y]
  (cuts.zip cuts.tail).filterMap fun p => if p.1 < p.2 then some ⟨p.1, p.2, b.genAt p.1⟩ else none

/-- The lines of a part in a context: lines of a context count only there (R131). -/
def Bar.statLines (b : Bar) (p : StatPart) (k : Nat) : List LineRec :=
  (b.cap.lineLog.filter fun l => decide (p.first ≤ l.n) && decide (l.n < p.stop) && l.ctx = k && !l.dropped).reverse

/-- Host columns of a frame at a line: those of no item for a block frame. -/
def Bar.frameCols (b : Bar) (fr : FrameId) (n : Nat) : List Nat :=
  (List.range b.columns).filter fun c => b.pixelFrame n c = fr

/-- A statistic that sums `value` over a part's pixels in a context: a count, a sum, a bin of a histogram, or one column of
a profile. -/
def Bar.statSum (b : Bar) (fr : FrameId) (p : StatPart) (k : Nat) (value : LineRec → Nat → Nat) : Nat :=
  ((b.statLines p k).map fun l => ((b.frameCols fr l.n).map (value l)).sum).sum

/-- What a frame counts in each part and context: its part, its context, its lines with a pixel of it, and its pixels. -/
structure FrameCount where
  part : StatPart
  ctx : Nat
  lines : Nat
  pixels : Nat
  deriving DecidableEq, Repr

/-- Lines and columns recorded and counted by frame; those of no item count in their block frame (R31). -/
def Bar.frameCounts (b : Bar) (fr : FrameId) : List FrameCount :=
  (b.statParts fr).flatMap fun p => (List.range 4).map fun k =>
    { part := p, ctx := k
      lines := ((b.statLines p k).filter fun l => !(b.frameCols fr l.n).isEmpty).length
      pixels := b.statSum fr p k fun _ _ => 1 }

end Sys2Proof.Machine
end

