-- ==== Sys2Proof/Tests/Slice0.lean ====
section
/-! SUPPORT. Tests of the model on fixed states: commands that are not well formed, words and worked examples of the
manual, single steps, and for every statement with hypotheses a state and operands that meet them. -/

namespace Sys2Proof.Tests

set_option Elab.async false

open Sys2Proof Sys2Proof.Machine

/-! ### States the tests start from -/

/-- A bar in PRE-OP after start-up. -/
def pre : Bar :=
  { Bar.reset with saf := { Safety.reset with power := .running }, ecat := { Ecat.reset with al := .preop, preopReached := true } }

/-- A bar in OP with a session. -/
def live : Bar := { pre with ecat := { pre.ecat with al := .op, session := true } }

/-- A bar whose engine 0 runs channel 0 at one instruction. -/
def car (i : CInstr) : Bar :=
  ((pre.putRw 0x2A00 5 (.num 1)).modEngine 0 fun e => { e with state := .running, program := e.program.set 0 (encodeCarousel i), turnFrom := 5 }).modChan 0
    fun c => { c with active := true }

/-- An announced item, not started. -/
def item (lane number : Nat) : Item :=
  { lane := lane, number := number, length := 100, handle := 0, pin := false, ordValid := false, ord := 0, sampled := 0, queued := true
    matched := false, started := false, s := 0, target := none, lateTo := 0, nextS := none, nextTarget := none, obs := none, obsTarget := none
    cutAt := none, f := none, seq := none, gen := 0, laneSet := [], reasons := 0, flags := 0, detail := 0, stopDue := none
    readStart := none, ref := none, refLost := none, garbled := [], published := false }

/-- The bar after one command on a state with an empty queue; the state itself where the command ends otherwise. -/
def after (c : Instr) (b : Bar) : Bar := match exec c ⟨[], b⟩ with | .next s => s.bar | _ => b

/-- The newest log entry's code and ARG. -/
def newest (b : Bar) : Nat × Nat := match b.log.entries.head? with | some e => (e.code, e.arg) | none => (0, 0)

/-- Abort code of the newest mailbox answer. -/
def answered (b : Bar) : Option Nat := match b.sm1.getLast? with | some (.sdoResponse _ _ abort _ _) => some abort | _ => none

/-! ### Commands that are not well formed -/

/-- A datagram from no address. -/
def badRx : Rx := { addr := [], udp := 48500, port := 0, bytes := [] }

/-- A segment line whose one row is of a band, from a first pixel on. -/
def badLine (band first : Nat) : SegLine :=
  { words := [], early := false, badBlock := false, rows := [{ band := band, row := 0, first := first, signals := [0] }], dark0 := [], dark1 := []
    adcOverrun := false, reserved := [], sbfFaults := [] }

/-- An in-service test that reads what it should. -/
def goodReading : TestReading := { got := [], want := [], faults := 0 }

theorem test_wf_management :
    [Instr.mailboxUnsupported 0 16, .sdoDownload 0 (.request (mailRequest .download 65536 0 [])),
      .sdoDownload 0 (.request (mailRequest .download 0 256 [])), .sdoDownload 0 (.segment 65536 0), .sdoDownload 0 (.toggleError 0 256),
      .sdoDownload 0 (.unknownCommand 65536 0), .sdoDownload 0 (.describe 0 256), .referenceDelete 0 (2 ^ 32),
      .sdoDownload 0 (.objectInfo 65536), .rxpdoSample 0 ⟨zeros 79, 0⟩].any Instr.wf = false := by decide +kernel

theorem test_wf_security :
    [Instr.advanceSvn 0 [256], .advanceKeyRev 0 [256], .advanceCalGen 0 [256], .fieldClose 0 256,
      .fuseReread 0 none 528 0 0, .fuseReread 0 (some 0) 68 0 0, .fuseReread 0 none 0 (2 ^ 64) 0, .fuseReread 0 none 0 0 (2 ^ 64),
      .startup 0 { refclk := true, fwStarts := true, absent := [], voutMode := some 256, modePec := true, vcoreAck := true, vcorePec := true, fuses := [] },
      .startup 0 { refclk := true, fwStarts := true, absent := [], voutMode := none, modePec := true, vcoreAck := true, vcorePec := true, fuses := [(none, 528, 0, 0)] }].any Instr.wf = false := by decide +kernel

theorem test_wf_files_and_jobs :
    [Instr.foeDataPacket 0 (2 ^ 32) [], .foeDataPacket 0 1 (zeros 1013), .programWrite 0 0 (zeros 16385), .jobSubmit 0 (zeros 63) [] [],
      .jobSubmit 0 (zeros 64) [] [zeros 31], .refCommit 0 (2 ^ 32)].any Instr.wf = false := by decide +kernel

theorem test_wf_delivery :
    [Instr.hello 0 badRx, .close 0 badRx, .replayReq 0 badRx, .benchReq 0 badRx [], .benchReq 0 { badRx with addr := zeros 16 } [badRx],
      .spoolBegin 0 badRx, .spoolData 0 badRx, .readbackRequest 0 badRx, .credit 0 badRx, .commandRecord 0 badRx, .snapshot 0 badRx,
      .kspMalformed 0 badRx, .keepaliveReceived 0 badRx, .hello 0 { badRx with addr := zeros 16, udp := 65536 },
      .arpRequest 0 { port := 0 } (zeros 5) (zeros 4) (zeros 4), .arpRequest 0 { port := 0 } (zeros 6) (zeros 3) (zeros 4),
      .arpRequest 0 { port := 0 } (zeros 6) (zeros 4) (zeros 5), .arpRequest 0 { port := 0, fragment := true } (zeros 6) (zeros 4) (zeros 4),
      .arpRequest 0 { port := 0, tag := some 4096 } (zeros 6) (zeros 4) (zeros 4),
      .neighbourSolicitation 0 { port := 0 } (zeros 4) (zeros 16), .neighbourSolicitation 0 { port := 0 } (zeros 16) (zeros 4),
      .echoRequest 0 { port := 0 } false (zeros 16) (zeros 16) [], .echoRequest 0 { port := 0 } true (zeros 16) (zeros 4) []].any Instr.wf = false := by decide +kernel

theorem test_wf_capture :
    [Instr.syncMessage 0 4 0, .segmentLine 0 0 0 (badLine 4 0), .segmentLine 0 0 0 (badLine 0 7680),
      .segmentLineTimeout 0 0 0 (badLine 4 0), .segmentLine 0 0 0 { badLine 0 0 with rows := [{ band := 0, row := 8, first := 0, signals := [] }] },
      .verdictPublish 0 0 (2 ^ 32), .verdictLate 0 0 (2 ^ 32), .slackMeasurement 0 [(9, 0, 0)], .pmbusPoll 0 ⟨⟨some 0, true⟩, ⟨some 65536, true⟩, true⟩,
      .pmbusRetry 0 ⟨⟨some 65536, true⟩, ⟨none, true⟩, true⟩, .stageStall 0 8 0, .inServiceTest 0 0 0 0 goodReading, .inServiceTest 0 11 0 0 goodReading,
      .inServiceTest 0 1 8 0 goodReading, .inServiceTest 0 1 0 65536 goodReading].any Instr.wf = false := by decide +kernel

theorem test_wf_storage :
    [Instr.mount 0 ⟨[{ channel := 0, ce := 4, id := zeros 8, copies := [], onfi5 := true, lpddr4 := 0, suspend := true }], []⟩ 0,
      .stripeRead 0 (2 ^ 32) ⟨0, 0, []⟩, .stripeBudget 0 (2 ^ 32) ⟨0, 0, []⟩ 0, .stripeRead 0 0 ⟨0, 0, [{ seg := 0, plane := 0, block := 0, err := [] }]⟩, .waitComplete 0 0 0 0 12,
      .spoolRetryDone 0 (2 ^ 32) 0 true].any Instr.wf = false := by decide +kernel

/-! ### Words and worked examples of the manual -/

/-- Tables 12-8 and 12-9: words of the two programs and the instructions listed beside them; two illegal words. -/
theorem test_carousel_words :
    decodeCarousel 0x304E = some (.ldi 0 0x4E) ∧ decodeCarousel 0x4020 = some (.ldh 0 0x20) ∧
    decodeCarousel 0x140C = some (.wait 4 12) ∧ decodeCarousel 0x130C = some (.wait 3 12) ∧
    decodeCarousel 0x6040 = some (.get 0 1 0) ∧ decodeCarousel 0x5140 = some (.alu .add 1 (.reg 0)) ∧
    decodeCarousel 0x1701 = some (.wait 7 1) ∧ decodeCarousel 0x0603 = some (.jmp 6 3) ∧
    decodeCarousel 0xB000 = some (.evt .leading false) ∧ decodeCarousel 0xB400 = some (.evt .trailing false) ∧
    decodeCarousel 0x1502 = some (.wait 5 2) ∧ decodeCarousel 0x8400 = some (.fetch 1 false) ∧
    decodeCarousel 0x5924 = some (.alu .tst 0 (.imm 4)) ∧ decodeCarousel 0x5081 = some (.alu .mov 2 (.reg 1)) ∧
    decodeCarousel 0x1801 = some (.wait 8 1) ∧ decodeCarousel 0x2414 = some (.set .high false 0 20) ∧
    decodeCarousel 0x2014 = some (.set .low false 0 20) ∧ decodeCarousel 0xD000 = none ∧ decodeCarousel 0x0C00 = none := by decide +kernel

/-- One latch of the verdict queue: VACK and the newly published slots give VSEQ, VCOUNT and VQ_REPEAT. -/
def latch (e : Ecat) (vack : Nat) (fresh : List Nat) : Ecat × (Nat × Nat × Bool) :=
  let e : Ecat := { e with vq := e.vq ++ fresh.map fun v => (v, 0, none), vack := vack, latches := e.latches + 1 }
  let e := e.takeVack
  let again := e.repeatDue
  let e : Ecat := if again then { e with vqP := e.vqBase } else e
  (e.present, e.vqP, e.presented.length, again)

/-- Latches one after another. -/
def latches : Ecat → List (Nat × List Nat) → List (Nat × Nat × Bool)
  | _, [] => []
  | e, x :: rest => (latch e x.1 x.2).2 :: latches (latch e x.1 x.2).1 rest

/-- Table 11-9: slots 100 to 109, with the inputs of frame 2 lost. -/
theorem test_verdict_queue_table :
    latches { Ecat.reset with vackEn := true, vack := 100, vqBase := 100, vqP := 100, vqNext := 100 }
      [(100, [100, 101, 102, 103, 104]), (100, [105, 106, 107]), (105, [108, 109]), (105, []), (105, []), (105, []), (105, []), (110, [])]
      = [(100, 5, false), (105, 3, false), (108, 2, false), (110, 0, false), (110, 0, false), (105, 5, true), (110, 0, false),
         (110, 0, false)] := by decide +kernel

/-- R397's B equation by hand: R25 itself is 25 °C; 10 kΩ, B = 3,435 K fall to 2,980.8 Ω at 60 °C. -/
theorem test_ntc : ntcTemperature 10000 3435 10000 = 400 ∧ ntcTemperature 10000 3435 2982 = 959 ∧ ntcTemperature 10000 3435 2980 = 960 := by
  decide +kernel

/-- R411: VOUT_COMMAND of 0.760 V at N = -12. -/
theorem test_vout_command : voutCommand 760 (-12) = 0x0C29 := by decide +kernel

/-- R456: row 28 read as 0x3F against the low and 0x1F against the high reference gives 6. -/
theorem test_thermometer : thermoValue [⟨28, 0x3F, 0x1F⟩] 28 = 6 := by decide +kernel

/-- R453 to R455: the same row read at a start. -/
theorem test_fuse_start : (Bar.reset.fuseStart [(none, 28, 0x3F, 0x1F)]).svnCounter = 6 := by decide +kernel

/-- Context k of Table 4-1: exposures of all bands, and the modes and the pulse width of the strobes. -/
def strobeContext (st : Store) (k e m0 m1 : Nat) : Store :=
  let st := (List.range 4).foldl (fun st band => st.put (objKey (0x2210 + k) (1 + band)) (.num (e : Nat))) st
  (st.put (objKey (0x2210 + k) 5) (.num (m0 : Nat))).put (objKey (0x2210 + k) 7) (.num (m1 : Nat))

/-- A bar with one line issued at t, of context ctx. -/
def strobing (now n t tx ctx : Nat) : Bar :=
  { Bar.reset with
    now := now
    saf := { Safety.reset with power := .running }
    ecat := { Ecat.reset with session := true }
    par := { Params.reset with rw := [(objKey 0x2215 2, .num 3)], live := strobeContext (strobeContext [] 0 3000 1 0) 1 3800 0 2 }
    cap := { Capture.reset with
      syn := { Synth.reset with state := .position }
      lineLog := [{ n := n, t := t, tx := tx, pos := 0, grid := none, dropped := false, dr := false, drLost := false, us := false
                    usUnsync := false, dl := false, td := false, crawl := false, ctx := ctx, ppos := ctx, trunc := false, gen := 0, pstep := 0
                    limited := false, ist := false, adcOverrun := 0, opLive := false }] } }

/-- Table 4-1: strobe 0 from LTRIG n to 3,100 ns; strobe 1 from 6,900 ns to 7,900 ns in the line after. -/
theorem test_strobes :
    (([0, 3099, 3100].map fun t => (strobing t 0 0 3100 0).strobeAsserted 0) = [true, true, false]) ∧
    (([6899, 6900, 7899, 7900].map fun t => (strobing t 1 4000 7900 1).strobeAsserted 1) = [false, true, true, false]) ∧
    (strobing 0 0 0 3100 0).strobePin 7 1 = some false ∧ Bar.reset.strobePin 0 0 = none := by decide +kernel

/-! ### Single steps -/

/-- From reset PRE-OP is refused, and everything but the slave waits for start-up (R329). -/
theorem test_preop_before_startup :
    (after (.alRequestPreop 5 true) .reset).ecat.alCode = 0x8002 ∧ (after (.mask 5) .reset).nz.cmds = [] := by decide +kernel

theorem test_add : ((after (.aluAdd 5 0 0) (car (.alu .add 1 (.imm 31)))).chan 0).g[1] = 31 := by decide +kernel

theorem test_mask_is_queued : (after (.mask 5) pre).nz.cmds = [⟨.mask, 0, 1, 5, none⟩] := by decide +kernel

/-- R329: OP needs an RxPDO. -/
theorem test_op_needs_rxpdo :
    (after (.alRequestOp 5) { pre with ecat := { pre.ecat with al := .safeop, session := true } }).ecat.alCode = 0x1B := by decide +kernel

/-- R265: the key is missing. -/
theorem test_format_needs_key : newest (after (.format 5) pre) = (0x8003, 0x28000200) := by decide +kernel

/-- R88: both edges in one sample are an error and no count. -/
theorem test_quadrature_error :
    (after (.encoderCount 5 0 .both 100000) pre).io.pos[0] = 0 ∧ ((after (.encoderCount 5 0 .both 100000) pre).cap.enc[0]).quadErrors = 1 := by
  decide +kernel

/-- R391: the counter wraps. -/
theorem test_position_wraps : (after (.encoderCount 5 0 .down 100000) pre).io.pos[0] = -1 := by decide +kernel

/-- R467: the key goes with a command refused outside PRE-OP. -/
theorem test_key_is_spent :
    (after (.advanceSvn 5 []) (live.putRw 0x2E10 2 (.num 0x46555345))).rwN 0x2E10 2 = 0 := by decide +kernel

/-- R421: the Ringmaster cores disagree while an item is announced. -/
theorem test_lockstep_publishes :
    (after (.lockstepMismatch 5) { live with cap := { live.cap with items := [item 0 1] } }).cap.items.all (·.published) = true := by
  decide +kernel

/-- R1: segment 7 of a part with two segments. -/
theorem test_absent_segment : exec (.segmentLine 5 7 0 (badLine 0 0)) ⟨[], { live with segs := 2 }⟩ = .fault .absentSegment := rfl

/-- R31, R131: pixels of an item's columns count in its frame, all others in their block frame. -/
theorem test_pixel_frames :
    let b : Bar := { live with lines := 5000, cap := { live.cap with items := [{ item 0 1 with started := true, s := 4090, f := some 4100 }] } }
    (b.pixelFrame 4089 0, b.pixelFrame 4090 0, b.pixelFrame 4100 0) = (.block 0, .item 0, .block 1) := by decide +kernel

/-- R429: a pass in which nothing was tested does not end clean. -/
theorem test_pass_needs_coverage : (after (.coveragePassEnd 5) live).saf.ist.cleanPass = none := by decide +kernel

/-- R421: a rail outside its limits for 5 µs resets the bar; for less it does not. -/
theorem test_brown_out :
    (after (.brownOut 5 ⟨0, 499, 5000⟩) live).saf.power = .reset ∧ (after (.brownOut 5 ⟨0, 499, 4999⟩) live).saf.power = .running := by decide +kernel

/-! ### States that meet the hypotheses of the statements -/

/-- A state with nothing waiting. -/
def st (b : Bar) : State := ⟨[], b⟩

theorem witness_StepTakesTheFront :
    ({ State.reset with pending := [Instr.disarm 5] } : State).pending = Instr.disarm 5 :: [] ∧ State.reset.pending = [] := by decide

theorem witness_StepKeepsTheQueue :
    ({ State.reset with pending := [Instr.disarm 5, .arm 6] } : State).queueWf = true ∧
    step { State.reset with pending := [Instr.disarm 5, .arm 6] } = .next { State.reset with pending := [.arm 6], bar := Bar.reset.at 5 } ∧
    ({ live with segs := 2 } : Bar).segs ≤ (2 : Fin 8).val := ⟨by decide +kernel, rfl, by decide⟩

theorem witness_OnlySomeCommandsWakeAHeldBar : State.reset.bar.alive = false := by decide

theorem witness_AbsentSegmentsRaiseNothing :
    (st { live with segs := 2 }).bar.segs ≤ (2 : Fin 8).val ∧ (1 : Fin 8).val < (st { live with segs := 2 }).bar.segs ∧
    (7 : Fin 8).val < (st live).bar.segs ∧ (st live).bar.alive = true := by decide

/-- A set whose ratio has no counts. -/
def badSet : Bar := { pre with par := { pre.par with staged := [(objKey 0x2301 1, .num 0)] } }

/-- A group of one block. -/
def oneGroup : Group :=
  { id := 0, stream := none, pool := false, order := 0, used := 0, valid := 0, closed := false, erasing := false, blocks := [⟨⟨0, 0, 0⟩, 0, none⟩] }

/-- Media of 4 LUNs a channel. -/
def media : Media :=
  { Media.none with present := true, uniform := true, enables := 4, perTarget := 1, planes := 4, multi := true, pageData := 16384, spare := 2048
                    pages := 10 ^ 9, rate := 1600 }

/-- A bar with two segments and media enough for its defaults. -/
def fitting : Bar :=
  let sto := { pre.sto with profSlots := ⟨zeros 30 ++ leBytes 2 250, [], false⟩, formatted := true, groups := [oneGroup], media := media }
  ({ pre with segs := 2, sto := sto } : Bar).putRw 0x2803 1 (.num 3000)

theorem witness_ParameterCommands_failing : (firstFailing (badSet.mailAt 5).checks).isSome = true := by decide +kernel

theorem witness_ParameterCommands_passing : firstFailing (fitting.mailAt 5).checks = none := by decide +kernel

theorem witness_ParameterCommands_admitted :
    fitting.serves 0x2010 = true ∧ (fitting.mailAt 5).par.armedState = .empty ∧
    ((fitting.mailAt 5).admission (fitting.mailAt 5).par.staged).failing = 0 := by decide +kernel

theorem witness_ParameterCommands_notAdmitted :
    let b : Bar := { pre with segs := 2 }
    b.serves 0x2010 = true ∧ (b.mailAt 5).par.armedState = .empty ∧ firstFailing (b.mailAt 5).checks = none ∧
    ((b.mailAt 5).admission (b.mailAt 5).par.staged).failing ≠ 0 := by decide +kernel

/-- A session that has reached line 100 with a set armed for that line. -/
def due : Bar := { live with lines := 100, par := { live.par with armedState := .armed, armedMode := 1, armedLine := 100 } }

theorem witness_ParameterCommands :
    (st pre).bar.serves 0x2010 = true ∧ ((st pre).bar.mailAt 5).par.armedState = .empty ∧
    due.serves 0x2010 = true ∧ (due.mailAt 5).par.armedState = .armed ∧ (due.mailAt 5).applyDue (due.mailAt 5).lines = true ∧
    (let b : Bar := { due with lines := 99 }
     b.serves 0x2010 = true ∧ (b.mailAt 5).par.armedState = .armed ∧ (b.mailAt 5).applyDue (b.mailAt 5).lines = false) := by decide +kernel

/-- A validation that ends, in a session that has reached line 1,000 and asks for an apply line. -/
def validating (mode line : Nat) : Bar :=
  let b := (live.putRw 0x2010 2 (.num mode)).putRw 0x2010 3 (.num line)
  { b with lines := 1001, par := { b.par with armedState := .validating, armRequest := some (mailRequest .download 0x2010 1 (leBytes 1 1)) } }

theorem witness_CopyToArmedTakesTheSet :
    let b := validating 1 1063
    (b.alive = true ∧ b.par.armedState = .validating ∧ b.par.waiting = [] ∧ b.ecat.safeopWaiting = none ∧ b.ecat.session = true ∧
      (b.at 5).rwN 0x2010 2 = 1 ∧ (b.at 5).rwN 0x2010 3 < (b.at 5).liveLine + 64) ∧
    ((validating 1 (1001 + 2 ^ 31)).at 5).liveLine + 2 ^ 31 < ((validating 1 (1001 + 2 ^ 31)).at 5).rwN 0x2010 3 ∧
    (((validating 1 1064).at 5).liveLine + 64 ≤ ((validating 1 1064).at 5).rwN 0x2010 3 ∧ (validating 0 0).rwN 0x2010 2 = 0) ∧
    ({ validating 0 0 with ecat := pre.ecat } : Bar).ecat.session = false := by decide +kernel

theorem witness_ArmedSetGoesLiveAtItsPoint :
    let b : Bar := { live with lines := 4096, par := { live.par with armedState := .armed, armedMode := 1, armedLine := 4096 } }
    b.alive = true ∧ (b.at 5).par.armedState = .armed ∧ (b.at 5).ecat.session = true ∧ (b.at 5).par.armedLine ≤ (b.at 5).lines ∧
    0 + 64 ≤ 4096 * 1 ∧ 4096 * 1 ≤ (b.at 5).lines ∧ ¬ 4097 ≤ (b.at 5).lines ∧ (live.at 5).par.armedState ≠ .armed ∧
    (let i : Item := { item 0 1 with matched := true, s := 4096 }
     i.matched = true ∧ i.published = false ∧ 0 + 64 ≤ i.s ∧ i.s ≤ (b.at 5).lines) := by decide +kernel

/-- An apply-line command for a line, with a set armed in LINE mode, sampled at line 1,000. -/
def applying (line : Nat) : Bar :=
  { live with par := { live.par with armedState := .armed, armedMode := 1 }
              ecat := { live.ecat with applyPend := true, sampleLine := 1000, rx := [2, 0, 0, 0, 0, line, 0, 0, 0, 0] } }

theorem witness_ParameterCommands_command :
    (applying 1064).alive = true ∧ ((applying 1064).at 5).ecat.applyPend = true ∧ ((applying 1064).at 5).par.armedState = .armed ∧
    ((applying 1064).at 5).par.armedMode = 1 ∧ 1000 + 64 ≤ ((applying 1064).at 5).ecat.rx.getD 5 0 ∧
    ((applying (1000 + 2 ^ 31)).at 5).ecat.rx.getD 5 0 ≤ 1000 + 2 ^ 31 ∧ ((applying 1063).at 5).ecat.rx.getD 5 0 < 1000 + 64 ∧
    1000 + 2 ^ 31 < ((applying (1001 + 2 ^ 31)).at 5).ecat.rx.getD 5 0 ∧ ({ live with par := pre.par } : Bar).par.armedState ≠ .armed ∧
    (live.at 5).ecat.applyPend = false ∧ live.ecat.al = .op := by decide +kernel

theorem witness_SlaveStateChanges :
    State.reset.bar.saf.power = .reset ∧ (State.reset.bar.at 5).ecat.al = .init ∧
    (let b : Bar := { pre with ecat := { pre.ecat with al := .init } }
     b.alive = true ∧ (b.at 5).ecat.al = .init ∧ (b.at 5).saf.power ≠ .reset ∧ (b.at 5).ecat.preopReached = true) ∧
    (let b : Bar := { live with ecat := { live.ecat with al := .safeop, rxSeen := true } }
     b.alive = true ∧ (b.at 5).ecat.al = .safeop ∧ (b.at 5).ecat.rxSeen = true) ∧
    (let b : Bar := { live with ecat := { live.ecat with al := .safeop, rxSeen := false } }
     (b.at 5).ecat.al = .safeop ∧ (b.at 5).ecat.rxSeen = false) ∧ (pre.at 5).ecat.al = .preop ∧ (live.at 5).ecat.al = .op := by decide +kernel

theorem witness_SlaveStateChanges_first :
    let b : Bar := ({ pre with ecat := { pre.ecat with al := .init, preopReached := false } } : Bar).putRw 0x2B10 1 (.num 2)
    b.alive = true ∧ (b.at 5).ecat.al = .init ∧ (b.at 5).saf.power ≠ .reset ∧ (b.at 5).ecat.preopReached = false ∧ (b.at 5).sec.recovery = false ∧
    (b.at 5).saf.wdg.started = false ∧ ((b.at 5).engine 0).state = .halted ∧ bit ((b.at 5).tmrCtl 0) 1 = true ∧ (b.at 5).tmrHead 0 = 0 ∧
    (b.at 5).tmrPreset 0 ≤ (b.at 5).tmrPer 0 := by decide +kernel

theorem witness_SafeopIsCheckedInOrder :
    let b : Bar := { pre with dlv := { pre.dlv with admState := 1 } }
    b.alive = true ∧ b.ecat.al = .preop ∧ b.par.armedState ≠ .validating ∧ (80 : Nat) ≠ 79 ∧
    62500 ≤ (b.at 5).rwN 0x1C32 2 ∧ (b.at 5).rwN 0x1C32 2 ≤ 4000000 ∧ (b.at 5).sec.recovery = false ∧ (b.at 5).dlv.admState = 1 ∧
    2 * (b.at 5).rwN 0x1C32 2 ≤ (b.at 5).wdgSettings.hc - (b.at 5).wdgSettings.ho ∧ (pre.at 5).dlv.admState ≠ 1 := by decide +kernel

theorem witness_LeavingASessionPublishesEverything :
    let b : Bar := { live with par := { live.par with armedState := .armed }, cap := { live.cap with items := [item 0 1] } }
    b.alive = true ∧ b.ecat.al = .op ∧ b.ecat.session = true ∧ b.par.armedState = .armed ∧
    (let v : Bar := { live with ecat := { live.ecat with al := .safeop }, par := { live.par with armedState := .validating } }
     v.alive = true ∧ v.ecat.al = .safeop ∧ v.ecat.session = true ∧ v.par.armedState = .validating) ∧
    (pre.par.waiting = [] ∧ pre.ecat.al = .preop ∧ pre.par.armedState ≠ .validating) := by decide +kernel

theorem witness_ProcessDataAtLatchAndSample :
    Ecat.reset.vackEn = false ∧ ({ Ecat.reset with vackEn := true, vack := 1 } : Ecat).vackEn = true ∧
    ({ Ecat.reset with vackEn := true, vack := 1 } : Ecat).vqP < 1 ∧ (0 + 65536 - Ecat.reset.vqBase) % 65536 ≤ (Ecat.reset.vqP + 65536 - Ecat.reset.vqBase) % 65536 ∧
    ({ Ecat.reset with vq := [(0, 0, none)] } : Ecat).presented.map (fun x => ({ Ecat.reset with vq := [(0, 0, none)] } : Ecat).ahead x.1)
      = List.range ({ Ecat.reset with vq := [(0, 0, none)] } : Ecat).presented.length ∧
    live.alive = true ∧ live.ecat.al = .op ∧ pre.ecat.al = .preop ∧
    (let q : Ecat := ({ live.ecat with vackEn := true, vq := [(0, 7, some 0)], vqNext := 1, vqP := 1, latches := 4 } : Ecat).takeVack
     (q.vackEn && match q.vq.head? with | some (v, _, some at_) => decide (v = q.vqBase) && decide (at_ + 4 ≤ q.latches) | _ => false) = true ∧
     0 ∈ ({ q with vqP := q.vqBase } : Ecat).presented.map (·.1)) := by decide +kernel

theorem witness_ProcessDataAtLatchAndSample_sampled :
    (pre.alive = true ∧ pre.ecat.al = .preop) ∧
    (live.alive = true ∧ live.ecat.al = .op ∧ live.ecat.annSlot = 4 ∧ live.ecat.checkin6 = false ∧ live.ecat.checkin7 = false ∧
      live.ecat.applyPend = false ∧ live.ecat.releasePend = false) ∧
    (let e : Ecat := { live.ecat with annSlot := 3, annTaken := 0xFFFF, rx := [0, 0xFFFC, 0, 0, 0, 0, 0, 0, 0, 2 ^ 64] }
     e.annSlot < 4 ∧ e.rx.getD (6 + e.annSlot) 0 / 2 ^ 64 % 2 ^ 24 ≠ 0 ∧ (e.rx.getD 1 0 + e.annSlot) % 65536 = e.annTaken ∧ e.annTaken < 65536) ∧
    (let e : Ecat := { live.ecat with annSlot := 0 }
     e.annSlot < 4 ∧ e.rx.getD (6 + e.annSlot) 0 / 2 ^ 64 % 2 ^ 24 = 0) ∧
    ([32768, 1].all fun d =>
      let e : Ecat := { live.ecat with annSlot := 0, annTaken := 32770, rx := [0, 32770 - d, 0, 0, 0, 0, 2 ^ 64, 0, 0, 0] }
      let behind := (e.annTaken + 65536 - (e.rx.getD 1 0 + e.annSlot) % 65536) % 65536
      decide (e.annSlot < 4 ∧ e.rx.getD (6 + e.annSlot) 0 / 2 ^ 64 % 2 ^ 24 ≠ 0 ∧ behind = d ∧ 0 < behind ∧ behind ≤ 32768 ∧ e.releasePend = false)) = true ∧
    ([32769, 65535].all fun d =>
      let e : Ecat := { live.ecat with annSlot := 0, annTaken := 65535, rx := [0, 65535 - d, 0, 0, 0, 0, 2 ^ 64, 0, 0, 0] }
      decide (e.annSlot < 4 ∧ 32768 < (e.annTaken + 65536 - (e.rx.getD 1 0 + e.annSlot) % 65536) % 65536)) = true := by decide +kernel

theorem witness_LogRingAndItsReadPointer :
    Bar.reset.log.entries.length ≤ 16384 ∧
    (let b := pre.logEvent 0x0041 0
     b.serves 0x2F00 = true ∧ b.log.entries.length ≤ b.log.next ∧
     max (b.mailAt 5).sdoM.logPtr ((b.mailAt 5).log.next - (b.mailAt 5).log.entries.length) < (b.mailAt 5).log.next ∧
     ((b.mailAt 5).log.entries[(b.mailAt 5).log.next - 1 - 0]?).isSome = true) ∧
    (pre.serves 0x2F00 = true ∧ (pre.mailAt 5).log.next ≤ (pre.mailAt 5).sdoM.logPtr) := by decide +kernel

theorem witness_EmergenciesFollowSeverity :
    emergenciesWaiting pre.sm1 < 15 ∧ 15 ≤ emergenciesWaiting (List.replicate 15 (MailItem.emergency [])) ∧
    emergenciesWaiting (List.replicate 14 (MailItem.emergency [])) < 15 := by decide +kernel

theorem witness_ParameterCommands_store :
    (st pre).bar.alive = true ∧ pre.serves 0x1010 = true ∧ pre.serves 0x1011 = true ∧
    (let p : Persist := { pre.persist with anchor := 0, image0 := some ⟨[], 1, true⟩ }
     p.anchor = 0 ∧ p.image0.isSome = true) ∧
    ({ pre.persist with anchor := 1 } : Persist).anchor ≠ 0 ∧ pre.par.wf = true ∧ Store.wf [(1, .num 5)] = true := by decide +kernel

theorem witness_SdoServerAnswersAndAborts :
    (let b : Bar := { pre with ecat := { pre.ecat with al := .init } }
     b.alive = true ∧ (b.at 5).ecat.al = .init) ∧
    (pre.alive = true ∧ (pre.at 5).ecat.al ≠ .init ∧ (pre.at 5).indexExists 0x3000 = false ∧ (pre.at 5).par.armedState ≠ .validating) ∧
    (let b : Bar := { pre with seg := some ⟨0x2010, 1, 0⟩ }
     (b.at 1000000000).seg = some ⟨0x2010, 1, 0⟩ ∧ 0 + 1000000000 ≤ (b.at 1000000000).now) ∧
    (let b : Bar := { pre with foe := some ⟨.eventlog, 2, [], none, false⟩, sm1 := [.foeData 1 []] }
     (b.at 5).sm1.head? = some (.foeData 1 []) ∧ (b.at 5).foe = some ⟨.eventlog, 2, [], none, false⟩) ∧
    (pre.at 5).sm1.head? = none ∧
    (let b : Bar := { live with ecat := { live.ecat with pdTime := 100000000, pdAt := 5 } }
     (b.at 100000005).ecat.al = .op ∧ 0 < (b.at 100000005).ecat.pdTime ∧ (b.at 100000005).ecat.pdAt + (b.at 100000005).ecat.pdTime ≤ (b.at 100000005).now ∧
     (b.at 100000004).now < (b.at 100000004).ecat.pdAt + (b.at 100000004).ecat.pdTime) ∧
    (live.at 5).ecat.al = .op ∧ (2 : Nat) ≠ 3 := by decide +kernel

theorem witness_ReadViewsSelectACopy :
    ((findEntry 0x2301 1).map (·.acc)) = some .staged ∧
    ({ pre.sdoM with readView := 1 } : SdoChannel).readView = 1 ∧ ({ pre.sdoM with readView := 2 } : SdoChannel).readView = 2 ∧
    pre.sdoM.readView = 0 ∧ ({ pre.par with armedState := .armed } : Params).armedState = .armed ∧ pre.par.armedState = .empty := by decide +kernel

theorem witness_CarouselWordsDecodeBack : (CInstr.jmp 11 255).wf = true ∧ (CInstr.shift true true true 3 63).wf = true := by decide +kernel

theorem witness_CarouselWordsAreUnique : decodeCarousel 0x304E = some (.ldi 0 0x4E) := by decide +kernel

/-- The channel of `car` executes its instruction. -/
def runs (i : CInstr) : Prop := (st (car i)).bar.alive = true ∧ ((st (car i)).bar.stepAt 5 0).executes 0 i = true

theorem witness_CarouselAluComputes : runs (.alu .shl 3 (.imm 31)) ∧ runs (.alu .cmp 0 (.reg 3)) := by
  simp only [runs]; decide +kernel

theorem witness_CarouselLoadsAndJumps :
    runs (.ldi 0 255) ∧ runs (.ldh 3 255) ∧ runs (.putSh 0) ∧ runs (.putBc 3) ∧ runs .nop ∧ runs .clrsh ∧ runs .log ∧ runs (.jmp 0 255) ∧
    runs (.jmp 11 0) ∧ (((car (.jmp 3 7)).stepAt 5 0).chan 0).n = false := by
  simp only [runs]; decide +kernel

theorem witness_CarouselWaits :
    runs (.wait 5 1) ∧ runs (.wait 5 0) ∧ 0 < ((car (.wait 5 1)).stepAt 5 0).queueDepth 0 ∧ 1 ≤ ((car (.wait 5 1)).stepAt 5 0).queueDepth 0 ∧
    runs (.wait 0 0) ∧ ¬ ((0 : Nat) = 5 ∨ (0 : Nat) = 6) ∧
    (let b := ((car (.wait 0 0)).modChan 0 fun c => { c with busy := .waiting 3 }).at 5 |>.samplePins 0 5
     b.canStep 0 = true ∧ decodeCarousel (b.fetched 0) = some (.wait 0 0) ∧ (b.chan 0).busy = .waiting 3) ∧
    (let b := ((car (.wait 7 0)).modChan 0 fun c => { c with busy := .waiting 3 (some 4) }).at 5 |>.samplePins 0 5
     b.canStep 0 = true ∧ decodeCarousel (b.fetched 0) = some (.wait 7 0) ∧ (b.chan 0).busy = .waiting 3 (some 4) ∧
     ((BitVec.ofNat 32 b.now : Word32) - (b.chan 0).g[0]).msb = false) ∧ ¬ (1 ≤ ((car (.wait 5 1)).takeStep 0 |>.chan 0).cq.length) := by
  simp only [runs]; decide +kernel

/-- Channel 0 has waited since 3, and what it waits for has not come. -/
def patient (kind arg : Nat) : Bar := (car (.wait kind arg)).modChan 0 fun c => { c with busy := .waiting 3 }

/-- The kinds of WAIT that an event ends, at the first moment that counts and just before it. -/
theorem witness_CarouselWaits_events :
    ([(0, 0), (1, 0), (2, 0), (10, 0), (11, 5)].all fun (x : Nat × Nat) =>
      decodeCarousel ((patient x.1 x.2).fetched 0) = some (.wait x.1 x.2) && ((patient x.1 x.2).chan 0).busy = .waiting 3 none &&
      (decide (x.1 ≤ 2) || decide (10 ≤ x.1))) = true ∧ (patient 0 0).pinInvert 0 = false := by decide +kernel

/-- `car` with queues taken over by its group's first channel: channel 1 of a joined pair. -/
def joined (i : CInstr) : Bar :=
  (((pre.putRw 0x2A00 4 (.num 1)).putRw 0x2A00 5 (.num 2)).modEngine 0 fun e =>
    { e with state := .running, program := e.program.set 0 (encodeCarousel i), turnFrom := 5 }).modChan 1
    fun c => { c with active := true }

theorem witness_CarouselQueues_joined :
    ((joined (.fetch 0 false)).stepAt 5 0).executes 1 (.fetch 0 false) = true ∧ ((joined (.fetch 0 false)).stepAt 5 0).queueDepth 1 = 0 := by
  decide +kernel

theorem witness_CarouselQueuesAndEvents :
    runs (.fetch 3 false) ∧ runs (.fetch 0 true) ∧ 0 < ((car (.fetch 3 false)).stepAt 5 0).queueDepth 0 ∧
    (((car (.fetch 3 false)).stepAt 5 0).chan 0).cq = [] ∧
    runs (.send 0 true) ∧ (((car (.send 0 true)).stepAt 5 0).chan 0).rq.length < ((car (.send 0 true)).stepAt 5 0).queueDepth 0 ∧
    runs (.evt .pulse true) ∧ (((car (.evt .pulse true)).stepAt 5 0).chan 0).event = none ∧
    (let b := (car (.evt .pulse true)).modChan 0 fun c => { c with event := some ⟨1, .leading, 0⟩ }
     (b.stepAt 5 0).executes 0 (.evt .pulse true) = true ∧ ((b.stepAt 5 0).chan 0).event.isSome = true ∧ ((b.stepAt 5 0).chan 0).busy = .ready) ∧
    (let b := (car (.send 0 true)).modChan 0 fun c => { c with rq := List.replicate 64 7, cq := [9] }
     (b.stepAt 5 0).executes 0 (.send 0 true) = true ∧ (b.stepAt 5 0).queueDepth 0 ≤ ((b.stepAt 5 0).chan 0).rq.length ∧
     ((b.stepAt 5 0).chan 0).cq = 9 :: []) := by
  simp only [runs]; decide +kernel

/-- `car` whose channel owns pin 0 in push-pull mode, G0 at a target. -/
def owner (i : CInstr) (target : Word32) : Bar :=
  ((car i).putRw 0x2A50 1 (.num 1)).modChan 0 fun c => { c with g := c.g.set 0 target }

theorem witness_CarouselSetsOwnedPins :
    (let b := (owner (.set .high false 0 0) 0).stepAt 5 0
     b.executes 0 (.set .high false 0 0) = true ∧ b.ownsPin 0 0 = true) ∧
    (let b := (owner (.set .high true 0 0) 5).stepAt 5 0
     b.executes 0 (.set .high true 0 0) = true ∧ b.ownsPin 0 0 = true ∧ (b.io.pins[0]).compare = none ∧ BitVec.ofNat 32 b.now = (b.chan 0).g[0]) ∧
    (let b := (owner (.set .high true 0 0) 4).stepAt 5 0
     (BitVec.ofNat 32 b.now - (b.chan 0).g[0]).msb = false ∧ BitVec.ofNat 32 b.now ≠ (b.chan 0).g[0]) ∧
    (let b := (((owner (.set .high true 0 0) 5).modPin 0 fun p => { p with compare := some ⟨5, .high, false, 0, 0⟩ }).stepAt 5 0)
     b.executes 0 (.set .high true 0 0) = true ∧ (b.io.pins[0]).compare.isSome = true ∧ (b.chan 0).busy = .ready ∧ b.timerPin 0 = false ∧
     (b.putRw 0x2B10 4 (.num 0)).timerPin 0 = true ∧
     (BitVec.ofNat 32 (b.stepFrom (engineOf 0)) - 5).msb = false ∧ ¬ (BitVec.ofNat 32 (b.stepFrom (engineOf 0)) - 6 : Word32).msb = false ∧
     (4 : Nat) < b.stepFrom (engineOf 0) ∧ ¬ (5 : Nat) < b.stepFrom (engineOf 0)) ∧
    (let b := (car (.set .high false 0 0)).stepAt 5 0
     b.executes 0 (.set .high false 0 0) = true ∧ b.ownsPin 0 0 = false) ∧
    (let b := (car (.shift false true false 0 0)).stepAt 5 0
     b.executes 0 (.shift false true false 0 0) = true ∧ b.ownsPin 0 0 = false) := by decide +kernel

theorem witness_CarouselShifts :
    (let b := (owner (.shift true true true 0 0) 5).stepAt 5 0
     b.executes 0 (.shift true true true 0 0) = true ∧ (BitVec.ofNat 32 b.now - (b.chan 0).g[0]).msb = false) ∧
    (let b := (owner (.shift true true true 0 0) 6).stepAt 5 0
     b.executes 0 (.shift true true true 0 0) = true ∧ ¬ (BitVec.ofNat 32 b.now - (b.chan 0).g[0]).msb = false ∧ (b.chan 0).busy = .ready) ∧
    (let b := (owner (.shift false true false 0 0) 5).stepAt 5 0
     b.executes 0 (.shift false true false 0 0) = true ∧ b.ownsPin 0 0 = true) ∧
    (let b := (owner (.shift false true true 0 0) 5).stepAt 5 0
     b.executes 0 (.shift false true true 0 0) = true ∧ b.ownsPin 0 0 = true ∧ (b.io.pins[0]).compare = none ∧
     BitVec.ofNat 32 b.now = (b.chan 0).g[0]) ∧
    (let b := (((owner (.shift false true true 0 0) 4).modPin 0 fun p => { p with compare := some ⟨5, .high, false, 0, 0⟩ }).stepAt 5 0)
     (BitVec.ofNat 32 b.now - (b.chan 0).g[0]).msb = false ∧ BitVec.ofNat 32 b.now ≠ (b.chan 0).g[0] ∧
     (b.io.pins[0]).compare.isSome = true ∧ (b.chan 0).busy = .ready) := by decide +kernel

theorem witness_CarouselGetReadsShadows :
    runs (.get 0 0 0) ∧ runs (.get 1 0 0) ∧ runs (.get 2 0 0) ∧ runs (.get 3 0 0) ∧ runs (.get 4 0 0) ∧ runs (.get 5 0 0) ∧ runs (.get 6 0 0) ∧
    runs (.get 7 0 0) ∧ runs (.get 10 0 0) ∧ runs (.get 11 0 0) ∧ runs (.get 13 3 0) ∧
    runs (.get 8 0 14) ∧ runs (.get 9 3 0) ∧ runs (.get 12 1 7) := by
  simp only [runs]; decide +kernel

theorem witness_CarouselHaltsAndFaults :
    runs .halt ∧
    (let b := ((car .halt).modEngine 0 fun e => { e with program := e.program.set 0 0xD000 }).stepAt 5 0
     b.canStep 0 = true ∧ decodeCarousel (b.fetched 0) = none) ∧
    ((pre.modEngine 0 fun e => { e with state := .halting }).at 5 |>.engine 0).state = .halting := by
  simp only [runs]; decide +kernel

theorem witness_EngineStartsAtEntry :
    pre.serves 0x2A00 = true ∧ ((pre.mailAt 5).engine 0).state = .halted ∧ (car .nop).serves 0x2A00 = true ∧
    (((car .nop).mailAt 5).engine 0).state = .running := by decide +kernel

theorem witness_ProgramsAndQueuesOverSdo :
    pre.serves (0x2A04 + 3) = true ∧ ((pre.mailAt 5).engine 3).state = .halted ∧ (zeros 512).length % 2 = 0 ∧ (zeros 512).length ≤ 512 ∧
    (car .nop).serves 0x2A04 = true ∧ (((car .nop).mailAt 5).engine 0).state ≠ .halted ∧
    pre.serves (0x2A10 + 63) = true ∧ (pre.mailAt 5).rwN (0x2A10 + 63) 3 = 0 ∧ ((pre.mailAt 5).chan 63).cq.length < (pre.mailAt 5).queueDepth 63 ∧
    ((pre.mailAt 5).chan 63).rq = [] ∧ ((pre.putRw 0x2A10 3 (.num 1)).mailAt 5).rwN 0x2A10 3 ≠ 0 ∧
    (let b := pre.modChan 0 fun c => { c with cq := List.replicate 64 7, rq := [9] }
     b.serves 0x2A10 = true ∧ (b.mailAt 5).queueDepth 0 ≤ ((b.mailAt 5).chan 0).cq.length ∧ ((b.mailAt 5).chan 0).rq = 9 :: []) := by decide +kernel

/-- A bar whose timer 0 runs, at a count, with its next tick due at 4. -/
def ticking (count : Nat) (settled : Bool) : Bar :=
  pre.modTimer 0 fun u => { u with running := true, count := count, settled := settled, due := 4, halfPer := 10 }

theorem witness_TimerCountsUpAndDown :
    let b := (ticking 3 true).at 5
    (ticking 3 true).alive = true ∧ (b.io.timers[b.tmrHead 0]).running = true ∧ (b.io.timers[b.tmrHead 0]).due ≤ b.now ∧
    (b.io.timers[b.tmrHead 0]).settled = true ∧ (pre.io.timers[(pre.at 5).tmrHead 0]).running = false ∧
    ((ticking 3 true).at 3).now < (((ticking 3 true).at 3).io.timers[((ticking 3 true).at 3).tmrHead 0]).due := by decide +kernel

theorem witness_TimerMatchActs :
    let b := (((ticking 3 false).putRw 0x2B10 4 (.num 0xFF)).putRw 0x2B10 5 (.num 0xFF)).at 5
    b.alive = true ∧ b.tmrHead 0 = 0 ∧ 64 ≤ b.rwN 0x2B10 4 ∧ 64 ≤ b.rwN 0x2B10 5 ∧ (b.io.timers[0]).running = true ∧
    (b.io.timers[0]).settled = false ∧
    (((ticking 3 true)).io.timers[0]).settled = true := by decide +kernel

theorem witness_TimersStartAndStopTogether :
    pre.serves 0x2B48 = true ∧ ((pre.putRw 0x2B10 1 (.num 4)).mailAt 5).tmrLinked 1 = true ∧ (2#16).getLsbD 1 = true ∧
    (∀ j : Fin 8, (pre.mailAt 5).tmrLinked (2 * j.val + 1) = false) ∧ (∀ i : Fin 16, (pre.mailAt 5).tmrPreset i.val ≤ (pre.mailAt 5).tmrPer i.val) ∧
    (∀ i : Fin 16, (pre.mailAt 5).rwN (0x2B10 + i.val) 2 = (pre.mailAt 5).rwN 0x2B10 2) ∧
    (let b := ((pre.putRw 0x2B00 1 (.num 7)).putRw 0x2B10 3 (.num 8)).mailAt 5
     b.tmrPer 0 < b.tmrPreset 0 ∧ (∀ j : Fin 8, b.tmrLinked (2 * j.val + 1) = false)) ∧
    (let b := (pre.putRw 0x2B1F 2 (.num 1)).mailAt 5
     b.rwN 0x2B10 2 ≠ b.rwN (0x2B10 + 15) 2 ∧ (∀ i : Fin 16, b.tmrPreset i.val ≤ b.tmrPer i.val) ∧
     (0x8001 : Word16).getLsbD 15 = true ∧ (0x8001 : Word16).getLsbD 0 = true) := by decide +kernel

theorem witness_TimerValuesOverSdo :
    pre.serves (0x2B00 + 15) = true ∧ (pre.mailAt 5).tmrHead 15 = 15 ∧ ((pre.mailAt 5).io.timers[15]).running = false ∧
    (0xFFFFFFFF : Word32) ≠ 0 ∧ pre.serves (0x2B30 + 7) = true ∧ (pre.mailAt 5).tmrHead 14 = 14 ∧ ((pre.mailAt 5).io.timers[14]).running = false ∧
    pre.serves 0x2B40 = true ∧ (pre.mailAt 5).ecat.al = .preop ∧ live.serves 0x2B40 = true ∧ (live.mailAt 5).ecat.al ≠ .preop ∧
    (let b := (pre.putRw 0x2B00 1 (.num 9)).mailAt 5
     (b.io.timers[0]).running = false ∧ (b.io.timers[1]).running = false ∧
     (9#64).toNat ≤ b.rwN (0x2B00 + 2 * 0) 1 + 2 ^ 32 * b.pairHigh (2 * 0) 0x2B00 1 0 ∧
     b.rwN (0x2B00 + 2 * 0) 1 + 2 ^ 32 * b.pairHigh (2 * 0) 0x2B00 1 0 < (2#64 ^ 63).toNat) := by decide +kernel

theorem witness_TimingCommandsAnswer : (st pre).bar.alive = true := by decide

/-- A bar whose timebase is in a mode since 1,000. -/
def tbAt (m : TbMode) : Bar := { live with cap := { live.cap with tb := { live.cap.tb with mode := m, unlockAt := some 1000 } } }

theorem witness_TimebaseLockIsLostAndRegained :
    live.alive = true ∧ (live.at 5).cap.tb.mode = .pll ∧ ((tbAt .holdover).at 10001000).cap.tb.mode = .holdover ∧
    ((tbAt .holdover).at 10001000).cap.tb.unlockAt = some 1000 ∧ 1000 + 10000000 ≤ ((tbAt .holdover).at 10001000).now ∧
    ((tbAt .holdover).at 10001000).saf.sn.causes.tb = false ∧ ((tbAt .internal).at 5).cap.tb.mode = .internal ∧
    ({ live.saf.sn.causes with tb := true } : Causes).tb = true := by decide +kernel

theorem witness_EncoderCountsMoveOnePosition :
    (st live).bar.alive = true ∧ (live.at 5).rwN 0x2302 3 ≠ 1 ∧ ((live.putRw 0x2303 3 (.num 1)).at 5).rwN 0x2303 3 = 1 ∧
    (live.at 5).cap.tb.mode = .pll ∧ (live.at 5).rwN 0x2302 2 - 1 < (live.at 5).rwN 0x2302 2 ∧
    (let b : Bar := { live with cap := { live.cap with tb := { live.cap.tb with mode := .holdover }
                                                       enc := live.cap.enc.set 0 { live.cap.enc[0] with counts := [(960, 0)] } } }
     (live.at 5).cap.cues = [] ∧ (b.at 1000).cap.tb.mode ≠ .pll ∧ (((b.at 1000).cap.enc[0]).counts.head?.map (·.1)) = some ((b.at 1000).now - 79 / 40 * 40)) ∧
    (1 : Fin 2) ≠ (live.at 5).feeding := by decide +kernel

theorem witness_CaptureCommandsAnswer : (st live).bar.alive = true := by decide

/-- An item whose frame of lines 10 to 19 has closed, in a session that has triggered 20 lines, all complete 1 s ago. -/
def framed : Bar :=
  { live with lines := 20, now := 2000000000
              cap := { live.cap with items := [{ item 3 7 with started := true, matched := true, queued := false, s := 10, f := some 10 }] } }

theorem witness_VerdictIsPublishedOnce :
    live.alive = true ∧ (3 : Fin 32).val = 3 ∧ (framed.at 5).findItem 3 7 = some 0 ∧ ((framed.at 5).cap.items[0]?).isSome = true ∧
    ((framed.at 5).cap.items[0]?.map (framed.at 5).verdictReady) = some true ∧
    (({ live with cap := { live.cap with items := [item 3 7] } } : Bar).at 5).findItem 3 7 = some 0 ∧
    (live.at 5).verdictReady (item 3 7) = false ∧ (live.at 5).deadline (item 3 7) = none ∧
    (live.at 5).deadline { item 3 7 with stopDue := some 50005 } = some 50005 ∧ 50005 ≤ (live.at 5).now + 50000 ∧
    (live.at 5).deadline { item 3 7 with stopDue := some 50006 } = some 50006 ∧ (live.at 5).now + 50000 < 50006 ∧ live.ecat.session = true ∧
    ({ item 3 7 with published := true } : Item).published = true := by decide +kernel

theorem witness_NozzleCommandsAnswer : (st live).bar.alive = true := by decide

/-- A READY reference 7. -/
def ref7 : Reference :=
  { handle := 7, state := .ready, detail := 0, width := 16, height := 16, res := 300, inkMask := 0, planes := [], inks := [], charge := 0
    maxW := 16 }

/-- A bar that holds it. -/
def withRef (items : List Item) : Bar := { pre with cap := { pre.cap with items := items, refs := [ref7] } }

theorem witness_TrackAndReferenceCommands :
    pre.serves 0x2620 = true ∧ (pre.mailAt 5).rwN 0x2620 1 < (pre.mailAt 5).rwN 0x2620 2 ∧
    (((pre.putRw 0x2620 1 (.num 1)).mailAt 5).rwN 0x2620 2 ≤ ((pre.putRw 0x2620 1 (.num 1)).mailAt 5).rwN 0x2620 1) ∧
    (withRef []).serves 0x2540 = true ∧ ((withRef []).mailAt 5).ref? 8 = none ∧ (((withRef []).mailAt 5).ref? 7).isSome = true ∧
    ((withRef [{ item 0 1 with handle := 7 }]).mailAt 5).cap.items = [{ item 0 1 with handle := 7 }] ∧
    ((withRef []).mailAt 5).cap.items = [] := by decide +kernel

/-- A job of firmware for one of the engines. -/
def job (deflate : Bool) : Job := jobOf .firmware (leBytes 4 (if deflate then 5 else 0) ++ zeros 60) [] []

/-- A bar whose two engines run a job each, with one more waiting. -/
def coding : Bar := { live with cod := { live.cod with inflateQ := [job false, job false], deflateRun := some (job true), deflateG := [job true] } }

theorem witness_DeflateEnginesServeTheirQueues :
    live.alive = true ∧ (live.at 5).cod.inflateQ = [] ∧ (live.at 5).cod.deflateRun = none ∧
    leAt (zeros 32) 8 4 < 1024 ∧ (job false).deflate = false ∧ (job true).deflate = true ∧ (job true).guaranteed = true ∧
    (coding.at 5).cod.inflateQ = job false :: [job false] ∧ (job false).owner = .firmware ∧ (job false).error = 0 ∧
    (coding.at 5).cod.deflateRun = some (job true) ∧ (job true).owner = .firmware := by decide +kernel

theorem witness_CodecCommandsAnswer : (st live).bar.alive = true := by decide

theorem witness_StorageCommandsAnswer : (st live).bar.alive = true := by decide

/-- A bar with unformatted media and the format key. -/
def formattable : Bar := ({ pre with sto := { pre.sto with state := .unformatted, media := fitting.sto.media } } : Bar).putRw 0x2800 3 (.num 0x464F524D)

theorem witness_FormatAndPins :
    live.serves 0x2800 = true ∧ (live.mailAt 5).ecat.al ≠ .preop ∧ (pre.mailAt 5).rwN 0x2800 3 ≠ 0x464F524D ∧
    formattable.serves 0x2800 = true ∧ (formattable.mailAt 5).ecat.al = .preop ∧ (formattable.mailAt 5).rwN 0x2800 3 = 0x464F524D ∧
    (formattable.mailAt 5).quotaInvalid = false ∧ (formattable.mailAt 5).sto.state = .unformatted ∧
    (let b : Bar := { formattable with sto := { formattable.sto with state := .sealing } }
     b.serves 0x2800 = true ∧ (b.mailAt 5).quotaInvalid = false ∧ (b.mailAt 5).sto.state = .sealing) ∧
    pre.serves 0x2805 = true ∧ (pre.mailAt 5).sto.pinKnown 0 0 = none := by decide +kernel

/-- A bar that holds item 0 of session 0, whose frame met no chunk. -/
def pinnable (pins : List (Nat × Nat)) : Bar :=
  { pre with sto := { pre.sto with pins := pins, quotaArchive := 1000, quotaEvidence := 20, items := [
      { seq := 0, verdict := [], published := 0, frame := none, defects := 0, cropsDue := [], crops := [], set := [], pinned := false, lost := false
        refOffset := 0 }] } }

theorem witness_FormatAndPins_known :
    (pinnable []).serves 0x2805 = true ∧ ((pinnable []).mailAt 5).sto.pinKnown 0 0 = some [] ∧ (0, 0) ∉ ((pinnable []).mailAt 5).sto.pins ∧
    (0, 0) ∈ ((pinnable [(0, 0)]).mailAt 5).sto.pins ∧ (((pinnable []).mailAt 5).pinItem 0 0 []).2 = true := by decide +kernel

theorem witness_DeliveryCommandsAnswer : (st live).bar.alive = true := by decide

/-- A bar whose port 0 is up and on. -/
def linked : Bar :=
  live.modPort 0 fun q => { q with up := true }

/-- A session with peer 15, last heard at 0. -/
def heard : Session :=
  { peer := 15, ksid := 1, version := 2, caps := 0, streams := 1, dialect := 0, lastRx := 0, lastKeep := 0, seqs := Vector.replicate 16 0
    rtags := Vector.replicate 16 0, gap := 0, taken := [], held := [], upload := none, readback := none, credit := 0 }

/-- A bar with that session. -/
def peered : Bar := { live with dlv := { live.dlv with sessions := [heard] } }

theorem witness_LinkChangesLeaveSessions :
    live.alive = true ∧ ((linked.at 5).dlv.ports[0]).up = true ∧ ((live.at 5).dlv.ports[0]).up = false ∧
    (live.at 5).portOn 0 = false ∧ ((live.putRw 0x2910 1 (.num 1)).at 5).portOn 0 = true ∧
    peered.alive = true ∧ (peered.at 999999999).session? 15 = some heard ∧ (peered.at 999999999).now < 0 + 1000000000 ∧
    0 + 1000000000 ≤ (peered.at 1000000000).now := by decide +kernel

theorem witness_FilesAreAnswered : (st live).bar.alive = true := by decide

theorem witness_FoeRequestsAreRefused :
    (let b : Bar := { pre with ecat := { pre.ecat with al := .init } }
     b.alive = true ∧ (b.at 5).ecat.al = .init) ∧
    live.alive = true ∧ (live.at 5).ecat.al ≠ .init ∧ (live.at 5).ecat.al ≠ .preop ∧ (live.at 5).foe = none ∧ (live.at 5).sec.recovery = false ∧
    (let b : Bar := { pre with foe := some ⟨.nozzleMap, 1, [], none, false⟩ }
     (b.at 5).ecat.al ≠ .init ∧ (b.at 5).foe = some ⟨.nozzleMap, 1, [], none, false⟩) ∧ (zeros 1012).length = 1012 ∧ (zeros 1011).length < 1012 ∧
    (([] : List Byte) ++ zeros 1012).length ≤ 81956 ∧ (2 : Nat) ≠ 1 := by decide +kernel

theorem witness_ThermalCommandsAnswer :
    (st live).bar.alive = true ∧ (st { live with saf := { live.saf with power := .shutdown } }).bar.saf.power = .shutdown := by decide

/-- A sensor of the die with three raw samples, hot since 0 or cool since 0 with demand 1. -/
def sensed (hot : Bool) : Bar :=
  live.modSensor 17 fun s => { s with raws := [1, 2, 3], rate := hot, stepFrom := if hot then some 0 else none
                                      leftAt := if hot then none else some 0, demand := 1 }

theorem witness_SensorsAreFilteredAndDemand :
    (let b := (((live.putRw 0x2C02 19 (.num 0x41)).putRw 0x2C07 1 (.num 10000)).modSensor 18 fun s => { s with raws := [1, 2, 3] })
     b.alive = true ∧ (b.at 5).sensorThere 18 = true ∧ (b.at 5).sensorDue 18 = true ∧ ((b.at 5).thm.sensors[18]).failed = false ∧
     ((b.at 5).thm.sensors[18]).raws = 1 :: 2 :: 3 :: [] ∧ -640 ≤ (b.at 5).sensorTemp 18 5000 ∧ (b.at 5).sensorTemp 18 5000 ≤ 2400) ∧
    (live.at 5).sensorOn 18 = false ∧ ({ live with segs := 2 } : Bar).sensorThere 4 = false ∧
    (((sensed false).modSensor 17 fun s => { s with sampledAt := some 1 }).at 999999).sensorFast 17 = false ∧ 1 / 8000000 = 999999 / 8000000 ∧
    (((sensed false).modThm fun t => { t with slotAt := some 25000 }).at 49999).thm.slotAt = some 25000 ∧ 25000 / 25000 = 49999 / 25000 ∧
    (16 : Fin 26) < 17 ∧ ((sensed false).at 999999).sensorFast 16 = false ∧
    (let d := ((sensed true).forceI 0x2C10 1).toNat * 1000000
     let b := (sensed true).at d
     (b.thm.sensors[17]).stepFrom = some 0 ∧ (b.thm.sensors[17]).hot = true ∧ 0 + (b.forceI 0x2C10 1).toNat * 1000000 ≤ b.now) ∧
    (let d := ((sensed false).forceI 0x2C10 2).toNat * 1000000
     let b := (sensed false).at d
     (b.thm.sensors[17]).leftAt = some 0 ∧ (b.thm.sensors[17]).hot = false ∧ 0 < (b.thm.sensors[17]).demand ∧
     0 + (b.forceI 0x2C10 2).toNat * 1000000 ≤ b.now) ∧
    (let b := (sensed true).at (((sensed true).forceI 0x2C10 1).toNat * 1000000 - 1)
     (b.thm.sensors[17]).stepFrom = some 0 ∧ b.now < 0 + (b.forceI 0x2C10 1).toNat * 1000000) ∧
    (let b := (sensed false).at (((sensed false).forceI 0x2C10 2).toNat * 1000000 - 1)
     (b.thm.sensors[17]).leftAt = some 0 ∧ b.now < 0 + (b.forceI 0x2C10 2).toNat * 1000000) := by decide +kernel

/-- A bar whose regulator has left transactions unanswered. -/
def asking (rs : List PmbusRetry) : Bar :=
  { live with thm := { live.thm with retries := rs, vexp := some (-12), highSince := some 0, vcore := 551, avs := .active } }

theorem witness_VcoreIsAskedFor :
    (asking []).alive = true ∧
    (let b := (asking []).at 100000000
     b.pollDue = true ∧ b.thm.waiting .readVout = none ∧ b.thm.waiting .readStatus = none ∧ ((asking []).putRw 0x2C20 4 (.num 1)).rwN 0x2C20 4 = 1 ∧ 571 ≤ b.thm.vcore + 20 ∧
     b.thm.vcore ≤ 531 + 20 ∧ (1 : Nat) ≠ 0 ∧ b.thm.highSince = some 0 ∧ 0 + 100000000 ≤ b.now ∧ 550 < b.thm.vcore ∧ b.thm.vcore ≤ 850 ∧
     b.thm.avs = .active ∧ b.thm.vexp = some (-12) ∧ b.thm.waiting (.vout 550) = none) ∧
    (let b := ((asking []).modThm fun t => { t with polledAt := some 0 }).at 999999
     b.thm.polledAt = some 0 ∧ b.now < 0 + 100000000) ∧
    (((asking [⟨.vout 546, 1, 0⟩]).at 999999).thm.retries.all fun r => decide (999999 < r.at_ + 1000000)) = true ∧
    ([1, 2].all fun n => ((asking [⟨.vout 546, n, 0⟩]).at 1000000).thm.retries = [⟨.vout 546, n, 0⟩]) = true ∧ (1 : Nat) < 2 ∧ (2 : Nat) ≤ 2 ∧
    ((asking [⟨.vout 545, 1, 100000000⟩]).at 100000000).thm.waiting (.vout 550) = some ⟨.vout 545, 1, 100000000⟩ ∧
    (live.at 5).thm.highSince = none := by decide +kernel

theorem witness_RingmasterCommandsAnswer : (st live).bar.alive = true := by decide

/-- A bar whose Safety Net is engaged, with a release request pending. -/
def engaged : Bar :=
  { live with saf := { live.saf with sn := { live.saf.sn with engaged := true, lastClear := 3 }, ist := { live.saf.ist with cleanPass := some 3 } }
              ecat := { live.ecat with releasePend := true } }

theorem witness_SafetyNetEngagesOnce :
    live.alive = true ∧ (live.at 5).saf.sn.engaged = false ∧ (engaged.at 5).saf.sn.engaged = true ∧
    (({ live with cap := { live.cap with items := [{ item 0 1 with published := true }, item 0 2] } } : Bar).at 5).cap.items[0]?
      = some { item 0 1 with published := true } := by decide +kernel

theorem witness_SafetyNetRelease :
    engaged.alive = true ∧ (engaged.at 5).ecat.releasePend = true ∧ (engaged.at 5).saf.sn.causes.bits = 0 ∧
    (engaged.at 5).saf.ist.cleanPass = some 3 ∧ (engaged.at 5).saf.sn.lastClear ≤ 3 ∧ (engaged.at 5).ecat.al = .op ∧
    (live.at 5).ecat.releasePend = false ∧ (live.at 5).saf.sn.engaged = false ∧
    ({ live.saf.sn.causes with lockstep := true } : Causes).bits ≠ 0 := by decide +kernel

/-- A bar whose watchdog closes a period of 10 ms, with firmware check-ins at 1 ms but for one slot. -/
def watched (absent : Nat) (missed : Bool) : Bar :=
  { live with saf := { live.saf with wdg := { live.saf.wdg with
      started := true, tk := 0, inForce := ⟨10000000, 1000000, 9000000, 0, 10000000⟩, fwMissed := missed
      slots := Vector.ofFn fun (i : Fin 8) =>
        { live.saf.wdg.slots[i] with supervised := decide (i.val < 6), times := if i.val = absent then [] else [1000000] } } } }

theorem witness_WatchdogPeriodCloses :
    (let b := (watched 5 false).at 10000000
     (watched 5 false).alive = true ∧ b.saf.wdg.started = true ∧ b.saf.wdg.tk + b.saf.wdg.inForce.period ≤ b.now ∧ b.saf.resetAt = none ∧
     (b.saf.wdg.slots[5]).supervised = true ∧ (b.saf.wdg.slots[5]).times = [] ∧ b.saf.wdg.fwMissed = false) ∧
    ((watched 5 true).at 10000000).saf.wdg.fwMissed = true ∧
    (let w := ((watched 6 false).at 10000000).saf.wdg
     (w.slots[0]).times = [1000000] ∧ w.tk + w.inForce.fo ≤ 1000000 ∧ 1000000 < w.tk + w.inForce.fc) ∧
    ((watched 5 false).at 9999999).now < 10000000 ∧ (live.at 5).saf.wdg.started = false := by decide +kernel

theorem witness_FaultRequestFollowsTheState :
    State.reset.bar.faultNoted = true ∧ live.faultNoted = true ∧
    (let b : Bar := { live with sto := { live.sto with state := .mounted } }
     b.alive = true ∧ true ≠ (b.at 2000).faultHigh ∧ 2000 ≤ 2000 ∧ (b.at 2000).saf.faultAt + 2000 ≤ (b.at 2000).now ∧ (b.at 2000).saf.resetAt = none ∧
     (b.at 2000).sto.state = .mounted ∧ false = (b.at 5).faultHigh ∧ (b.at 1999).now < (b.at 1999).saf.faultAt + 2000) ∧
    (({ live with saf := { live.saf with ist := { live.saf.ist with done := true } } } : Bar).at 5).faultHigh = true := by decide +kernel

/-- A session whose in-service test has two stolen lines, and has run the tests of a bar without segments. -/
def tested : Bar :=
  { live with saf := { live.saf with ist := { live.saf.ist with
      stolenReady := 2, tested := [(7, 255, 0), (8, 255, 0), (9, 255, 0)] ++ (List.range 16).map fun i => (10, 255, i) } } }

theorem witness_InServiceTestsCoverAndFail :
    live.alive = true ∧ (live.at 5).ecat.session = true ∧ (pre.at 5).ecat.session = false ∧
    (live.at 5).testUnits 7 255 = 1 ∧ (7 : Nat) ∉ [1, 3, 4, 5, 6] ∧ goodReading.got = goodReading.want ∧ (⟨[1], [2], 0⟩ : TestReading).got ≠ [2] ∧
    (live.at 5).testUnits 7 0 ≤ 0 ∧ (live.at 5).testUnits 1 7 = 30720 ∧ (live.at 5).testSource 1 = none ∧
    (tested.at 5).testSource 1 = some 4 ∧ (1 : Nat) ∉ (tested.at 5).saf.ist.linesFor ∧
    ((7, 255, 0) ∈ (tested.at 5).saf.ist.tested ∧ (7, 255, 0) ∉ (live.at 5).saf.ist.tested) ∧
    (let i := (live.at 5).saf.ist
     i.claimed = false ∧ i.lastSteal ≠ some 0 ∧ i.idleServed ≠ some 0 ∧ i.stolenReady < (live.at 5).linesWanted) ∧
    (({ tested with segs := 0 } : Bar).at 3000000000).covered = true ∧ (live.at 5).covered = false ∧
    2000000000 < ({ tested with segs := 0 } : Bar).saf.ist.passStart + 3000000000 ∧ (tested.at 3000000000).saf.ist.overrun = false := by decide +kernel

theorem witness_StartAndResetCommandsAnswer : (st live).bar.alive = true := by decide

theorem witness_ResetsKeepWhatIsRetained :
    (5000 ≤ 5000 ∧ 499 < 500 ∧ 900 < 901) ∧ ¬ (5000 ≤ 5000 ∧ (500 < 500 ∨ 900 < 900)) ∧ ¬ (5000 ≤ 4999) ∧
    (live.at 5).saf.power ≠ .shutdown ∧ 2000 ≤ 2000 ∧ 1999 < 2000 ∧
    (({ live with saf := { live.saf with power := .shutdown } } : Bar).at 5).saf.power = .shutdown := by
  decide +kernel

/-- A bar with the command key, whose slot A runs an image of SVN and KEY_REV 256, on trial or confirmed. -/
def keyed (trial : Bool) : Bar :=
  ({ pre with sec := { pre.sec with running := some false, slotA := zeros 12 ++ leBytes 2 256 ++ leBytes 2 256 ++ zeros 8
                                    hub := [], anchor := ⟨false, trial, 3⟩ } } : Bar).putRw 0x2E10 2 (.num 0x46555345)

theorem witness_SecurityCommandsAnswer :
    live.serves 0x2E10 = true ∧ (live.mailAt 5).ecat.al ≠ .preop ∧ (keyed true).serves 0x2E10 = true ∧ ((keyed true).mailAt 5).ecat.al = .preop ∧
    ((keyed true).mailAt 5).sec.anchor.trial = true ∧ ((keyed true).mailAt 5).sec.running = some ((keyed true).mailAt 5).sec.anchor.preferred ∧
    ((keyed false).mailAt 5).sec.anchor.trial = false ∧ (pre.mailAt 5).rwN 0x2E10 2 ≠ 0x46555345 ∧
    ((keyed false).mailAt 5).rwN 0x2E10 2 = 0x46555345 ∧ ((keyed false).mailAt 5).sec.running ≠ none ∧
    ((keyed false).mailAt 5).svnCounter < imgSvn ((keyed false).mailAt 5).runningImage ∧
    (∃ i ∈ [((keyed false).mailAt 5).svnCounter], ((keyed false).mailAt 5).svnCounter ≤ i ∧ i < imgSvn ((keyed false).mailAt 5).runningImage) ∧ imgSvn ((keyed false).mailAt 5).runningImage ≤ 256 ∧
    ((keyed false).mailAt 5).keyRevCounter < imgKeyRev ((keyed false).mailAt 5).runningImage ∧
    imgKeyRev ((keyed false).mailAt 5).runningImage ≤ 256 ∧ ((keyed false).mailAt 5).sec.uncalibrated = false ∧
    calGeneration ((keyed false).mailAt 5).calStore ≤ ((keyed false).mailAt 5).calGenCounter ∧ ((keyed false).mailAt 5).fieldBits < 8 := by
  decide +kernel

/-- Items that meet the premises of PASS, DEGRADED and EXCLUDED in turn; the premise of FAIL is met on the values the rule reads. -/
theorem witness_VerdictOrderOfTheRules :
    (live.formVerdict 0 (item 3 7)).1.reasons = 0 ∧ (live.formVerdict 0 (item 3 7)).1.verdict = 0 ∧
    (live.formVerdict 0 { item 3 7 with reasons := 2 ^ 15 }).1.verdict = 2 ∧
    (live.formVerdict 0 { item 3 7 with reasons := 2 ^ 14 }).1.verdict = 3 ∧
    (live.formVerdict 0 { item 3 7 with reasons := 2 ^ 18 }).1.verdict = 3 ∧
    verdictOf (2 ^ 15) 64 = 1 ∧ verdictOf (2 ^ 19) 64 = 3 := by decide +kernel

end Sys2Proof.Tests
end

section
/-! The scope of the model (chapter 0): what a command can do to the queue, the commands of segments, and the state at reset. -/

namespace Sys2Proof.Machine

/-! ### What a command can answer -/

/-- A segment's command has an effect on the bar alone where the part has the segment. -/
theorem State.ofSegment_next_or_absent (s : State) (seg : Fin 8) (t : Nat) (f : Bar → Bar) :
    (∃ b, s.ofSegment seg t f = .next { s with bar := b }) ∨
    (s.ofSegment seg t f = .fault .absentSegment ∧ s.bar.segs ≤ seg.val) := by
  obtain ⟨absent, stops⟩ | ⟨-, runs⟩ := s.ofSegment_cases seg t f
  · exact .inr ⟨stops, absent⟩
  · exact .inl (runs ▸ s.live_next t f)

/-- A command has an effect on the bar alone; only one that names a segment the fused part does not have stops (log entry 31). -/
theorem exec_next_or_absentSegment (c : Instr) (s : State) :
    (∃ b, exec c s = .next { s with bar := b }) ∨
    (exec c s = .fault .absentSegment ∧ ∃ (t : Nat) (seg : Fin 8) (n : Nat) (line : SegLine),
      s.bar.segs ≤ seg.val ∧ (c = .segmentLine t seg n line ∨ c = .segmentLineTimeout t seg n line)) := by
  cases c with
  | segmentLine t seg n line =>
    exact (s.ofSegment_next_or_absent seg t _).imp_right fun ⟨stops, absent⟩ => ⟨stops, t, seg, n, line, absent, .inl rfl⟩
  | segmentLineTimeout t seg n line =>
    exact (s.ofSegment_next_or_absent seg t _).imp_right fun ⟨stops, absent⟩ => ⟨stops, t, seg, n, line, absent, .inr rfl⟩
  | _ => exact .inl ⟨_, rfl⟩

/-- The commands that wait are those that waited: no command adds to the queue, drops from it or reorders it. -/
theorem exec_keeps_pending {c : Instr} {s s' : State} (h : exec c s = .next s') : s'.pending = s.pending := by
  obtain ⟨b, hb⟩ | ⟨stops, -⟩ := exec_next_or_absentSegment c s
  · cases hb.symm.trans h
    rfl
  · cases stops.symm.trans h

/-- A step takes the command at the front, or lets a tick pass where there is none. -/
theorem step_pending_eq_tail {s s' : State} (h : step s = .next s') : s'.pending = s.pending.tail := by
  unfold step at h
  split at h
  next empty =>
    cases h
    rw [empty]
    rfl
  next c rest front =>
    rw [front]
    exact exec_keeps_pending h

theorem State.queueWf_of_tail {s s' : State} (hs : s.queueWf = true) (h : s'.pending = s.pending.tail) : s'.queueWf = true := by
  unfold State.queueWf at *
  rw [List.all_eq_true] at *
  exact fun c hc => hs c (List.mem_of_mem_tail (h ▸ hc))

/-- Settles O2: a command that answers leaves the queue's rest as it is, by what any command can answer. -/
theorem stepKeepsTheQueue : Obligations.StepKeepsTheQueue := by
  refine ⟨fun s s' wf h => ⟨step_pending_eq_tail h, State.queueWf_of_tail wf (step_pending_eq_tail h)⟩, fun c s => ?_⟩
  exact (exec_next_or_absentSegment c s).imp_left fun ⟨b, hb⟩ => ⟨_, hb⟩

/-! ### Segments (R1, R4, R162) -/

theorem State.ofSegment_absent {s : State} {seg : Fin 8} (t : Nat) (f : Bar → Bar) (h : s.bar.segs ≤ seg.val) :
    s.ofSegment seg t f = .fault .absentSegment := if_pos h

theorem State.ofSegment_present {s : State} {seg : Fin 8} (t : Nat) (f : Bar → Bar) (h : seg.val < s.bar.segs)
    (running : s.bar.alive = true) : s.ofSegment seg t f = .next { s with bar := (f (s.bar.at t)).after } :=
  (if_neg (Nat.not_le.mpr h)).trans (s.live_alive t f running)

/-- Settles O5, by the two cases of a segment's command. -/
theorem absentSegmentsRaiseNothing : Obligations.AbsentSegmentsRaiseNothing := by
  intro s t n seg line
  constructor
  · intro absent
    exact ⟨s.ofSegment_absent t _ absent, s.ofSegment_absent t _ absent⟩
  · intro present running
    exact ⟨s.ofSegment_present t _ present running, s.ofSegment_present t _ present running⟩

/-! ### Reset -/

theorem Bar.reset_engine (e : Fin 4) : Bar.reset.engine e = .reset := Vector.getElem_replicate ..

theorem Engine.reset_program (i : Fin 256) : Engine.reset.program[i] = 0 := Vector.getElem_replicate ..

theorem Bar.reset_chan (k : Fin 64) : Bar.reset.chan k = .reset := Vector.getElem_replicate ..

theorem Bar.reset_pin (k : Fin 64) : Bar.reset.io.pins[k] = .reset := Vector.getElem_replicate ..

theorem Bar.reset_timer (i : Fin 16) : Bar.reset.io.timers[i] = .reset := Vector.getElem_replicate ..

theorem Bar.reset_pos (p : Fin 2) : Bar.reset.io.pos[p] = 0 := Vector.getElem_replicate ..

/-- Every engine is halted with an empty program (R372). -/
theorem Bar.reset_engine_halted (e : Fin 4) :
    (Bar.reset.engine e).state = .halted ∧ ∀ i : Fin 256, (Bar.reset.engine e).program[i] = 0 := by
  rw [Bar.reset_engine]
  exact ⟨rfl, Engine.reset_program⟩

/-- No channel is active or has words in its queues, and no pin is driven. -/
theorem Bar.reset_chan_idle (k : Fin 64) :
    (Bar.reset.chan k).active = false ∧ (Bar.reset.chan k).cq = [] ∧ (Bar.reset.chan k).rq = [] ∧
    (Bar.reset.io.pins[k]).drive = .released := by
  rw [Bar.reset_chan, Bar.reset_pin]
  exact ⟨rfl, rfl, rfl, rfl⟩

theorem Bar.reset_timer_stopped (i : Fin 16) : (Bar.reset.io.timers[i]).running = false := by
  rw [Bar.reset_timer]
  rfl

/-- The request of FAULT_N at reset is low, as the slave is not in OP (R424), and it is the one that is held. -/
theorem Bar.reset_faultHigh : Bar.reset.faultHigh = false := rfl

theorem Bar.reset_faultNoted : Bar.reset.faultNoted = true := rfl

/-- The bytes of the TxPDO at reset are those of its fields (Tables 11-7 and 11-8). -/
theorem Ecat.reset_txImage : Ecat.reset.txImage = txBytes Ecat.reset.tx := by decide +kernel

/-- The queue is empty, and the invariants of the segments, the parameter copies and the log hold. -/
theorem State.reset_wf :
    State.reset.pending = [] ∧ State.reset.queueWf = true ∧ State.reset.bar.segsWf = true ∧ State.reset.bar.par.wf = true ∧
    State.reset.bar.log.wf = true := ⟨rfl, rfl, rfl, rfl, rfl⟩

/-- Settles O3: the values of the slave, the copies and the safety block are read off, those of the I/O block hold for each
engine, channel, pin, timer and counter. -/
theorem resetState : Obligations.ResetState := by
  refine ⟨State.reset_wf, ?slave, ?copies, Bar.reset_engine_halted, Bar.reset_chan_idle, Bar.reset_timer_stopped,
    Bar.reset_pos, rfl, rfl, Bar.reset_faultHigh, rfl, Bar.reset_faultNoted, rfl, rfl, Ecat.reset_txImage, rfl⟩
  case slave => exact ⟨rfl, rfl, rfl, rfl, rfl⟩
  case copies => exact ⟨rfl, rfl, rfl, rfl, rfl⟩

end Sys2Proof.Machine
end

section
/-! The architecture of the bar (chapter 1): the step, and how a command that the bar acts on is answered. -/

namespace Sys2Proof.Machine

/-! ### The step and its answers -/

/-- Settles O1: both cases are those of the step's own match on the queue. -/
theorem stepTakesTheFront : Obligations.StepTakesTheFront := by
  constructor
  · intro c rest s front
    simp only [step, front]
    rfl
  · intro s empty
    simp only [step, empty]
    rfl

/-- A command that the running bar acts on is answered with its effect. -/
theorem Answers.of_live {s : State} {c : Instr} {t : Nat} (f : Bar → Bar) (running : s.bar.alive = true)
    (runs : exec c s = s.live t f) : Answers s c (f (s.bar.at t)) := runs.trans (s.live_alive t f running)

/-- A command of the thermal domain is answered with its effect in a shutdown too (R408, R409). -/
theorem Answers.of_measured {s : State} {c : Instr} {t : Nat} (f : Bar → Bar)
    (powered : s.bar.alive = true ∨ s.bar.saf.power = .shutdown) (runs : exec c s = s.measured t f) :
    Answers s c (f (s.bar.at t)) := by
  rw [Answers, runs, State.measured, State.occur_next, Bar.at_alive, Bar.at_saf, if_pos (by simpa using powered)]

end Sys2Proof.Machine
end

section
/-! Slack, the core supply and the thermal domain (R20, R21, R397 to R412): their events are answered, and how the core supply is asked
for another voltage. -/

namespace Sys2Proof.Machine

/-- Settles O49: each event of the thermal domain and the core supply, by who acts on it. -/
theorem thermalCommandsAnswer : Obligations.ThermalCommandsAnswer := by
  intro s t
  refine ⟨fun running => ?live, fun powered => ?measured, fun i peak openFor => rfl⟩
  case live =>
    exact ⟨fun ms => .of_live (·.slackMeasure ms) running rfl,
      fun ack pec => .of_live (fun b => b.slackInterval (b.writeTaken ack pec)) running rfl,
      fun ack pec => .of_live (fun b => b.vcoreLower (b.writeTaken ack pec)) running rfl,
      .of_live (·.slackNet) running rfl,
      fun a => .of_live (fun b => b.pmbusPoll (b.pecChecked a.vout) (b.pecChecked a.status) a.clear) running rfl,
      fun a => .of_live (fun b => b.pmbusRetry (b.pecChecked a.vout) a.clear) running rfl,
      fun i => .of_live (·.demandUp i) running rfl,
      fun i => .of_live (·.demandDown i) running rfl,
      .of_live (fun b => b.settlePStep b.lines) running rfl,
      .of_live (·.settleB) running rfl,
      fun i word => .of_live (·.sdoFrame _) running rfl⟩
  case measured =>
    exact ⟨fun i reading flagged => .of_measured (·.sensorSample i reading flagged) powered rfl,
      .of_measured (·.thermalRestart) powered rfl⟩

/-! ### The core supply (R21, R410 to R412) -/

/-- A reply is lost: not acknowledged, or its PEC is wrong while PEC is used (R410, R412). -/
def Bar.replyLost (b : Bar) (r : PmbusReply) : Prop := r.value = none ∨ (b.rwN 0x2C20 4 = 1 ∧ r.pec = false)

theorem Bar.pecChecked_lost {b : Bar} {r : PmbusReply} (h : b.replyLost r) : b.pecChecked r = none := by
  unfold pecChecked
  obtain unanswered | ⟨used, wrong⟩ := h
  · rw [unanswered, ite_self]
  · simp [used, wrong]

theorem Bar.pecChecked_good (b : Bar) (v : Nat) : b.pecChecked ⟨some v, true⟩ = some v := by
  simp [pecChecked]

theorem Bar.writeTaken_good (b : Bar) : b.writeTaken true true = true := by
  simp [writeTaken]

theorem Bar.writeTaken_unacknowledged (b : Bar) (pec : Bool) : b.writeTaken false pec = false := rfl

/-- With no retry of a transaction waiting, none is dropped. -/
theorem Thermal.notWaiting_of_waiting_none {t : Thermal} {op : PmbusOp} (h : t.waiting op = none) : t.notWaiting op = t.retries := by
  simpa [waiting, notWaiting] using h

/-- A first failure waits for its retry, with one failure counted. -/
theorem Bar.pmbusFail_first {b : Bar} {op : PmbusOp} (h : b.thm.waiting op = none) :
    b.pmbusFail op = b.modThm fun t => { t with retries := t.retries ++ [⟨op, 1, b.now⟩] } := by
  simp only [pmbusFail, h, modThm, Thermal.notWaiting_of_waiting_none h]
  rfl

/-- A second failure waits once more. -/
theorem Bar.pmbusFail_second {b : Bar} {op : PmbusOp} {r : PmbusRetry} (h : b.thm.waiting op = some r) (few : r.tries < 2) :
    b.pmbusFail op = b.modThm fun t => { t with retries := t.notWaiting op ++ [⟨op, r.tries + 1, b.now⟩] } := by
  simp only [pmbusFail, h, if_neg (show ¬ 3 ≤ r.tries + 1 by omega)]

/-- A third failure drops the transaction, is counted and logged, and sets FAULT unless the regulator is disabled (R412). -/
theorem Bar.pmbusFail_third {b : Bar} {op : PmbusOp} {r : PmbusRetry} (h : b.thm.waiting op = some r) (many : 2 ≤ r.tries) :
    b.pmbusFail op = (b.modThm fun t => { t with
      retries := t.notWaiting op, pmbusFaults := sat32 t.pmbusFaults
      avs := if t.avs = .disabled then .disabled else .fault }).logEvent 0xC031 0 := by
  simp only [pmbusFail, h, if_pos (show 3 ≤ r.tries + 1 by omega)]

/-- A failure sends nothing and reads nothing. -/
theorem Bar.pmbusFail_keeps (b : Bar) (op : PmbusOp) :
    (b.pmbusFail op).thm.sent = b.thm.sent ∧ (b.pmbusFail op).thm.statusWord = b.thm.statusWord ∧
    (b.pmbusFail op).thm.vread = b.thm.vread := by
  unfold pmbusFail
  extract_lets n
  split <;> exact ⟨rfl, rfl, rfl⟩

theorem sat32_eq_min (x : Nat) : sat32 x = min 0xFFFFFFFF (x + 1) := by
  unfold sat32
  split <;> omega

/-- A message to the regulator, at its address and with the PEC setting (R410). -/
def Bar.message (b : Bar) (cmd : Nat) (data : Option Nat) : PmbusSent :=
  ⟨b.rwN 0x2C20 2, cmd, data, decide (b.rwN 0x2C20 4 = 1)⟩

/-! #### One transaction -/

/-- READ_VOUT fails for the first time. -/
theorem Bar.readVout_fails {b : Bar} (h : b.thm.waiting .readVout = none) :
    b.readVout none = b.modThm fun t => { t with
      sent := b.message 0x8B none :: t.sent, retries := t.retries ++ [⟨.readVout, 1, b.now⟩] } :=
  pmbusFail_first (b := b.pmbusSend 0x8B none) h

/-- READ_VOUTs in a row that are off the request by more than 20 mV, once this one has answered (R412). -/
def Bar.mismatches (b : Bar) (v : Nat) : Nat := if 20 < absDiff v b.thm.vcore then b.thm.mismatch + 1 else 0

/-- READ_VOUT has answered: it waits no longer, and what it read is held. -/
def Bar.voutRead (b : Bar) (v : Nat) : Bar :=
  b.modThm fun t => { t with
    sent := b.message 0x8B none :: t.sent, retries := t.notWaiting .readVout, avs := if t.avs = .fault then .active else t.avs
    vread := v, mismatch := b.mismatches v }

theorem Bar.readVout_some (b : Bar) (v : Nat) :
    b.readVout (some v) = if b.mismatches v = 3 then (b.voutRead v).logEvent 0xC032 0 else b.voutRead v := rfl

theorem Bar.mismatches_near {b : Bar} {v : Nat} (high : v ≤ b.thm.vcore + 20) (low : b.thm.vcore ≤ v + 20) :
    b.mismatches v = 0 := by
  refine if_neg ?_
  unfold absDiff
  split <;> omega

/-- Within 20 mV of the request nothing is logged. -/
theorem Bar.readVout_near {b : Bar} {v : Nat} (high : v ≤ b.thm.vcore + 20) (low : b.thm.vcore ≤ v + 20) :
    b.readVout (some v) = b.voutRead v := by
  rw [readVout_some, mismatches_near high low, if_neg (by decide)]

/-- A log entry is all that an answer far from the request can add. -/
theorem Bar.readVout_thm (b : Bar) (v : Nat) : (b.readVout (some v)).thm = (b.voutRead v).thm := by
  rw [readVout_some]
  split <;> rfl

theorem Bar.readVout_message (b : Bar) (v cmd : Nat) (data : Option Nat) :
    (b.readVout (some v)).message cmd data = b.message cmd data := by
  rw [readVout_some]
  split <;> rfl

/-- STATUS_WORD fails for the first time. -/
theorem Bar.readStatus_fails {b : Bar} (clear : Bool) (h : b.thm.waiting .readStatus = none) :
    b.readStatus none clear = b.modThm fun t => { t with
      sent := b.message 0x79 none :: t.sent, retries := t.retries ++ [⟨.readStatus, 1, b.now⟩] } :=
  pmbusFail_first (b := b.pmbusSend 0x79 none) h

/-- STATUS_WORD shows no fault. -/
theorem Bar.readStatus_clean (b : Bar) (clear : Bool) :
    b.readStatus (some 0) clear = b.modThm fun t => { t with
      sent := b.message 0x79 none :: t.sent, retries := t.notWaiting .readStatus
      avs := if t.avs = .fault then .active else t.avs, statusWord := 0 } := rfl

/-- CLEAR_FAULTS is sent, taken or not. -/
theorem Bar.clearFaults_keeps (b : Bar) (ok : Bool) :
    (b.clearFaults ok).thm.sent = b.message 0x03 none :: b.thm.sent ∧ (b.clearFaults ok).thm.statusWord = b.thm.statusWord ∧
    (b.clearFaults ok).thm.vread = b.thm.vread := by
  cases ok with
  | true => exact ⟨rfl, rfl, rfl⟩
  | false => exact (b.pmbusSend 0x03 none).pmbusFail_keeps .clearFaults

/-- A STATUS_WORD that shows a fault is followed by CLEAR_FAULTS (R410). -/
theorem Bar.readStatus_fault (b : Bar) {w : Nat} (clear : Bool) (h : w ≠ 0) :
    (b.readStatus (some w) clear).thm.sent = b.message 0x03 none :: b.message 0x79 none :: b.thm.sent ∧
    (b.readStatus (some w) clear).thm.statusWord = w ∧ (b.readStatus (some w) clear).thm.vread = b.thm.vread := by
  simp only [readStatus, if_pos h]
  exact clearFaults_keeps _ clear

/-! #### VOUT_COMMAND -/

/-- VOUT_COMMAND is sent and taken: VCORE moves (R411). -/
theorem Bar.sendVcore_taken {b : Bar} (v : Nat) {e : Int} (h : b.thm.vexp = some e) :
    b.sendVcore v true = b.modThm fun t => { t with
      sent := b.message 0x21 (some (voutCommand v e)) :: t.sent, retries := t.notWaiting (.vout v)
      avs := if t.avs = .fault then .active else t.avs, vcore := v } := by
  simp only [sendVcore, h]
  rfl

/-- VOUT_COMMAND is sent and fails. -/
theorem Bar.sendVcore_fails {b : Bar} (v : Nat) {e : Int} (h : b.thm.vexp = some e) :
    b.sendVcore v false = (b.pmbusSend 0x21 (some (voutCommand v e))).pmbusFail (.vout v) := by
  simp only [sendVcore, h]
  rfl

/-- Within its limits, with the regulator in order, a voltage is asked for as it is. -/
theorem Bar.requestVcore_first {b : Bar} {mv : Nat} (ok : Bool) (limit : mv ≤ 850) (active : b.thm.avs = .active)
    (h : b.thm.waiting (.vout (max 550 mv)) = none) : b.requestVcore mv ok = b.sendVcore (max 550 mv) ok := by
  simp only [requestVcore, Nat.min_eq_right limit, active, h]
  rfl

/-- While a request waits for its retry, the new voltage is that retry's, and its count of failures stands (log entry 92). -/
theorem Bar.requestVcore_waiting {b : Bar} {mv : Nat} {r : PmbusRetry} (ok : Bool) (limit : mv ≤ 850) (active : b.thm.avs = .active)
    (h : b.thm.waiting (.vout (max 550 mv)) = some r) (early : b.now < r.at_ + 1000000) :
    b.requestVcore mv ok = b.modThm fun t => { t with
      retries := t.notWaiting (.vout (max 550 mv)) ++ [{ r with op := .vout (max 550 mv) }] } := by
  have notDue : b.retryDue r = false := decide_eq_false (by omega)
  simp only [requestVcore, Nat.min_eq_right limit, active, h, notDue]
  rfl

/-! #### Polls, retries and the voltage's way down -/

theorem Bar.pmbusPoll_early {b : Bar} {u : Nat} (vout status : Option Nat) (clear : Bool) (h : b.thm.polledAt = some u)
    (early : b.now < u + 100000000) : b.pmbusPoll vout status clear = b := by
  refine if_neg ?_
  simp only [pollDue, h, decide_eq_true_eq]
  omega

/-- The bar at its poll: READ_VOUT and STATUS_WORD follow. -/
def Bar.polled (b : Bar) : Bar := b.modThm fun t => { t with polledAt := some b.now }

theorem Bar.pmbusPoll_due {b : Bar} (vout status : Option Nat) (clear : Bool) (h : b.pollDue = true) :
    b.pmbusPoll vout status clear = (b.polled.readVout vout).readStatus status clear := if_pos h

theorem Bar.pmbusRetry_early {b : Bar} (answer : Option Nat) (clear : Bool) (h : ∀ r ∈ b.thm.retries, b.now < r.at_ + 1000000) :
    b.pmbusRetry answer clear = b := by
  have none : b.thm.retries.find? b.retryDue = none := by
    simpa [retryDue] using h
  simp only [pmbusRetry, none]

theorem Bar.pmbusRetry_vout {b : Bar} {v n u : Nat} {rest : List PmbusRetry} (answer : Option Nat) (clear : Bool)
    (h : b.thm.retries = ⟨.vout v, n, u⟩ :: rest) (due : u + 1000000 ≤ b.now) :
    b.pmbusRetry answer clear = b.sendVcore v answer.isSome := by
  have first : b.thm.retries.find? b.retryDue = some ⟨.vout v, n, u⟩ := by
    rw [h]
    exact List.find?_cons_of_pos (decide_eq_true due)
  simp only [pmbusRetry, first]

/-- The time of high slack begins anew (log entry 92). -/
def Bar.highAnew (b : Bar) : Bar := b.modThm fun t => { t with highSince := some b.now }

theorem Bar.vcoreLower_due {b : Bar} {u : Nat} (ok : Bool) (h : b.thm.highSince = some u) (due : u + 100000000 ≤ b.now)
    (above : 550 < b.thm.vcore) :
    b.vcoreLower ok = b.highAnew.requestVcore (b.thm.vcore - 5) ok := by
  simp [vcoreLower, highAnew, h, due, above]

theorem Bar.vcoreLower_of_none {b : Bar} (ok : Bool) (h : b.thm.highSince = none) : b.vcoreLower ok = b := by
  simp only [vcoreLower, h]

/-! #### What a poll leaves -/

/-- A retry of another transaction that is added leaves a transaction without one. -/
theorem Thermal.waiting_of_retries_append {t u : Thermal} {op : PmbusOp} {r : PmbusRetry} (h : t.waiting op = none)
    (other : r.op.same op = false) (added : u.retries = t.retries ++ [r]) : u.waiting op = none := by
  simpa [waiting, added, other] using h

/-- Both reads fail. -/
theorem Bar.pmbusPoll_fails {b : Bar} (clear : Bool) (due : b.pollDue = true) (freeV : b.thm.waiting .readVout = none)
    (freeS : b.thm.waiting .readStatus = none) :
    b.pmbusPoll none none clear = b.modThm fun t => { t with
      polledAt := some b.now, sent := b.message 0x79 none :: b.message 0x8B none :: t.sent
      retries := t.retries ++ [⟨.readVout, 1, b.now⟩, ⟨.readStatus, 1, b.now⟩] } := by
  rw [pmbusPoll_due _ _ _ due, readVout_fails (b := b.polled) freeV, readStatus_fails]
  · simp only [modThm, List.append_assoc]
    rfl
  · exact Thermal.waiting_of_retries_append (r := ⟨.readVout, 1, b.now⟩) freeS rfl rfl

/-- READ_VOUT fails and STATUS_WORD shows no fault. -/
theorem Bar.pmbusPoll_vout_fails {b : Bar} (clear : Bool) (due : b.pollDue = true) (freeV : b.thm.waiting .readVout = none)
    (freeS : b.thm.waiting .readStatus = none) :
    b.pmbusPoll none (some 0) clear = b.modThm fun t => { t with
      polledAt := some b.now, sent := b.message 0x79 none :: b.message 0x8B none :: t.sent
      retries := t.retries ++ [⟨.readVout, 1, b.now⟩], avs := if t.avs = .fault then .active else t.avs, statusWord := 0 } := by
  rw [pmbusPoll_due _ _ _ due, readVout_fails (b := b.polled) freeV, readStatus_clean]
  simp only [modThm]
  rw [Thermal.notWaiting_of_waiting_none (Thermal.waiting_of_retries_append (r := ⟨.readVout, 1, b.now⟩) freeS rfl rfl)]
  rfl

/-- READ_VOUT answers near the request and STATUS_WORD fails. -/
theorem Bar.pmbusPoll_status_fails {b : Bar} {v : Nat} (clear : Bool) (due : b.pollDue = true)
    (freeV : b.thm.waiting .readVout = none) (freeS : b.thm.waiting .readStatus = none)
    (high : v ≤ b.thm.vcore + 20) (low : b.thm.vcore ≤ v + 20) :
    b.pmbusPoll (some v) none clear = b.modThm fun t => { t with
      polledAt := some b.now, sent := b.message 0x79 none :: b.message 0x8B none :: t.sent
      retries := t.retries ++ [⟨.readStatus, 1, b.now⟩], avs := if t.avs = .fault then .active else t.avs
      vread := v, mismatch := 0 } := by
  have kept : (b.polled.voutRead v).thm.retries = b.thm.retries := Thermal.notWaiting_of_waiting_none freeV
  have free : (b.polled.voutRead v).thm.waiting .readStatus = none := by
    rw [Thermal.waiting, kept]
    exact freeS
  rw [pmbusPoll_due _ _ _ due, readVout_near (b := b.polled) high low, readStatus_fails clear free]
  simp only [modThm, kept]
  rw [voutRead, mismatches_near (b := b.polled) high low]
  rfl

/-- READ_VOUT answers near the request and STATUS_WORD shows no fault. -/
theorem Bar.pmbusPoll_answered {b : Bar} {v : Nat} (clear : Bool) (due : b.pollDue = true)
    (high : v ≤ b.thm.vcore + 20) (low : b.thm.vcore ≤ v + 20) :
    b.pmbusPoll (some v) (some 0) clear = b.modThm fun t => { t with
      polledAt := some b.now, sent := b.message 0x79 none :: b.message 0x8B none :: t.sent
      retries := ({ t with retries := t.notWaiting .readVout } : Thermal).notWaiting .readStatus
      avs := if t.avs = .fault then .active else t.avs, vread := v, statusWord := 0, mismatch := 0 } := by
  rw [pmbusPoll_due _ _ _ due, readVout_near (b := b.polled) high low, readStatus_clean, voutRead,
    mismatches_near (b := b.polled) high low]
  by_cases fault : b.thm.avs = .fault <;>
    · simp only [polled, modThm, fault, if_true, if_false, reduceCtorEq]
      rfl

/-- STATUS_WORD shows a fault: CLEAR_FAULTS follows, and what both reads answered is held. -/
theorem Bar.pmbusPoll_fault {b : Bar} (v : Nat) {w : Nat} (clear : Bool) (due : b.pollDue = true) (fault : w ≠ 0) :
    (b.pmbusPoll (some v) (some w) clear).thm.sent =
      b.message 0x03 none :: b.message 0x79 none :: b.message 0x8B none :: b.thm.sent ∧
    (b.pmbusPoll (some v) (some w) clear).thm.statusWord = w ∧ (b.pmbusPoll (some v) (some w) clear).thm.vread = v := by
  obtain ⟨sent, word, vread⟩ := (b.polled.readVout (some v)).readStatus_fault clear fault
  rw [pmbusPoll_due _ _ _ due, sent, word, vread, readVout_message, readVout_message, readVout_thm]
  exact ⟨rfl, rfl, rfl⟩

/-! #### What a retry of VOUT_COMMAND leaves -/

theorem Thermal.waiting_of_front {t : Thermal} {v n u : Nat} {rest : List PmbusRetry} (h : t.retries = ⟨.vout v, n, u⟩ :: rest) :
    t.waiting (.vout v) = some ⟨.vout v, n, u⟩ := by
  rw [waiting, h]
  exact List.find?_cons_of_pos rfl

/-- The second failure of a voltage's request. -/
theorem Bar.sendVcore_fails_again {b : Bar} {v n u : Nat} {e : Int} {rest : List PmbusRetry} (exponent : b.thm.vexp = some e)
    (h : b.thm.retries = ⟨.vout v, n, u⟩ :: rest) (few : n < 2) :
    b.sendVcore v false = b.modThm fun t => { t with
      sent := b.message 0x21 (some (voutCommand v e)) :: t.sent
      retries := t.notWaiting (.vout v) ++ [⟨.vout v, n + 1, b.now⟩] } :=
  (sendVcore_fails v exponent).trans
    (pmbusFail_second (b := b.pmbusSend 0x21 (some (voutCommand v e))) (Thermal.waiting_of_front h) few)

/-- The third failure of a voltage's request: VCORE stays where it is. -/
theorem Bar.sendVcore_fails_third {b : Bar} {v n u : Nat} {e : Int} {rest : List PmbusRetry} (exponent : b.thm.vexp = some e)
    (h : b.thm.retries = ⟨.vout v, n, u⟩ :: rest) (many : 2 ≤ n) :
    b.sendVcore v false = (b.modThm fun t => { t with
      sent := b.message 0x21 (some (voutCommand v e)) :: t.sent, retries := t.notWaiting (.vout v)
      pmbusFaults := min 0xFFFFFFFF (t.pmbusFaults + 1)
      avs := if t.avs = .disabled then .disabled else .fault }).logEvent 0xC031 0 := by
  simp only [← sat32_eq_min]
  exact (sendVcore_fails v exponent).trans
    (pmbusFail_third (b := b.pmbusSend 0x21 (some (voutCommand v e))) (Thermal.waiting_of_front h) many)

/-! #### What 5 mV less leaves -/

section
variable {b : Bar} {u : Nat} {e : Int} (high : b.thm.highSince = some u) (due : u + 100000000 ≤ b.now) (above : 550 < b.thm.vcore)
  (limit : b.thm.vcore ≤ 850) (active : b.thm.avs = .active)
include high due above limit active

/-- A request without one that waits is sent at once. -/
theorem Bar.vcoreLower_sends (ok : Bool) (free : b.thm.waiting (.vout (max 550 (b.thm.vcore - 5))) = none) :
    b.vcoreLower ok = b.highAnew.sendVcore (max 550 (b.thm.vcore - 5)) ok := by
  rw [vcoreLower_due ok high due above, requestVcore_first (b := b.highAnew) ok (by omega) active free]

theorem Bar.vcoreLower_taken (exponent : b.thm.vexp = some e) (free : b.thm.waiting (.vout (max 550 (b.thm.vcore - 5))) = none) :
    b.vcoreLower true = b.modThm fun t => { t with
      highSince := some b.now, sent := b.message 0x21 (some (voutCommand (max 550 (b.thm.vcore - 5)) e)) :: t.sent
      retries := t.notWaiting (.vout (max 550 (b.thm.vcore - 5))), avs := if t.avs = .fault then .active else t.avs
      vcore := max 550 (b.thm.vcore - 5) } := by
  rw [vcoreLower_sends high due above limit active true free]
  exact sendVcore_taken _ exponent

theorem Bar.vcoreLower_fails (exponent : b.thm.vexp = some e) (free : b.thm.waiting (.vout (max 550 (b.thm.vcore - 5))) = none) :
    b.vcoreLower false = b.modThm fun t => { t with
      highSince := some b.now, sent := b.message 0x21 (some (voutCommand (max 550 (b.thm.vcore - 5)) e)) :: t.sent
      retries := t.retries ++ [⟨.vout (max 550 (b.thm.vcore - 5)), 1, b.now⟩] } := by
  rw [vcoreLower_sends high due above limit active false free, sendVcore_fails (b := b.highAnew) _ exponent]
  exact pmbusFail_first (b := b.highAnew.pmbusSend _ _) free

theorem Bar.vcoreLower_waits (ok : Bool) {r : PmbusRetry} (waits : b.thm.waiting (.vout (max 550 (b.thm.vcore - 5))) = some r)
    (early : b.now < r.at_ + 1000000) :
    b.vcoreLower ok = b.modThm fun t => { t with
      highSince := some b.now, retries := t.notWaiting (.vout (max 550 (b.thm.vcore - 5))) ++
        [{ r with op := .vout (max 550 (b.thm.vcore - 5)) }] } := by
  rw [vcoreLower_due ok high due above, requestVcore_waiting (b := b.highAnew) ok (by omega) active waits early]
  rfl

end

/-- Settles O51, transaction by transaction. -/
theorem vcoreIsAskedFor : Obligations.VcoreIsAskedFor := by
  refine ⟨fun s t running => ?_, by decide⟩
  intro b m msg polled lower restored Lost p
  have poll (x y : PmbusReply) (clear : Bool) {d : Bar} (h : b.pmbusPoll (b.pecChecked x) (b.pecChecked y) clear = d) :
      Answers s (.pmbusPoll t ⟨x, y, clear⟩) d :=
    h ▸ .of_live (fun b => b.pmbusPoll (b.pecChecked x) (b.pecChecked y) clear) running rfl
  have retry (x y : PmbusReply) (clear : Bool) {d : Bar} (h : b.pmbusRetry (b.pecChecked x) clear = d) :
      Answers s (.pmbusRetry t ⟨x, y, clear⟩) d :=
    h ▸ .of_live (fun b => b.pmbusRetry (b.pecChecked x) clear) running rfl
  have less (ack pec : Bool) {d : Bar} (h : b.vcoreLower (b.writeTaken ack pec) = d) :
      Answers s (.vcoreLower ⟨t, ack, pec⟩) d :=
    h ▸ .of_live (fun b => b.vcoreLower (b.writeTaken ack pec)) running rfl
  refine ⟨?fails, ?early, ?answered, ?faulty, ?idle, ?retried, ?lowered, ?low⟩
  case fails =>
    intro due freeV freeS x y v clear
    refine ⟨fun lostX lostY => poll _ _ _ ?_, fun lostX => poll _ _ _ ?_, fun lostY high low => poll _ _ _ ?_⟩
    · rw [Bar.pecChecked_lost lostX, Bar.pecChecked_lost lostY, Bar.pmbusPoll_fails clear due freeV freeS]
      rfl
    · rw [Bar.pecChecked_lost lostX, Bar.pecChecked_good, Bar.pmbusPoll_vout_fails clear due freeV freeS]
      rfl
    · rw [Bar.pecChecked_lost lostY, Bar.pecChecked_good, Bar.pmbusPoll_status_fails clear due freeV freeS high low]
      rfl
  case early => exact fun u a polledAt early => poll _ _ _ (Bar.pmbusPoll_early _ _ _ polledAt early)
  case answered =>
    intro due v clear high low
    refine poll _ _ _ ?_
    rw [Bar.pecChecked_good, Bar.pecChecked_good, Bar.pmbusPoll_answered clear due high low]
    rfl
  case faulty =>
    intro due v w clear fault
    refine ⟨_, poll _ _ _ rfl, ?_⟩
    rw [Bar.pecChecked_good, Bar.pecChecked_good]
    exact Bar.pmbusPoll_fault v clear due fault
  case idle => exact fun waits a => retry _ _ _ (Bar.pmbusRetry_early _ _ waits)
  case retried =>
    intro v n u e rest front due exponent sent
    refine ⟨fun a y clear => retry _ _ _ ?_, fun few x y clear lost => retry _ _ _ ?_, fun many x y clear lost => retry _ _ _ ?_⟩
    · rw [Bar.pecChecked_good, Bar.pmbusRetry_vout _ _ front due]
      exact Bar.sendVcore_taken v exponent
    · rw [Bar.pecChecked_lost lost, Bar.pmbusRetry_vout _ _ front due]
      exact Bar.sendVcore_fails_again exponent front few
    · rw [Bar.pecChecked_lost lost, Bar.pmbusRetry_vout _ _ front due]
      exact Bar.sendVcore_fails_third exponent front many
  case lowered =>
    intro u e high due above limit active exponent sent
    refine ⟨fun free => less _ _ ?_, fun free pec => less _ _ ?_, fun r waits early ack pec => less _ _ ?_⟩
    · rw [Bar.writeTaken_good]
      exact Bar.vcoreLower_taken high due above limit active exponent free
    · rw [Bar.writeTaken_unacknowledged, Thermal.notWaiting_of_waiting_none free]
      exact Bar.vcoreLower_fails high due above limit active exponent free
    · exact Bar.vcoreLower_waits high due above limit active _ waits early
  case low => exact fun high ack pec => less _ _ (Bar.vcoreLower_of_none _ high)

end Sys2Proof.Machine
end

section
/-! The parameter copies (R33 to R43): what the read views show, and when a set is armed, disarmed, made live and stored. -/

namespace Sys2Proof.Machine

/-! ### Read views (R35) -/

/-- The copy that a channel reads is the one its own read view selects. -/
theorem Bar.viewStore_eq (b : Bar) (ch : Channel) :
    b.viewStore ch = match (b.channel? ch).readView with
      | 0 => b.par.staged
      | 1 => if b.par.armedState = .armed then b.par.armed else b.par.live
      | _ => b.par.live := by
  cases ch <;> rfl

theorem Bar.viewStore_staged {b : Bar} {ch : Channel} (h : (b.channel? ch).readView = 0) : b.viewStore ch = b.par.staged := by
  simp only [viewStore_eq, h]

theorem Bar.viewStore_armed {b : Bar} {ch : Channel} (h : (b.channel? ch).readView = 1) (armed : b.par.armedState = .armed) :
    b.viewStore ch = b.par.armed := by
  rw [viewStore_eq, h]
  exact if_pos armed

theorem Bar.viewStore_armed_of_empty {b : Bar} {ch : Channel} (h : (b.channel? ch).readView = 1)
    (empty : b.par.armedState = .empty) : b.viewStore ch = b.par.live := by
  rw [viewStore_eq, h]
  exact if_neg (by simp [empty])

theorem Bar.viewStore_live {b : Bar} {ch : Channel} (h : (b.channel? ch).readView = 2) : b.viewStore ch = b.par.live := by
  simp only [viewStore_eq, h]

/-- The bytes a STAGED entry reads as, out of the copy that a channel's view selects. -/
def Bar.shownIn (b : Bar) (e : Entry) (index sub : Nat) (st : Store) : List Byte :=
  match e.ty.size with
  | some w => leBytes w (unsigned (8 * w) (st.numAt b.segs index sub))
  | none => if st.rawAt index sub = [] then rawDefault index else st.rawAt index sub

theorem Bar.valueOf_staged (b : Bar) (ch : Channel) {e : Entry} (index sub : Nat) (h : e.acc = .staged) :
    b.valueOf ch e index sub = b.shownIn e index sub (b.viewStore ch) := by
  unfold valueOf shownIn
  cases e.ty.size with
  | some w => simp only [h]
  | none =>
    simp only [h]
    cases (b.viewStore ch).rawAt index sub with
    | nil => simp
    | cons x xs => simp

/-- A value written to a STAGED entry reaches its key of the staged copy and nothing else (R35). -/
theorem Bar.storeValue_staged (b : Bar) {e : Entry} (index sub : Nat) (v : List Byte) (h : e.acc = .staged) :
    b.storeValue e index sub v = b.modPar fun p => { p with
      staged := p.staged.put (objKey index sub) (match e.ty.size with | some _ => .num (e.number v) | none => .raw v) } :=
  if_pos h

/-- Settles O16: a read by the lemmas on each view, for either channel; a write by the laws of a store's `put`. -/
theorem readViewsSelectACopy : Obligations.ReadViewsSelectACopy := by
  refine ⟨fun b e index sub staged => ?read, fun b e index sub v staged => ?write⟩
  case read =>
    have shown (ch : Channel) {st : Store} (h : b.viewStore ch = st) :
        b.valueOf ch e index sub = b.shownIn e index sub st := h ▸ b.valueOf_staged ch index sub staged
    exact ⟨fun h => shown _ (Bar.viewStore_staged h), fun h armed => shown _ (Bar.viewStore_armed h armed),
      fun h empty => shown _ (Bar.viewStore_armed_of_empty h empty), fun h => shown _ (Bar.viewStore_live h),
      fun h => shown _ (Bar.viewStore_staged h), fun h armed => shown _ (Bar.viewStore_armed h armed),
      fun h empty => shown _ (Bar.viewStore_armed_of_empty h empty), fun h => shown _ (Bar.viewStore_live h)⟩
  case write =>
    rw [b.storeValue_staged index sub v staged]
    exact ⟨rfl, rfl, rfl, rfl, rfl, Store.find_put_self _ _ _, fun key other => Store.find_put_other _ _ _ _ other⟩

/-! ### A set goes live (R38) -/

/-- Steps that each leave the parameter copies alone leave them alone together. -/
theorem Bar.foldl_par {α : Type} (f : Bar → α → Bar) (keeps : ∀ b x, (f b x).par = b.par) (b : Bar) (xs : List α) :
    (xs.foldl f b).par = b.par := by
  induction xs generalizing b with
  | nil => rfl
  | cons x xs ih => exact (ih (f b x)).trans (keeps b x)

theorem Bar.par_ite (c : Prop) [Decidable c] (x y : Bar) : (if c then x else y).par = if c then x.par else y.par :=
  apply_ite Bar.par c x y

@[simp] theorem Bar.updateAdvice_par (b : Bar) : b.updateAdvice.par = b.par := by
  simp only [updateAdvice, par_ite, logEvent_par, ite_self]

@[simp] theorem Bar.checkIllum_par (b : Bar) : b.checkIllum.par = b.par := by
  unfold checkIllum
  extract_lets limited mask fresh c
  exact foldl_par (fun b k => b.logEvent 0x2032 k) (fun _ _ => rfl) c fresh

@[simp] theorem Bar.rowModeChange_par (b : Bar) (old new : Store) (n : Nat) : (b.rowModeChange old new n).par = b.par := by
  unfold rowModeChange
  refine foldl_par _ (fun c band => ?_) _ _
  split <;> rfl

@[simp] theorem Bar.movePattern_par (b : Bar) (n anchor : Nat) : (b.movePattern n anchor).par = b.par := by
  simp only [movePattern, modCap_par]
  split
  · simp only [par_ite, logEvent_par, modCap_par, ite_self]
  · rfl

@[simp] theorem Bar.cutLanes_par (b : Bar) (old new : Store) (n : Nat) : (b.cutLanes old new n).par = b.par := rfl

/-- What going live at a line makes of the copies and of object 0x2010 (R34, R38). -/
theorem Bar.goLive_par (b : Bar) (n : Nat) : (b.goLive n).par = { b.par with
    live := b.par.armed, liveGen := nextGen b.par.liveGen, lastApply := n, armedState := .empty, armedGen := 0, armed := [] } := by
  unfold goLive
  extract_lets settled old new gen regrid point _ taken _ listed recorded voided moved regridded
  have moves : moved.par = voided.par := by
    simp only [moved, par_ite, movePattern_par, ite_self]
  have regrids : regridded.par = moved.par := by
    unfold regridded
    split
    · clear_value point
      cases point <;> rfl
    · rfl
  rw [updateAdvice_par, checkIllum_par, cutLanes_par, regrids, moves, rowModeChange_par]
  rfl

/-- The apply point of the armed set lies at line n or before it (R38; for PACE, log entry 136). -/
def Bar.applyReached (b : Bar) (n : Nat) : Prop :=
  match b.par.armedMode with
  | 0 => ∃ k, b.par.armedAt + 64 ≤ 4096 * k ∧ 4096 * k ≤ n
  | 1 => b.par.armedLine ≤ n
  | _ => ∃ i ∈ b.cap.items, i.lane = b.par.armedLane ∧ i.matched = true ∧
      (i.started = true ∨ i.published = false) ∧ b.par.armedAt + 64 ≤ i.s ∧ i.s ≤ n

/-- A multiple of 4,096 lies between two lines where the first one at or after the former does not lie beyond the latter. -/
theorem ceilDiv_mul_le_iff (x n : Nat) : ceilDiv x 4096 * 4096 ≤ n ↔ ∃ k, x ≤ 4096 * k ∧ 4096 * k ≤ n := by
  rw [show ceilDiv x 4096 = (x + 4095) / 4096 from rfl]
  constructor
  · intro h
    exact ⟨(x + 4095) / 4096, by omega, by omega⟩
  · rintro ⟨k, low, high⟩
    omega

theorem Bar.applyDue_iff (b : Bar) (n : Nat) :
    b.applyDue n = true ↔ b.par.armedState = .armed ∧ b.ecat.session = true ∧ b.applyReached n := by
  unfold applyDue applyReached applyLine
  rcases b.par.armedMode with _ | _ | mode <;> simp [ceilDiv_mul_le_iff, and_assoc]

theorem Bar.settleApply_due {b : Bar} {n : Nat} (h : b.applyDue n = true) : b.settleApply n = b.goLive n := if_pos h

theorem Bar.settleApply_of_not_due {b : Bar} {n : Nat} (h : ¬ b.applyDue n = true) : b.settleApply n = b := if_neg h

/-- Settles O8: by what makes a set due, and what going live leaves of the copies. -/
theorem armedSetGoesLiveAtItsPoint : Obligations.ArmedSetGoesLiveAtItsPoint := by
  intro s t running b n reached
  have due : b.applyDue n = true ↔ b.par.armedState = .armed ∧ b.ecat.session = true ∧ reached := b.applyDue_iff n
  have answers : Answers s (.applyPoint t) (b.settleApply n) := .of_live (fun b => b.settleApply b.lines) running rfl
  constructor
  · intro armed session point
    rw [Bar.settleApply_due (due.mpr ⟨armed, session, point⟩)] at answers
    refine ⟨_, answers, ?_⟩
    rw [b.goLive_par n]
    exact ⟨rfl, rfl, rfl, rfl, rfl, rfl⟩
  · intro early
    rwa [Bar.settleApply_of_not_due] at answers
    intro isDue
    obtain ⟨armed, session, point⟩ := due.mp isDue
    obtain notArmed | noSession | before := early
    · exact notArmed armed
    · cases noSession.symm.trans session
    · exact before point

/-! ### Transactions of the mailbox (R333 to R338, R497) -/

theorem Bar.alive_of_serves {b : Bar} {index : Nat} (h : b.serves index = true) : b.alive = true := by
  simp only [serves, Bool.and_eq_true] at h
  exact h.1.1.1

/-- A whole transaction of the mailbox is taken up at once where the server serves its object. -/
theorem Bar.sdoFrame_of_serves {b : Bar} {op : SdoOp} {index sub : Nat} {v : List Byte} (t : Nat) (h : b.serves index = true) :
    (b.at t).sdoFrame (.request (mailRequest op index sub v)) = (b.mailAt t).sdoRun (mailRequest op index sub v) := by
  simp only [serves, Bool.and_eq_true, decide_eq_true_eq] at h
  obtain ⟨⟨⟨-, al⟩, free⟩, -⟩ := h
  have arrives : (b.mailAt t).sdoArrive (mailRequest op index sub v) = (b.mailAt t).sdoRun (mailRequest op index sub v) :=
    (if_neg (by simp [mailAt, al])).trans (if_neg free)
  exact (if_neg al).trans arrives

theorem State.mailSdo_alive {s : State} (t : Nat) (op : SdoOp) (index sub : Nat) (v : List Byte) (running : s.bar.alive = true) :
    s.mailSdo t op index sub v =
      .next { s with bar := ((s.bar.at t).sdoFrame (.request (mailRequest op index sub v))).after } := s.live_alive t _ running

theorem Answers.of_mailSdo {s : State} {c : Instr} {t index sub : Nat} {op : SdoOp} {v : List Byte}
    (h : s.bar.serves index = true) (runs : exec c s = s.mailSdo t op index sub v) :
    Answers s c ((s.bar.mailAt t).sdoRun (mailRequest op index sub v)) := by
  rw [← Bar.sdoFrame_of_serves t h]
  exact .of_live (·.sdoFrame (.request (mailRequest op index sub v))) (Bar.alive_of_serves h) runs

/-- A write of the mailbox that is accepted is answered without a code. -/
theorem Bar.finish_accept (b : Bar) (index sub : Nat) (v : List Byte) :
    Bar.finish (mailRequest .download index sub v) b.accept = b.responds index sub 0 [] := rfl

/-- A write of the mailbox that is refused is answered with its codes, which are held and logged (R338). -/
theorem Bar.finish_refuse (b : Bar) (index sub detail : Nat) {abort : Nat} (v : List Byte) (h : abort ≠ 0) :
    Bar.finish (mailRequest .download index sub v) (b.refuse abort detail) = b.aborts index sub abort detail := by
  refine (if_neg h).trans ?_
  simp [sendAnswer, snapshotLine, mailRequest, aborts, responds, modChannel, refuse]

theorem Bar.locate_of_entry {b : Bar} {index sub : Nat} {e : Entry} (there : b.indexExists index = true)
    (h : b.entry? index sub = some e) : b.locate index sub = .inr (some e) := by
  simp only [locate, there, h]
  rfl

theorem Bar.entry?_command (b : Bar) : b.entry? 0x2010 1 = some (ent 0x2010 1 .u8 .wo 0 1 2) := by
  rfl
theorem Bar.entry?_store (b : Bar) : b.entry? 0x1010 1 = some (ent 0x1010 1 .u32 .rw 1) := rfl

theorem Bar.entry?_restore (b : Bar) : b.entry? 0x1011 1 = some (ent 0x1011 1 .u32 .rw 1) := rfl

/-- A write that passes the checks has its effect. -/
theorem Bar.sdoRun_download {b : Bar} {index sub : Nat} {v : List Byte} {e : Entry} {d : Done}
    (other : isArm (mailRequest .download index sub v) = false) (there : b.indexExists index = true)
    (entry : b.entry? index sub = some e) (writable : e.acc ≠ .ro) (taken : b.writeDenied .mailbox e index sub v = none)
    (effect : b.command (mailRequest .download index sub v) index sub (leNat v) v = some d) :
    b.sdoRun (mailRequest .download index sub v) = Bar.finish (mailRequest .download index sub v) d := by
  have run : b.sdoDo (mailRequest .download index sub v) = d := by
    simp only [mailRequest] at effect
    simp only [sdoDo, mailRequest, locate_of_entry there entry, if_neg writable, taken, writeEntry, effect]
  simp only [sdoRun]
  rw [if_neg (by simp [mailRequest]), if_neg (by simp [other]), run]

/-- The command ARM passes the checks of a write to 0x2010:01. -/
theorem Bar.sdoRun_arm {b : Bar} (there : b.indexExists 0x2010 = true) :
    b.sdoRun (mailRequest .download 0x2010 1 (leBytes 1 1)) = b.armBegin (mailRequest .download 0x2010 1 (leBytes 1 1)) := by
  have taken : b.armTaken (mailRequest .download 0x2010 1 (leBytes 1 1)) = true := by
    simp only [armTaken, mailRequest, locate_of_entry there b.entry?_command]
    rfl
  exact (if_neg (by simp [mailRequest])).trans (if_pos (Bool.and_eq_true_iff.mpr ⟨rfl, taken⟩))

/-- The command DISARM does. -/
theorem Bar.sdoRun_disarm {b : Bar} (there : b.indexExists 0x2010 = true) :
    b.sdoRun (mailRequest .download 0x2010 1 (leBytes 1 2)) = Bar.finish (mailRequest .download 0x2010 1 (leBytes 1 2)) b.disarm :=
  sdoRun_download rfl there b.entry?_command (by decide) rfl rfl

theorem Bar.sdoRun_store {b : Bar} (there : b.indexExists 0x1010 = true) :
    b.sdoRun (mailRequest .download 0x1010 1 (leBytes 4 0x65766173)) = b.storeParams.responds 0x1010 1 0 [] :=
  sdoRun_download rfl there b.entry?_store (by decide) rfl rfl

theorem Bar.sdoRun_restore {b : Bar} (there : b.indexExists 0x1011 = true) :
    b.sdoRun (mailRequest .download 0x1011 1 (leBytes 4 0x64616F6C)) =
      ({ b with persist := { b.persist with restoreMark := true } } : Bar).responds 0x1011 1 0 [] :=
  sdoRun_download rfl there b.entry?_restore (by decide) rfl rfl

@[simp] theorem Bar.aborts_par (b : Bar) (index sub abort detail : Nat) : (b.aborts index sub abort detail).par = b.par := rfl

/-! ### ARM (R36, R42) -/

theorem Bar.armBegin_armed {b : Bar} (h : b.par.armedState = .armed) :
    b.armBegin (mailRequest .download 0x2010 1 (leBytes 1 1)) =
      ({ b with par := { b.par with refused := 0 } } : Bar).aborts 0x2010 1 0x08000022 0x0101 :=
  (if_pos h).trans (finish_refuse _ _ _ _ _ (by decide))

/-- The codes of a failing check: PACING_LANE_UNDEFINED, or VALIDATION_FAILED (Table 1-8). -/
theorem validationAbort_cases (codes : List Nat) :
    validationAbort codes = (0x06090030, 0x0108) ∨ validationAbort codes = (0x08000020, 0x0104) := by
  unfold validationAbort
  split
  · exact .inl rfl
  · exact .inr rfl

/-- A set that fails a check is refused, and the object is named; the copies stay as they are. -/
theorem Bar.armBegin_failing {b : Bar} {key : Nat} {codes : List Nat} (empty : b.par.armedState = .empty)
    (failing : firstFailing b.checks = some (key, codes)) :
    ∃ (c : Bar) (abort detail : Nat), b.armBegin (mailRequest .download 0x2010 1 (leBytes 1 1)) = c.aborts 0x2010 1 abort detail ∧
      abort ≠ 0 ∧ (detail = 0x0104 ∨ detail = 0x0108) ∧ c.par = { b.par with refused := key * 256 } := by
  let logged : Bar := (if codes.head? = some 0x0108 then codes.drop 1 else codes).foldl (fun b c => b.logEvent c (key * 256))
    (b.modPar fun p => { p with refused := key * 256 })
  have runs : b.armBegin (mailRequest .download 0x2010 1 (leBytes 1 1)) = Bar.finish (mailRequest .download 0x2010 1 (leBytes 1 1))
      (logged.refuse (validationAbort codes).1 (validationAbort codes).2) := by
    simp only [armBegin, empty, reduceCtorEq, if_false, failing]
    rfl
  have kept : logged.par = { b.par with refused := key * 256 } := foldl_par (fun b c => b.logEvent c (key * 256)) (fun _ _ => rfl) _ _
  obtain codes | codes := validationAbort_cases codes <;> rw [codes] at runs
  · exact ⟨logged, _, _, runs.trans (finish_refuse _ _ _ _ _ (by decide)), by decide, .inr rfl, kept⟩
  · exact ⟨logged, _, _, runs.trans (finish_refuse _ _ _ _ _ (by decide)), by decide, .inl rfl, kept⟩

@[simp] theorem Bar.recordAdmission_par (b : Bar) (a : Admission) : (b.recordAdmission a).par = b.par := by
  simp only [recordAdmission, par_ite, logEvent_par, ite_self]

/-- An admission that fits logs nothing. -/
theorem Bar.recordAdmission_sm1 {b : Bar} {a : Admission} (h : a.failing = 0) : (b.recordAdmission a).sm1 = b.sm1 := by
  simp [recordAdmission, h]

/-- A set that passes every check and does not fit is refused (R36 step 2). -/
theorem Bar.armBegin_not_admitted {b : Bar} (empty : b.par.armedState = .empty) (passing : firstFailing b.checks = none)
    (refused : (b.admission b.par.staged).failing ≠ 0) :
    b.armBegin (mailRequest .download 0x2010 1 (leBytes 1 1)) =
      ((b.recordAdmission (b.admission b.par.staged)).modPar fun p => { p with refused := 0 }).aborts 0x2010 1 0x08000020 0x0105 := by
  simp only [armBegin, empty, reduceCtorEq, if_false, passing, if_pos refused]
  exact finish_refuse _ _ _ _ _ (by decide)

/-- A set that passes every check and fits is validating until COPY_TO_ARMED, and the ARM waits for its answer. -/
theorem Bar.armBegin_admitted {b : Bar} (r : SdoRequest) (empty : b.par.armedState = .empty) (passing : firstFailing b.checks = none)
    (fits : (b.admission b.par.staged).failing = 0) :
    b.armBegin r = (b.recordAdmission (b.admission b.par.staged)).modPar fun p =>
      { p with armedState := .validating, armRequest := some r } := by
  simp only [armBegin, empty, reduceCtorEq, if_false, passing, if_neg (fun refused : (b.admission b.par.staged).failing ≠ 0 => refused fits)]

/-! ### DISARM (R41) -/

theorem Bar.disarm_of_empty {b : Bar} (h : b.par.armedState = .empty) : b.disarm = b.refuse 0x08000022 0x0106 :=
  if_neg (by simp [h])

/-- The armed copy is emptied. -/
def Bar.disarmed (b : Bar) : Bar := { b with par := { b.par with armed := [], armedState := .empty, armedGen := 0 } }

/-- Before its apply point an armed set is dropped. -/
theorem Bar.disarm_early {b : Bar} (armed : b.par.armedState = .armed) (early : b.applyDue b.lines = false) :
    b.disarm = b.disarmed.accept := by
  simp [disarm, armed, early, disarmed]

/-- Where the set is due, its line may come first: a free value (log entry 14). -/
theorem Bar.disarm_due {b : Bar} (armed : b.par.armedState = .armed) (due : b.applyDue b.lines = true) :
    b.disarm = (b.draw 2).2.disarmed.accept ∨ b.disarm = ((b.draw 2).2.goLive b.lines).refuse 0x08000022 0x0107 := by
  have stillArmed : (b.draw 2).2.par.armedState = .armed := armed
  have stillDue : (b.draw 2).2.applyDue b.lines = true := due
  have gone : ((b.draw 2).2.goLive b.lines).par.armedState ≠ .armed := by simp [goLive_par]
  simp only [disarm, if_pos armed, if_pos due]
  by_cases lineFirst : (b.draw 2).1 = 1
  · refine .inr ?_
    simp only [lineFirst, if_true]
    rw [show (b.draw 2).2.lines = b.lines from rfl, settleApply_due stillDue, if_neg gone]
  · refine .inl ?_
    simp only [if_neg lineFirst, if_pos stillArmed]
    rfl

/-! ### The apply-line command (R40, R346) -/

/-- The code that refuses the sampled apply-line command (R38; 0x0106 by log entry 15). -/
def Bar.applyLineDenied (b : Bar) : Option Nat :=
  if b.par.armedState = .armed && b.par.armedMode = 1 then applyBounds b.ecat.sampleLine (b.ecat.rxField 5) else some 0x0106

/-- The command has been served: it is echoed at the next latch, and its refusal shows. -/
def Bar.applyLineServed (b : Bar) (refused : Bool) : Bar :=
  b.modEcat fun e => { e with applyPend := false, applyEchoNext := bit (e.rxField 0) 1, applyRefusedNext := refused }

theorem Bar.applyLineCommand_idle {b : Bar} (h : b.ecat.applyPend = false) : b.applyLineCommand = b :=
  if_neg (by simp [h])

theorem Bar.applyLineCommand_refused {b : Bar} {code : Nat} (pending : b.ecat.applyPend = true) (h : b.applyLineDenied = some code) :
    b.applyLineCommand = (b.applyLineServed true).logEvent code 0 := by
  rw [applyLineDenied] at h
  simp only [applyLineCommand, pending, if_true, h]
  rfl

theorem Bar.applyLineCommand_moved {b : Bar} (pending : b.ecat.applyPend = true) (h : b.applyLineDenied = none) :
    b.applyLineCommand = (b.applyLineServed false).modPar fun p => { p with armedLine := b.ecat.rxField 5 } := by
  rw [applyLineDenied] at h
  simp only [applyLineCommand, pending, if_true, h]
  rfl

theorem Bar.applyLineDenied_armed {b : Bar} (armed : b.par.armedState = .armed) (mode : b.par.armedMode = 1) :
    b.applyLineDenied = applyBounds b.ecat.sampleLine (b.ecat.rxField 5) := by
  simp [applyLineDenied, armed, mode]

theorem Bar.applyLineDenied_not_armed {b : Bar} (h : ¬(b.par.armedState = .armed ∧ b.par.armedMode = 1)) :
    b.applyLineDenied = some 0x0106 :=
  if_neg (by simpa using h)

theorem applyBounds_within {n line : Nat} (low : n + 64 ≤ line) (high : line ≤ n + 2 ^ 31) : applyBounds n line = none := by
  unfold applyBounds
  rw [if_neg (by omega), if_neg (by omega)]

theorem applyBounds_too_soon {n line : Nat} (h : line < n + 64) : applyBounds n line = some 0x0102 := if_pos h

theorem applyBounds_too_far {n line : Nat} (h : n + 2 ^ 31 < line) : applyBounds n line = some 0x0103 := by
  unfold applyBounds
  rw [if_neg (by omega), if_pos h]

/-! #### The status bits (R346, Table 11-8) -/

/-- Bit i of a mask is set where a listed condition of that bit holds. -/
theorem testBit_maskOf (l : List (Nat × Bool)) (i : Nat) : (maskOf l).testBit i = l.any fun p => p.2 && p.1 == i := by
  have folded (m : Nat) : (l.foldl (fun m p => if p.2 then setBit m p.1 else m) m).testBit i =
      (m.testBit i || l.any fun p => p.2 && p.1 == i) := by
    induction l generalizing m with
    | nil => simp
    | cons p l ih =>
      rw [List.foldl_cons, ih]
      by_cases holds : p.2 <;> simp [holds, setBit, Nat.testBit_two_pow, Bool.or_assoc, Bool.beq_eq_decide_eq]
  rw [maskOf, folded, Nat.zero_testBit, Bool.false_or]

theorem Bar.statusWord_applyEcho (b : Bar) (again : Bool) : (b.statusWord again).testBit 4 = b.ecat.applyEcho := by
  simp [statusWord, testBit_maskOf]

theorem Bar.statusWord_applyRefused (b : Bar) (again : Bool) : (b.statusWord again).testBit 5 = b.ecat.applyRefused := by
  simp [statusWord, testBit_maskOf]

theorem Ecat.takeVack_apply (e : Ecat) : e.takeVack.applyEcho = e.applyEcho ∧ e.takeVack.applyRefused = e.applyRefused := by
  unfold takeVack
  split
  · dsimp only
    split <;> exact ⟨rfl, rfl⟩
  · exact ⟨rfl, rfl⟩

theorem Ecat.present_apply (e : Ecat) : e.present.applyEcho = e.applyEcho ∧ e.present.applyRefused = e.applyRefused := by
  unfold present
  dsimp only
  split <;> exact ⟨rfl, rfl⟩

/-- At a latch the echo and the refusal of the last apply-line command reach the status word. -/
theorem Bar.txLatch_apply {b : Bar} (cyclic : b.cyclic = true) :
    b.txLatch.ecat.applyRefused = b.ecat.applyRefusedNext ∧
    (b.txLatch.ecat.tx.getD 0 0).testBit 5 = b.ecat.applyRefusedNext ∧ b.txLatch.ecat.applyEcho = b.ecat.applyEchoNext ∧
    (b.txLatch.ecat.tx.getD 0 0).testBit 4 = b.ecat.applyEchoNext := by
  unfold txLatch
  rw [if_pos cyclic]
  extract_lets latched again repeated e slots vseq presented tx
  obtain ⟨echoTaken, refusedTaken⟩ := Ecat.takeVack_apply
    { b.ecat with latches := b.ecat.latches + 1, applyEcho := b.ecat.applyEchoNext, applyRefused := b.ecat.applyRefusedNext }
  have kept : repeated.ecat.applyEcho = latched.ecat.applyEcho ∧ repeated.ecat.applyRefused = latched.ecat.applyRefused := by
    unfold repeated
    split <;> exact ⟨rfl, rfl⟩
  obtain ⟨echoShown, refusedShown⟩ := repeated.ecat.present_apply
  have echo : presented.ecat.applyEcho = b.ecat.applyEchoNext := echoShown.trans (kept.1.trans echoTaken)
  have refused : presented.ecat.applyRefused = b.ecat.applyRefusedNext := refusedShown.trans (kept.2.trans refusedTaken)
  exact ⟨refused, (presented.statusWord_applyRefused again).trans refused, echo, (presented.statusWord_applyEcho again).trans echo⟩

/-! ### Stores (R33) -/

/-- Keys rise where the first lies before the second and the rest is in canonical form. -/
theorem Store.wf_cons (k : Nat) (w : Val) (rest : Store) :
    Store.wf ((k, w) :: rest) = true ↔ (∀ e ∈ rest.head?, k < e.1) ∧ rest.wf = true := by
  cases rest with
  | nil => simp [Store.wf]
  | cons e rest => simp [Store.wf]

/-- The first key of a store after a key's value has been set: that key, or the first one before. -/
theorem Store.head?_put (st : Store) (key : Nat) (v : Val) :
    ∀ e ∈ (st.put key v).head?, e.1 = key ∨ ∃ x ∈ st.head?, e.1 = x.1 := by
  cases st with
  | nil => simp [Store.put]
  | cons x rest =>
    unfold Store.put
    split
    · simp
    · split <;> simp

theorem Store.put_wf {st : Store} (key : Nat) (v : Val) (h : st.wf = true) : (st.put key v).wf = true := by
  induction st with
  | nil => rfl
  | cons x rest ih =>
    obtain ⟨k, w⟩ := x
    obtain ⟨first, others⟩ := (Store.wf_cons k w rest).mp h
    unfold Store.put
    split
    next before => exact (Store.wf_cons ..).mpr ⟨by simpa using before, h⟩
    next notBefore =>
      split
      next same => exact (Store.wf_cons ..).mpr ⟨same ▸ first, others⟩
      next after =>
        refine (Store.wf_cons ..).mpr ⟨fun e he => ?_, ih others⟩
        obtain here | ⟨y, hy, there⟩ := Store.head?_put rest key v e he
        · omega
        · exact there ▸ first y hy

theorem Store.foldl_put_wf (entries st : Store) (h : st.wf = true) :
    (entries.foldl (fun st e => st.put e.1 e.2) st).wf = true := by
  induction entries generalizing st with
  | nil => exact h
  | cons e entries ih => exact ih _ (st.put_wf e.1 e.2 h)

/-! ### STORE (R339) -/

/-- From canonical copies a stored image is canonical. -/
theorem Bar.persistedValues_wf {b : Bar} (h : b.par.wf = true) : b.persistedValues.wf = true := by
  simp only [Params.wf, Bool.and_eq_true] at h
  exact Store.foldl_put_wf _ _ h.1.2

/-- A store keeps the state of the parameters and clears the restore mark. -/
theorem Bar.storeParams_mark (b : Bar) : b.storeParams.persist.restoreMark = false ∧
    b.storeParams.persist.state = b.persist.state := by
  unfold storeParams
  dsimp only
  split <;> exact ⟨rfl, rfl⟩

/-- The image that the anchor names stays. -/
theorem Bar.storeParams_keeps (b : Bar) :
    (b.persist.anchor = 0 → b.persist.image0.isSome = true → b.storeParams.persist.image0 = b.persist.image0) ∧
    (b.persist.anchor ≠ 0 → b.storeParams.persist.image1 = b.persist.image1) := by
  unfold storeParams
  dsimp only
  split
  next zero => exact ⟨fun _ _ => rfl, fun other => absurd zero.1 other⟩
  next other => exact ⟨fun anchor image => absurd ⟨anchor, image⟩ other, fun _ => rfl⟩

/-- A store writes one image, with the next age, and the anchor names it. -/
theorem Bar.storeParams_images (b : Bar) :
    let p := b.storeParams.persist
    let image : ParamImage := ⟨b.persistedValues, b.persist.stores + 1, true⟩
    (p.anchor = 0 ∧ p.image0 = some image ∧ p.image1 = b.persist.image1) ∨
    (p.anchor = 1 ∧ p.image1 = some image ∧ p.image0 = b.persist.image0) := by
  unfold storeParams
  dsimp only
  split
  · exact .inr ⟨rfl, rfl, rfl⟩
  · exact .inl ⟨rfl, rfl, rfl⟩

/-! ### The parameter commands -/

theorem Bar.indexExists_of_serves {b : Bar} {index : Nat} (t : Nat) (h : b.serves index = true) :
    (b.mailAt t).indexExists index = true := by
  simp only [serves, Bool.and_eq_true] at h
  exact h.2

/-- ARM over the mailbox, where the server serves it. -/
theorem Answers.of_arm {s : State} (t : Nat) (h : s.bar.serves 0x2010 = true) :
    Answers s (.arm t) ((s.bar.mailAt t).armBegin (mailRequest .download 0x2010 1 (leBytes 1 1))) := by
  rw [← Bar.sdoRun_arm (Bar.indexExists_of_serves t h)]
  exact .of_mailSdo h rfl

/-- DISARM over the mailbox. -/
theorem Answers.of_disarm {s : State} (t : Nat) (h : s.bar.serves 0x2010 = true) :
    Answers s (.disarm t) (Bar.finish (mailRequest .download 0x2010 1 (leBytes 1 2)) (s.bar.mailAt t).disarm) := by
  rw [← Bar.sdoRun_disarm (Bar.indexExists_of_serves t h)]
  exact .of_mailSdo h rfl

/-- Settles O6, command by command: ARM, DISARM, the apply-line command, STORE and RESTORE. -/
theorem parameterCommands : Obligations.ParameterCommands := by
  refine ⟨⟨⟨fun s t serves => ?arm, fun s t serves => ?disarm⟩, fun s t running => ?applyLine⟩,
    fun s t running => ⟨State.mailSdo_alive t .download 0x1010 1 (leBytes 4 0x65766173) running,
      State.mailSdo_alive t .download 0x1011 1 (leBytes 4 0x64616F6C) running⟩, fun s t serves => ?store,
    fun st key v wf => ⟨st.put_wf key v wf, st.find_put_self key v, fun k other => st.find_put_other key k v other⟩,
    fun s t serves => ?restore⟩
  case arm =>
    intro b
    have answers : Answers s (.arm t) (b.armBegin (mailRequest .download 0x2010 1 (leBytes 1 1))) := .of_arm t serves
    refine ⟨fun armed => ?_, fun empty key codes failing => ?_, fun empty passing refused => ?_, fun empty passing admitted => ?_⟩
    · rwa [Bar.armBegin_armed armed] at answers
    · obtain ⟨c, abort, detail, runs, aborted, code, copies⟩ := Bar.armBegin_failing empty failing
      rw [runs] at answers
      exact ⟨_, abort, detail, answers, aborted, copies, rfl, rfl, rfl, code⟩
    · rw [Bar.armBegin_not_admitted empty passing refused] at answers
      exact ⟨_, answers, by rw [Bar.aborts_par, Bar.modPar_par, Bar.recordAdmission_par], rfl, rfl, rfl⟩
    · rw [Bar.armBegin_admitted _ empty passing admitted] at answers
      exact ⟨_, answers, by rw [Bar.modPar_par, Bar.recordAdmission_par], by rw [Bar.modPar_sm1, Bar.recordAdmission_sm1 admitted]⟩
  case disarm =>
    intro b
    have answers : Answers s (.disarm t) (Bar.finish (mailRequest .download 0x2010 1 (leBytes 1 2)) b.disarm) := .of_disarm t serves
    refine ⟨fun armed early => ?_, fun armed due => ?_, fun empty => ?_⟩
    · rwa [Bar.disarm_early armed early, Bar.finish_accept] at answers
    · obtain dropped | lineFirst := Bar.disarm_due armed due
      · rw [dropped, Bar.finish_accept] at answers
        exact ⟨_, rfl, .inl ⟨answers, rfl⟩⟩
      · rw [lineFirst, Bar.finish_refuse _ _ _ _ _ (by decide)] at answers
        have copies := (b.draw 2).2.goLive_par b.lines
        exact ⟨_, congrArg Params.armedState copies, .inr ⟨answers, congrArg Params.live copies⟩⟩
    · rwa [Bar.disarm_of_empty empty, Bar.finish_refuse _ _ _ _ _ (by decide)] at answers
  case applyLine =>
    intro b line n served armed
    have answers : Answers s (.applyLineCommand t) b.applyLineCommand := .of_live (·.applyLineCommand) running rfl
    refine ⟨fun pending ⟨armed, mode⟩ low high => ?_, fun pending ⟨armed, mode⟩ low => ?_, fun pending ⟨armed, mode⟩ high => ?_,
      fun pending notArmed => ?_, fun idle => ?_, fun c cyclic => Bar.txLatch_apply ?_⟩
    · rwa [Bar.applyLineCommand_moved pending ((Bar.applyLineDenied_armed armed mode).trans (applyBounds_within low high))] at answers
    · rwa [Bar.applyLineCommand_refused pending ((Bar.applyLineDenied_armed armed mode).trans (applyBounds_too_soon low))] at answers
    · rwa [Bar.applyLineCommand_refused pending ((Bar.applyLineDenied_armed armed mode).trans (applyBounds_too_far high))] at answers
    · rwa [Bar.applyLineCommand_refused pending (Bar.applyLineDenied_not_armed notArmed)] at answers
    · rwa [Bar.applyLineCommand_idle idle] at answers
    · simpa [Bar.cyclic] using cyclic
  case store =>
    let b := s.bar.mailAt t
    have answers : Answers s (.store t) (b.storeParams.responds 0x1010 1 0 []) := by
      rw [← Bar.sdoRun_store (Bar.indexExists_of_serves t serves)]
      exact .of_mailSdo serves rfl
    obtain ⟨mark, state⟩ := b.storeParams_mark
    obtain ⟨keeps0, keeps1⟩ := b.storeParams_keeps
    exact ⟨b.storeParams.persist, answers, mark, state, b.storeParams_images, keeps0, keeps1, Bar.persistedValues_wf⟩
  case restore =>
    have answers : Answers s (.restore t) _ := .of_mailSdo serves rfl
    rwa [Bar.sdoRun_restore (Bar.indexExists_of_serves t serves)] at answers

/-! ### COPY_TO_ARMED of an ARM that nobody waits for (R331) -/

/-- An ARM over the mailbox whose transfer has been aborted: it is not answered when its validation ends (R331). -/
def lostArm : SdoRequest := { mailRequest .download 0x2010 1 (leBytes 1 1) with lost := true }

/-- A session in which the validation of such an ARM, in BLOCK mode, ends. -/
def lostArmEnds : State :=
  { State.reset with bar := { Bar.reset with
      saf := { Safety.reset with power := .running }, ecat := { Ecat.reset with al := .op, session := true }
      par := { Params.reset with armedState := .validating, armRequest := some lostArm } } }

/-- The messages that wait in SM1 after an outcome. -/
def messagesAfter : Host.Outcome State Fault Refusal → List MailItem
  | .next s => s.bar.sm1
  | _ => []

/-- The set is armed, and SM1 stays empty. -/
theorem messagesAfter_lostArm : messagesAfter (exec (.copyToArmed 5) lostArmEnds) = [] := by decide +kernel

/-- Refutes O7: its premises leave open whether the ARM's transfer has been aborted. Where it has, the set is armed as the statement
says, and no response goes to SM1, where the statement has one. (The model marks an ARM so only as the slave goes to INIT, which ends
the session: the premises allow more states than that.) -/
theorem not_copyToArmedTakesTheSet : ¬ Obligations.CopyToArmedTakesTheSet := by
  intro h
  obtain ⟨-, -, inBounds, -⟩ := h lostArmEnds 5 lostArm rfl rfl rfl rfl rfl rfl rfl rfl
  have answered := inBounds rfl (fun line => absurd line (by decide +kernel))
  have empty : messagesAfter (.next _) = [] := answered ▸ messagesAfter_lostArm
  exact absurd empty (by decide +kernel)

end Sys2Proof.Machine
end

section
/-! Line timing (chapter 3, with R64 and R71 of chapter 2): the events of the timebase, its discipline, the encoders and the trigger
synthesiser are answered. -/

namespace Sys2Proof.Machine

/-- Settles O33: the running bar acts on each event of the discipline, the PLL, the encoders and the synthesiser, in this order. -/
theorem timingCommandsAnswer : Obligations.TimingCommandsAnswer := by
  intro s t b running
  exact ⟨fun src offset => .of_live (·.syncMessage src offset) running rfl,
    fun p domain rank interval => .of_live (·.announceReceived p domain rank interval) running rfl,
    fun p => .of_live (·.announceTimeout p) running rfl,
    .of_live (·.discHold) running rfl,
    fun te => .of_live (·.syncInEdge te) running rfl,
    .of_live (·.tbUnlock) running rfl,
    .of_live (·.tbLimit) running rfl,
    .of_live (·.tbRelock) running rfl,
    .of_live (·.refclkLost) running rfl,
    .of_live (·.refclkReturn) running rfl,
    fun e dir held => .of_live (·.encoderCount e dir held) running rfl,
    fun e w => .of_live (·.encWire e w) running rfl,
    fun edge => .of_live (·.zEdge edge.enc edge.held) running rfl,
    .of_live (·.zeroSpeed) running rfl,
    .of_live (·.overspeedClear) running rfl,
    .of_live (·.syncLost) running rfl,
    fun r => .of_live (·.triggerRequest r) running rfl,
    .of_live (·.crawlTimeout) running rfl⟩

end Sys2Proof.Machine
end

section
/-! The timebase leaves the PLL (R83, R85): what it does to the offset that the servo owes. -/

namespace Sys2Proof.Machine

/-- A running bar in OP that follows SYNC0 and has measured an offset of 5 ns against it. -/
def disciplined : State :=
  { State.reset with bar := ({ Bar.reset with
      saf := { Safety.reset with power := .running }, ecat := { Ecat.reset with al := .op }
      cap := { Capture.reset with tb := { Timebase.reset with sync0 := true } } } : Bar).syncMessage 0xFE 5 }

/-- The offset that the servo owes after an outcome. -/
def owedAfter : Host.Outcome State Fault Refusal → Option Int
  | .next s => s.bar.cap.tb.owed
  | _ => none

/-- The lock loss leaves the measured offset owed. -/
theorem owedAfter_tbUnlock : owedAfter (exec (.tbUnlock 1000) disciplined) = some 5 := by decide +kernel

/-- Refutes O34: a lock loss also notes the offset that the timebase was disciplined at, so that the servo can slew back to it after
the relock (R85, log entry 37), where none is owed already and a reference has been measured. The bar of the statement moves the
mode, the time of the loss and the count of holdovers alone, and owes nothing. -/
theorem not_timebaseLockIsLostAndRegained : ¬ Obligations.TimebaseLockIsLostAndRegained := by
  intro h
  obtain ⟨lockLost, -⟩ := h disciplined 1000 rfl
  have answered := lockLost (by decide +kernel)
  have owesNothing : owedAfter (.next _) = some 5 := answered ▸ owedAfter_tbUnlock
  exact absurd owesNothing (by decide +kernel)

end Sys2Proof.Machine
end

section
/-! Encoder counts (R84, R87, R88, R391): the filter, the position counters, and what a count leaves alone. -/

namespace Sys2Proof.Machine

/-! ### What the synthesiser can touch -/

/-- From b to c nothing changes but the capture, the ladder's lines, the log and the Emergencies that wait in SM1. -/
def Bar.TimingOnly (b c : Bar) : Prop :=
  ∃ cap nz log sm1, c = { b with cap := cap, nz := nz, log := log, sm1 := sm1 }

section
variable {b c d : Bar}

theorem Bar.TimingOnly.refl (b : Bar) : b.TimingOnly b := ⟨_, _, _, _, rfl⟩

theorem Bar.TimingOnly.trans (first : b.TimingOnly c) (second : c.TimingOnly d) : b.TimingOnly d := by
  obtain ⟨_, _, _, _, rfl⟩ := first
  obtain ⟨_, _, _, _, rfl⟩ := second
  exact ⟨_, _, _, _, rfl⟩

theorem Bar.TimingOnly.ite {p : Prop} [Decidable p] (yes : b.TimingOnly c) (no : b.TimingOnly d) :
    b.TimingOnly (if p then c else d) := by
  split
  · exact yes
  · exact no

theorem Bar.modCap_timingOnly (b : Bar) (f : Capture → Capture) : b.TimingOnly (b.modCap f) := ⟨_, _, _, _, rfl⟩

theorem Bar.modSyn_timingOnly (b : Bar) (f : Synth → Synth) : b.TimingOnly (b.modSyn f) := ⟨_, _, _, _, rfl⟩

theorem Bar.modEnc_timingOnly (b : Bar) (e : Fin 2) (f : Encoder → Encoder) : b.TimingOnly (b.modEnc e f) := ⟨_, _, _, _, rfl⟩

theorem Bar.logEvent_timingOnly (b : Bar) (code arg : Nat) : b.TimingOnly (b.logEvent code arg) := ⟨_, _, _, _, rfl⟩

theorem Bar.resolveLines_timingOnly (b : Bar) : b.TimingOnly b.resolveLines := ⟨_, _, _, _, rfl⟩

theorem Bar.loseEpisode_timingOnly (b : Bar) : b.TimingOnly b.loseEpisode := ⟨_, _, _, _, rfl⟩

end

theorem Bar.loseLock_timingOnly (b : Bar) : b.TimingOnly b.loseLock := by
  unfold loseLock
  exact (b.modSyn_timingOnly _).trans (.ite ((modSyn_timingOnly _ _).trans (logEvent_timingOnly _ _ _)) (.refl _))

theorem Bar.enterOverspeed_timingOnly (b : Bar) : b.TimingOnly b.enterOverspeed := by
  unfold enterOverspeed
  exact .ite (b.modSyn_timingOnly _)
    (b.loseEpisode_timingOnly.trans ((modSyn_timingOnly _ _).trans (modCap_timingOnly _ _)))

/-- Where no cue edge waits for the anchor, none is processed with it. -/
theorem Bar.anchorCues_timingOnly {b : Bar} (h : ∀ q ∈ b.cap.cues, q.handed = false) : b.TimingOnly b.anchorCues := by
  have handed : b.cap.cues.filter (·.handed) = [] := List.filter_eq_nil_iff.mpr fun q hq => by simp [h q hq]
  have rest : b.cap.cues.filter (not ∘ (·.handed)) = b.cap.cues := List.filter_eq_self.mpr fun q hq => by simp [h q hq]
  simp only [anchorCues, List.partition_eq_filter_filter, handed, rest]
  exact b.modCap_timingOnly _

/-- A count that the synthesiser takes moves no position, and no part of the bar beyond line timing. -/
theorem Bar.synthCount_timingOnly {b : Bar} (ts : Nat) (before : Int)
    (free : b.cap.syn.base = none → ∀ q ∈ b.cap.cues, q.handed = false) : b.TimingOnly (b.synthCount ts before) := by
  unfold synthCount
  extract_lets pos _ anchored running back raise turned beyond reached noted _ _ requested e judged
  have anchors : b.TimingOnly anchored := by
    unfold anchored
    split
    next => exact .refl b
    next unanchored =>
      exact (b.modSyn_timingOnly _).trans <| (resolveLines_timingOnly _).trans <| anchorCues_timingOnly (free unanchored)
  have starts : anchored.TimingOnly running := .ite (modSyn_timingOnly _ _) (.refl _)
  have turns : running.TimingOnly turned := modEnc_timingOnly _ _ _
  have reaches : turned.TimingOnly reached := modSyn_timingOnly _ _
  have notes : reached.TimingOnly noted := .ite (logEvent_timingOnly _ _ _) (.refl _)
  have requests : noted.TimingOnly requested := .ite (modSyn_timingOnly _ _) (.refl _)
  have judges : requested.TimingOnly judged := modSyn_timingOnly _ _
  exact anchors.trans <| starts.trans <| turns.trans <| reaches.trans <| notes.trans <| requests.trans <| judges.trans <|
    .ite (loseLock_timingOnly _) (.refl _)

/-! ### What the WAITs of the channels can touch -/

/-- From b to c nothing changes but whether the WAITs of channels have been met. -/
def Bar.WaitsOnly (b c : Bar) : Prop :=
  (∃ chans, c = { b with io := { b.io with chans := chans } }) ∧ ∀ k, ∃ x, c.chan k = { b.chan k with busy := x }

theorem Bar.WaitsOnly.refl (b : Bar) : b.WaitsOnly b := ⟨⟨_, rfl⟩, fun _ => ⟨_, rfl⟩⟩

theorem Bar.WaitsOnly.trans {b c d : Bar} (first : b.WaitsOnly c) (second : c.WaitsOnly d) : b.WaitsOnly d := by
  obtain ⟨⟨_, rfl⟩, met⟩ := first
  obtain ⟨⟨_, rfl⟩, met'⟩ := second
  refine ⟨⟨_, rfl⟩, fun k => ?_⟩
  obtain ⟨x, hx⟩ := met k
  obtain ⟨y, hy⟩ := met' k
  exact ⟨y, by rw [hy, hx]⟩

theorem Bar.WaitsOnly.cap_eq {b c : Bar} (h : b.WaitsOnly c) : c.cap = b.cap := by
  obtain ⟨⟨_, rfl⟩, -⟩ := h
  rfl

theorem Bar.WaitsOnly.feeding_eq {b c : Bar} (h : b.WaitsOnly c) : c.feeding = b.feeding := by
  obtain ⟨⟨_, rfl⟩, -⟩ := h
  rfl

theorem vmod_same {α : Type} {n : Nat} (v : Vector α n) (i : Fin n) (f : α → α) : (vmod v i f)[i] = f v[i] :=
  Vector.getElem_set_self i.isLt

theorem vmod_other {α : Type} {n : Nat} (v : Vector α n) {i j : Fin n} (f : α → α) (h : j ≠ i) : (vmod v i f)[j] = v[j] :=
  Vector.getElem_set_ne i.isLt j.isLt fun same => h (Fin.ext same.symm)

theorem Bar.modChan_busy_waitsOnly (b : Bar) (k : Fin 64) (x : ChBusy) :
    b.WaitsOnly (b.modChan k fun c => { c with busy := x }) := by
  refine ⟨⟨_, rfl⟩, fun j => ?_⟩
  by_cases h : j = k
  · exact ⟨x, h ▸ vmod_same ..⟩
  · exact ⟨_, vmod_other _ _ h⟩

theorem Bar.noteWait_waitsOnly (b : Bar) (ev : StepEvent) (k : Fin 64) : b.WaitsOnly (b.noteWait ev k) := by
  unfold noteWait
  split
  · split
    · split
      · exact b.modChan_busy_waitsOnly k _
      · exact .refl b
    · exact .refl b
  · exact .refl b

theorem Bar.noteWaits_waitsOnly (b : Bar) (ev : StepEvent) : b.WaitsOnly (b.noteWaits ev) :=
  List.foldlRecOn _ _ (.refl b) fun c noted k _ => noted.trans (c.noteWait_waitsOnly ev k)

/-! ### The filter (R84, R87) -/

theorem Bar.accepted_eq (b : Bar) (e : Fin 2) (held : Nat) :
    let filter := if b.cap.tb.mode = .pll then b.rwN (0x2302 + e.val) 2 else (b.rwN (0x2302 + e.val) 2 + 39) / 40 * 40
    let stood := if b.cap.tb.mode = .pll then held else held / 40 * 40
    b.accepted e held = if filter ≤ stood then some (b.now - stood) else none := rfl

/-- The last count of an encoder lies in the same 40 ns sample, off the PLL (R84). -/
def Bar.coincides (b : Bar) (e : Fin 2) (ts : Nat) : Prop :=
  b.cap.tb.mode ≠ .pll ∧ ∃ c, (b.cap.enc[e]).counts.head? = some c ∧ c.1 = ts

theorem Bar.encoderCount_filtered {b : Bar} {e : Fin 2} (dir : CountDir) {held : Nat} (h : b.accepted e held = none) :
    b.encoderCount e dir held = b := by
  simp only [encoderCount, h]

/-- An edge that the filter lets through. -/
theorem Bar.encoderCount_taken {b : Bar} {e : Fin 2} (dir : CountDir) {held ts : Nat} (h : b.accepted e held = some ts) :
    (dir = .both ∨ b.coincides e ts → b.encoderCount e dir held = b.quadError e) ∧
    (¬(dir = .both ∨ b.coincides e ts) → b.encoderCount e dir held = b.acceptCount e dir ts) := by
  unfold coincides
  simp only [encoderCount, h, Bool.or_eq_true, decide_eq_true_eq]
  cases (b.cap.enc[e]).counts with
  | nil => simp +contextual
  | cons last older => simp +contextual

/-! ### A quadrature error (R88) -/

theorem Bar.quadError_timingOnly (b : Bar) (e : Fin 2) : b.TimingOnly (b.quadError e) := by
  unfold quadError
  exact (b.modEnc_timingOnly e _).trans
    (.ite ((logEvent_timingOnly _ _ _).trans (.ite (loseLock_timingOnly _) (.refl _))) (.refl _))

theorem Bar.loseLock_enc (b : Bar) : b.loseLock.cap.enc = b.cap.enc := by
  unfold loseLock
  extract_lets lost
  split <;> rfl

/-- The error is counted; an encoder that does not feed the synthesiser leaves it alone. -/
theorem Bar.quadError_capture (b : Bar) (e : Fin 2) :
    ((b.quadError e).cap.enc[e]).quadErrors = min 0xFFFFFFFF ((b.cap.enc[e]).quadErrors + 1) ∧
    (e ≠ b.feeding → (b.quadError e).cap.syn = b.cap.syn ∧ (b.quadError e).cap.items = b.cap.items) := by
  unfold quadError
  extract_lets times raised counted logged
  have one : (counted.cap.enc[e]).quadErrors = min 0xFFFFFFFF ((b.cap.enc[e]).quadErrors + 1) :=
    (congrArg Encoder.quadErrors (vmod_same ..)).trans (sat32_eq_min _)
  split
  · split
    next feeds =>
      have enc : logged.loseLock.cap.enc = counted.cap.enc := logged.loseLock_enc
      exact ⟨by simpa only [enc] using one, fun other => absurd feeds other⟩
    next => exact ⟨one, fun _ => ⟨rfl, rfl⟩⟩
  · exact ⟨one, fun _ => ⟨rfl, rfl⟩⟩

/-! ### A count (R88, R391) -/

/-- The encoder counts up: it has moved forward and is not inverted, or the reverse. -/
def Bar.countsUp (b : Bar) (e : Fin 2) (dir : CountDir) : Prop :=
  (dir = .up ∧ b.rwN (0x2302 + e.val) 3 ≠ 1) ∨ (dir = .down ∧ b.rwN (0x2302 + e.val) 3 = 1)

/-- The bar after a count has moved its position counter, before a WAIT or the synthesiser sees it. -/
def Bar.countMoved (b : Bar) (e : Fin 2) (dir : CountDir) : Bar :=
  { b with io := { b.io with pos := vmod b.io.pos e fun p =>
      if (dir = .up) ≠ (b.rwN (0x2302 + e.val) 3 = 1) then p + 1 else p - 1 } }

theorem Bar.countMoved_up {b : Bar} {e : Fin 2} {dir : CountDir} (h : b.countsUp e dir) :
    (b.countMoved e dir).io.pos[e] = b.io.pos[e] + 1 := by
  refine (vmod_same ..).trans (if_pos ?_)
  obtain ⟨rfl, plain⟩ | ⟨rfl, inverted⟩ := h
  · simp [plain]
  · simp [inverted]

theorem Bar.countMoved_down {b : Bar} {e : Fin 2} {dir : CountDir} (one : dir ≠ .both) (h : ¬b.countsUp e dir) :
    (b.countMoved e dir).io.pos[e] = b.io.pos[e] - 1 := by
  refine (vmod_same ..).trans (if_neg ?_)
  cases dir with
  | up => simpa [countsUp] using h
  | down => simpa [countsUp] using h
  | both => exact absurd rfl one

/-- After the WAITs have seen a count, only line timing takes it; the synthesiser only where the encoder feeds it. -/
theorem Bar.acceptCount_timing {b : Bar} {e : Fin 2} (dir : CountDir) (ts : Nat)
    (free : e = b.feeding → b.cap.syn.base = none → ∀ q ∈ b.cap.cues, q.handed = false) :
    ((b.countMoved e dir).noteWaits .none).TimingOnly (b.acceptCount e dir ts) ∧
    (e ≠ b.feeding → (b.acceptCount e dir ts).cap.syn = b.cap.syn ∧ (b.acceptCount e dir ts).cap.items = b.cap.items) := by
  unfold acceptCount
  extract_lets up before _ moved seen counts fast was feeds takes synth counted logged
  change seen.TimingOnly _ ∧ _
  have waits : moved.WaitsOnly seen := moved.noteWaits_waitsOnly .none
  have feeding : seen.feeding = b.feeding := waits.feeding_eq
  have cap : seen.cap = b.cap := waits.cap_eq
  have counts : synth.TimingOnly counted := modEnc_timingOnly _ _ _
  have logs : counted.TimingOnly logged := .ite (logEvent_timingOnly _ _ _) (.refl _)
  have kept : logged.cap = counted.cap := by
    unfold logged
    split <;> rfl
  by_cases taken : takes = true
  · have feedsIt : e = b.feeding := by
      simp only [takes, feeds, Bool.and_eq_true, decide_eq_true_eq] at taken
      exact taken.1.1.trans feeding
    have synthesises : seen.TimingOnly synth := by
      unfold synth
      rw [if_pos taken]
      exact synthCount_timingOnly ts before (by rw [cap]; exact free feedsIt)
    exact ⟨synthesises.trans <| counts.trans <| logs.trans <| .ite (enterOverspeed_timingOnly _) (.refl _),
      fun other => absurd feedsIt other⟩
  · have passes : synth = seen := if_neg taken
    rw [if_neg (show ¬(takes && fast) = true by simp [taken]), kept]
    rw [passes] at counts
    refine ⟨counts.trans logs, fun _ => ?_⟩
    rw [← cap, ← passes]
    exact ⟨rfl, rfl⟩

/-! ### What a count leaves alone -/

/-- The frame of an encoder's edge: beyond the encoder's own position counter only line timing and the WAITs of channels move, and
the synthesiser and the items only where the encoder feeds them. -/
def Bar.CountFrame (b : Bar) (e : Fin 2) (c : Bar) : Prop :=
  (∀ o : Fin 2, o ≠ e → c.io.pos[o] = b.io.pos[o]) ∧
  c.io.timers = b.io.timers ∧ (∀ k : Fin 64, ∃ x, c.chan k = { b.chan k with busy := x }) ∧ c.io.pins = b.io.pins ∧
  c.io.engines = b.io.engines ∧ c.par = b.par ∧ c.ecat = b.ecat ∧ c.sto = b.sto ∧ c.thm = b.thm ∧ c.lines = b.lines ∧
  (e ≠ b.feeding → c.cap.syn = b.cap.syn ∧ c.cap.items = b.cap.items)

/-- A quadrature error is counted, and no counter moves. -/
theorem Bar.quadError_counts (b : Bar) (e : Fin 2) :
    (b.quadError e).io.pos = b.io.pos ∧
    ((b.quadError e).cap.enc[e]).quadErrors = min 0xFFFFFFFF ((b.cap.enc[e]).quadErrors + 1) ∧ b.CountFrame e (b.quadError e) := by
  obtain ⟨counted, synth⟩ := b.quadError_capture e
  obtain ⟨cap, nz, log, sm1, h⟩ := b.quadError_timingOnly e
  rw [h] at counted synth ⊢
  exact ⟨rfl, counted, fun _ _ => rfl, rfl, fun _ => ⟨_, rfl⟩, rfl, rfl, rfl, rfl, rfl, rfl, rfl, synth⟩

/-- A count leaves its encoder's counter where the move has put it. -/
theorem Bar.acceptCount_counts {b : Bar} {e : Fin 2} (dir : CountDir) (ts : Nat)
    (free : e = b.feeding → b.cap.syn.base = none → ∀ q ∈ b.cap.cues, q.handed = false) :
    (b.acceptCount e dir ts).io.pos = (b.countMoved e dir).io.pos ∧ b.CountFrame e (b.acceptCount e dir ts) := by
  obtain ⟨⟨chans, seen⟩, met⟩ := (b.countMoved e dir).noteWaits_waitsOnly .none
  obtain ⟨⟨cap, nz, log, sm1, h⟩, synth⟩ := acceptCount_timing dir ts free
  rw [seen] at h met
  rw [h] at synth ⊢
  exact ⟨rfl, fun o other => vmod_other _ _ other, rfl, met, rfl, rfl, rfl, rfl, rfl, rfl, rfl, synth⟩

/-- Settles O35: the filter, then the two things an accepted edge can be, a quadrature error or a count. -/
theorem encoderCountsMoveOnePosition : Obligations.EncoderCountsMoveOnePosition := by
  intro s t e dir held running b pll f filter stood both up
  have answers : Answers s (.encoderCount t e dir held) (b.encoderCount e dir held) := .of_live (·.encoderCount e dir held) running rfl
  refine ⟨fun early => ?_, fun stable free => ⟨_, answers, ?_⟩⟩
  · rwa [Bar.encoderCount_filtered dir ((b.accepted_eq e held).trans (if_neg (Nat.not_le.mpr early)))] at answers
  · obtain ⟨error, count⟩ := Bar.encoderCount_taken dir ((b.accepted_eq e held).trans (if_pos stable))
    by_cases h : both
    · obtain ⟨pos, counted, frame⟩ := b.quadError_counts e
      rw [error h]
      exact ⟨absurd h, absurd h, fun _ => ⟨by rw [pos], counted⟩, frame⟩
    · obtain ⟨pos, frame⟩ := Bar.acceptCount_counts dir (b.now - stood) free
      rw [count h]
      exact ⟨fun _ up => by rw [pos, Bar.countMoved_up up], fun _ down => by rw [pos, Bar.countMoved_down (h ∘ .inl) down],
        (absurd · h), frame⟩

end Sys2Proof.Machine
end

section
/-! Contexts and exposure (chapter 4), with the verdicts (R195), the routed channel events (R370) and the bank holds (R365): the events
of the capture are answered. -/

namespace Sys2Proof.Machine

/-- Settles O36: the running bar acts on each event of the lanes, the frames, the verdicts, the channels and the banks, in this
order. -/
theorem captureCommandsAnswer : Obligations.CaptureCommandsAnswer := by
  intro s t b running
  exact ⟨fun lane te => .of_live (·.cueTaken lane te) running rfl,
    fun lane => .of_live (·.stuckCue lane) running rfl,
    .of_live (·.closeFrames) running rfl,
    fun lane number => .of_live (·.verdictPublish lane.val number) running rfl,
    fun lane number => .of_live (·.verdictLate lane.val number) running rfl,
    fun k => .of_live (·.eventRouted k) running rfl,
    fun bank => .of_live (·.bankHoldEnd bank) running rfl⟩

end Sys2Proof.Machine
end

section
/-! Files over FoE (R349 to R351): the firmware (R464), the calibration (R144), the nozzle map (R203), the media profile (R260), the
job container, the two logs, the identity certificate (R475) and the quote (R473). Their requests are answered. -/

namespace Sys2Proof.Machine

/-- Settles O47: the running bar acts on each write, packet and read of Table 11-12, and on a request for another name, in this
order. -/
theorem filesAreAnswered : Obligations.FilesAreAnswered := by
  intro s t b running
  exact ⟨fun step => .of_live (·.foeWrite .firmware step) running rfl,
    fun step => .of_live (·.foeWrite .calibration step) running rfl,
    fun step => .of_live (·.foeWrite .nozzleMap step) running rfl,
    fun step => .of_live (·.foeWrite .mediaProfile step) running rfl,
    .of_live (·.foeJob) running rfl,
    fun packet bytes => .of_live (·.foePacket packet bytes) running rfl,
    .of_live (·.foeEventlog) running rfl,
    .of_live (·.foeBundle) running rfl,
    .of_live (·.foeIdentity) running rfl,
    .of_live (·.foeQuote) running rfl,
    fun file => .of_live (·.foeUnknown file) running rfl⟩

end Sys2Proof.Machine
end

section
/-! Inspection (chapter 6): the order in which a verdict is formed (R193). -/

namespace Sys2Proof.Machine

/-! ### Masks of bits -/

theorem sum_b2n_lt (p : Nat → Bool) (n : Nat) : ((List.range n).map fun c => b2n (p c) * 2 ^ c).sum < 2 ^ n := by
  induction n with
  | zero => simp
  | succ n ih =>
    have one : b2n (p n) * 2 ^ n ≤ 1 * 2 ^ n := Nat.mul_le_mul_right _ (by unfold b2n; split <;> omega)
    simp only [List.range_succ, List.map_append, List.sum_append, List.map_cons, List.map_nil, List.sum_cons, List.sum_nil]
    omega

theorem testBit_sum_b2n (p : Nat → Bool) {n c : Nat} (h : c < n) :
    (((List.range n).map fun c => b2n (p c) * 2 ^ c).sum).testBit c = p c := by
  induction n with
  | zero => omega
  | succ n ih =>
    have top : (b2n (p n)).testBit 0 = p n := by cases p n <;> rfl
    simp only [List.range_succ, List.map_append, List.sum_append, List.map_cons, List.map_nil, List.sum_cons, List.sum_nil]
    rw [Nat.add_zero, Nat.add_comm, Nat.mul_comm, Nat.testBit_two_pow_mul_add _ (sum_b2n_lt p n)]
    split
    next below => exact ih below
    next last =>
      obtain rfl : c = n := by omega
      rw [Nat.sub_self, top]

theorem exists_testBit_iff_mod_ne_zero (x n : Nat) : (∃ i < n, x.testBit i = true) ↔ x % 2 ^ n ≠ 0 := by
  constructor
  · rintro ⟨i, hi, set⟩ zero
    have : (x % 2 ^ n).testBit i = true := by simp [Nat.testBit_mod_two_pow, hi, set]
    simp [zero] at this
  · intro h
    obtain ⟨i, set⟩ := Nat.exists_testBit_of_ne_zero h
    simp only [Nat.testBit_mod_two_pow, Bool.and_eq_true, decide_eq_true_eq] at set
    exact ⟨i, set⟩

theorem testBit_setBit_self (x i : Nat) : (setBit x i).testBit i = true := by
  simp [setBit]

/-! ### The order of R193 -/

/-- A reason of bits 0 to 14, 18 or 19: the item is not inspected. -/
def excludes (reasons : Nat) : Prop := (∃ n < 15, reasons.testBit n = true) ∨ reasons.testBit 18 = true ∨ reasons.testBit 19 = true

/-- A reason of bits 15 to 17: the item is degraded. -/
def degrades (reasons : Nat) : Prop := reasons.testBit 15 = true ∨ reasons.testBit 16 = true ∨ reasons.testBit 17 = true

theorem verdictOf_excluded {reasons : Nat} (fails : Nat) (h : excludes reasons) : verdictOf reasons fails = 3 := by
  refine if_pos ?_
  simpa [excludes, exists_testBit_iff_mod_ne_zero, bit, or_assoc] using h

theorem verdictOf_inspected {reasons : Nat} (fails : Nat) (h : ¬excludes reasons) :
    verdictOf reasons fails = if fails ≠ 0 then 1 else if bit reasons 15 || bit reasons 16 || bit reasons 17 then 2 else 0 := by
  refine if_neg ?_
  simpa [excludes, exists_testBit_iff_mod_ne_zero, bit, or_assoc] using h

theorem verdictOf_failed {reasons fails : Nat} (h : ¬excludes reasons) (failed : fails ≠ 0) : verdictOf reasons fails = 1 := by
  rw [verdictOf_inspected fails h, if_pos failed]

theorem verdictOf_degraded {reasons : Nat} (h : ¬excludes reasons) (degraded : degrades reasons) : verdictOf reasons 0 = 2 := by
  rw [verdictOf_inspected 0 h, if_neg (by simp), if_pos (by simpa [degrades, bit, or_assoc] using degraded)]

theorem verdictOf_passed {reasons : Nat} (h : ¬excludes reasons) (plain : ¬degrades reasons) : verdictOf reasons 0 = 0 := by
  rw [verdictOf_inspected 0 h, if_neg (by simp), if_neg (by simpa [degrades, bit, or_assoc] using plain)]

/-! ### What a formed verdict holds -/

section
variable (b : Bar) (ix : Nat) (i : Item)

theorem Bar.formVerdict_verdict :
    (b.formVerdict ix i).1.verdict = verdictOf (b.formVerdict ix i).1.reasons (b.formVerdict ix i).1.failClasses := rfl

/-- The item's own reasons stay. -/
theorem Bar.formVerdict_reasons {n : Nat} (h : i.reasons.testBit n = true) :
    (b.formVerdict ix i).1.reasons.testBit n = true := by
  simp only [formVerdict, Nat.testBit_or, h, Bool.true_or]

/-- The class has a non-zero fail limit, and the comparison found as many defects of it. -/
def Bar.classFails (c : Nat) : Bool :=
  let lim := b.pN i.laneSet (0x2520 + i.laneN b 0x2510) (0x0E + c)
  (b.formVerdict ix i).2.2.1.isSome && decide (0 < lim) && decide (lim ≤ (b.formVerdict ix i).2.1.counts.getD c 0)

theorem Bar.formVerdict_failClasses :
    (b.formVerdict ix i).1.failClasses = ((List.range 7).map fun c => b2n (b.classFails ix i c) * 2 ^ c).sum := rfl

theorem Bar.formVerdict_failClasses_lt : (b.formVerdict ix i).1.failClasses < 2 ^ 7 := by
  rw [formVerdict_failClasses]
  exact sum_b2n_lt _ 7

theorem Bar.testBit_formVerdict_failClasses {c : Nat} (h : c < 7) :
    (b.formVerdict ix i).1.failClasses.testBit c = b.classFails ix i c := testBit_sum_b2n _ h

/-- Some class is at its limit where FAIL_CLASSES is not 0. -/
theorem Bar.formVerdict_fails_iff :
    (∃ c < 7, (b.formVerdict ix i).1.failClasses.testBit c = true) ↔ (b.formVerdict ix i).1.failClasses ≠ 0 := by
  rw [exists_testBit_iff_mod_ne_zero, Nat.mod_eq_of_lt (b.formVerdict_failClasses_lt ix i)]

/-- Forming a verdict takes no time. -/
theorem Bar.formVerdict_tPub : (b.formVerdict ix i).1.tPub = b.now := by
  unfold formVerdict
  cases i.f with
  | some f => rfl
  | none => cases i.started <;> rfl

end

/-- Settles O37: the order of R193 on the reasons and the failing classes, and what the record takes from the item and from
inspection. -/
theorem verdictOrderOfTheRules : Obligations.VerdictOrderOfTheRules := by
  intro b ix i v r has excluded failed degraded
  have failing : failed ↔ v.failClasses ≠ 0 := b.formVerdict_fails_iff ix i
  have clean (h : ¬failed) : v.failClasses = 0 := Decidable.byContradiction fun atLimit => h (failing.mpr atLimit)
  have formed : v.verdict = verdictOf v.reasons v.failClasses := b.formVerdict_verdict ix i
  have marked : (i.withReason rSafetyNet).reasons.testBit 7 = true := testBit_setBit_self ..
  refine ⟨fun ex => ?_, fun ok fail => ?_, fun ok sound bad => ?_, fun ok sound plain => ?_, ⟨marked, ?_⟩, rfl,
    b.formVerdict_failClasses_lt ix i, fun c hc => ?_, rfl, rfl, b.formVerdict_tPub ix i⟩
  · rw [formed, verdictOf_excluded _ ex]
  · rw [formed, verdictOf_failed ok (failing.mp fail)]
  · rw [formed, clean sound, verdictOf_degraded ok bad]
  · rw [formed, clean sound, verdictOf_passed ok plain]
  · exact verdictOf_excluded _ (.inl ⟨7, by decide, b.formVerdict_reasons ix _ marked⟩)
  · rw [b.testBit_formVerdict_failClasses ix i hc]
    simp [Bar.classFails, and_assoc, r]

end Sys2Proof.Machine
end

section
/-! Publication (R193 to R195, R220, R255, R290, R302 to R323, R371): what the paths of a published record can touch. -/

namespace Sys2Proof.Machine

/-! ### What hands a record over -/

/-- From b to c nothing changes but where a published record goes: the log and the Emergencies, the free values drawn, the channels,
the nozzle events' counts, the engines, storage, the data ports, and the crops with the deflate engine. -/
def Bar.HandsOver (b c : Bar) : Prop :=
  c = { b with
    free := c.free, log := c.log, sm1 := c.sm1, io := c.io, nz := c.nz, cod := c.cod, sto := c.sto, dlv := c.dlv
    cap := { b.cap with crops := c.cap.crops } }

section
variable {b c d : Bar}

theorem Bar.HandsOver.refl (b : Bar) : b.HandsOver b := rfl

theorem Bar.HandsOver.trans (first : b.HandsOver c) (second : c.HandsOver d) : b.HandsOver d := by
  unfold HandsOver at first second ⊢
  rw [first] at second
  exact second

theorem Bar.HandsOver.ite {p : Prop} [Decidable p] (yes : b.HandsOver c) (no : b.HandsOver d) :
    b.HandsOver (if p then c else d) := by
  split
  · exact yes
  · exact no

theorem Bar.HandsOver.ite_fst {α : Type} {p : Prop} [Decidable p] {x y : Bar × α} (yes : b.HandsOver x.1) (no : b.HandsOver y.1) :
    b.HandsOver (if p then x else y).1 := by
  split
  · exact yes
  · exact no

theorem Bar.HandsOver.ite_snd {α : Type} {p : Prop} [Decidable p] {x y : α × Bar} (yes : b.HandsOver x.2) (no : b.HandsOver y.2) :
    b.HandsOver (if p then x else y).2 := by
  split
  · exact yes
  · exact no

theorem Bar.HandsOver.foldl {α : Type} (l : List α) (f : Bar → α → Bar) (step : ∀ (c : Bar) (a : α), c.HandsOver (f c a)) :
    b.HandsOver (l.foldl f b) :=
  List.foldlRecOn l f (.refl b) fun c kept a _ => kept.trans (step c a)

theorem Bar.HandsOver.lines_eq (h : b.HandsOver c) : c.lines = b.lines := Eq.trans (congrArg Bar.lines h) rfl
theorem Bar.HandsOver.par_eq (h : b.HandsOver c) : c.par = b.par := Eq.trans (congrArg Bar.par h) rfl
theorem Bar.HandsOver.ecat_eq (h : b.HandsOver c) : c.ecat = b.ecat := Eq.trans (congrArg Bar.ecat h) rfl
theorem Bar.HandsOver.saf_eq (h : b.HandsOver c) : c.saf = b.saf := Eq.trans (congrArg Bar.saf h) rfl
theorem Bar.HandsOver.items_eq (h : b.HandsOver c) : c.cap.items = b.cap.items := Eq.trans (congrArg (·.cap.items) h) rfl
theorem Bar.HandsOver.insp_eq (h : b.HandsOver c) : c.cap.insp = b.cap.insp := Eq.trans (congrArg (·.cap.insp) h) rfl

end

/-! #### The shared operations on the bar's parts -/

section
variable (b : Bar)

theorem Bar.draw_handsOver (bound : Nat) : b.HandsOver (b.draw bound).2 := rfl

theorem Bar.logEvent_handsOver (code arg : Nat) : b.HandsOver (b.logEvent code arg) := rfl

theorem Bar.logLimited_handsOver (code unit arg period : Nat) : b.HandsOver (b.logLimited code unit arg period) := by
  unfold logLimited
  exact .ite (.refl b) rfl

theorem Bar.modSto_handsOver (f : Storage → Storage) : b.HandsOver (b.modSto f) := rfl

theorem Bar.modCod_handsOver (f : Codec → Codec) : b.HandsOver (b.modCod f) := rfl

theorem Bar.modCrops_handsOver (f : List Crop → List Crop) : b.HandsOver (b.modCap fun k => { k with crops := f k.crops }) := rfl

theorem Bar.modPort_handsOver (p : Fin 4) (f : Port → Port) : b.HandsOver (b.modPort p f) := rfl

theorem Bar.modSession_handsOver (k : Nat) (f : Session → Session) : b.HandsOver (b.modSession k f) := rfl

theorem Bar.modDlv_handsOver (dlv : Delivery) : b.HandsOver { b with dlv := dlv } := rfl

/-! #### The verdict feed -/

theorem Bar.feedPair_handsOver (k : Fin 64) (word posS seq : Nat) : b.HandsOver (b.feedPair k word posS seq) := by
  unfold feedPair
  exact .ite rfl rfl

theorem Bar.feedVerdict_handsOver (verdict lane seq posS : Nat) (seqValid : Bool) :
    b.HandsOver (b.feedVerdict verdict lane seq posS seqValid) := by
  unfold feedVerdict
  exact .foldl _ _ fun b k => .ite (b.feedPair_handsOver ..) (.refl b)

/-! #### The data ports -/

theorem Bar.lateDatagrams_handsOver (n : Nat) : b.HandsOver (b.lateDatagrams n) :=
  (b.modDlv_handsOver _).trans (logLimited_handsOver ..)

theorem Bar.lateEvents_handsOver (n : Nat) (windows : List (Nat × Nat)) : b.HandsOver (b.lateEvents n windows) := by
  unfold lateEvents
  refine .trans (c := { b with nz := _ }) rfl (.foldl _ _ fun b x => .ite (.refl b) rfl)

theorem Bar.frameLeaves_handsOver (p : Fin 4) (f : Frame) (rest : List Frame) : b.HandsOver (b.frameLeaves p f rest) := by
  unfold frameLeaves
  extract_lets late
  split
  next g events _ =>
    extract_lets sent copied marked
    have leaves : b.HandsOver sent := modPort_handsOver ..
    have copies : sent.HandsOver copied := .ite rfl (.refl _)
    have marks : copied.HandsOver marked :=
      .ite (.trans (modSession_handsOver ..) <| .trans (lateEvents_handsOver ..) (lateDatagrams_handsOver ..)) (.refl _)
    refine leaves.trans <| copies.trans <| marks.trans ?_
    split
    · exact modDlv_handsOver ..
    · exact .refl _

theorem Bar.portFrames_handsOver (p : Fin 4) (fuel : Nat) : b.HandsOver (b.portFrames p fuel) := by
  induction fuel generalizing b with
  | zero => exact .refl b
  | succ fuel ih =>
    unfold portFrames
    extract_lets q asks
    refine .ite (.refl b) ?_
    have draws : b.HandsOver (if asks then b.draw 8 else (7, b)).2 := .ite_snd (b.draw_handsOver 8) (.refl b)
    split
    next drawn =>
      rw [drawn] at draws
      split
      · exact draws
      · exact draws.trans <| (frameLeaves_handsOver ..).trans (ih _)

theorem Bar.portRun_handsOver (p : Fin 4) : b.HandsOver (b.portRun p) := by
  unfold portRun
  exact .ite ((b.portFrames_handsOver ..).trans (modPort_handsOver ..)) (.refl b)

theorem Bar.enqueue_handsOver (p : Fin 4) (f : Frame) : b.HandsOver (b.enqueue p f) := by
  unfold enqueue
  extract_lets vlan tagged
  exact .ite ((b.portRun_handsOver p).trans <| (modPort_handsOver ..).trans (portRun_handsOver ..)) (b.modDlv_handsOver _)

theorem Bar.sendPiece_handsOver (k : Nat) (u : KspUnit) (stamp frag : Nat) (last : Bool) (payload : List Byte) :
    b.HandsOver (b.sendPiece k u stamp frag last payload) := by
  unfold sendPiece
  split
  · exact .refl b
  · extract_lets st gap flags d bytes replica port frame keep own held counted queued
    have queues : b.HandsOver queued := (b.modSession_handsOver k _).trans (enqueue_handsOver _ port frame)
    cases replica with
    | none => exact queues
    | some p => exact queues.trans (enqueue_handsOver ..)

theorem Bar.sendPieces_handsOver (k : Nat) (u : KspUnit) (stamp frag : Nat) (ps : List (List Byte)) :
    b.HandsOver (b.sendPieces k u stamp frag ps) := by
  induction ps generalizing b frag with
  | nil => exact .refl b
  | cons p rest ih =>
    cases rest with
    | nil => exact b.sendPiece_handsOver ..
    | cons p' rest => exact (b.sendPiece_handsOver ..).trans (ih _ _)

theorem Bar.dropUnit_handsOver (k stream : Nat) : b.HandsOver (b.dropUnit k stream) := by
  unfold dropUnit
  extract_lets marked dlv counted
  have counts : marked.HandsOver counted := by
    unfold counted
    split
    · exact modDlv_handsOver ..
    · exact .refl _
  exact (b.modSession_handsOver k _).trans <| counts.trans (logLimited_handsOver ..)

theorem Bar.sendUnit_handsOver (k : Nat) (u : KspUnit) : b.HandsOver (b.sendUnit k u) := by
  unfold sendUnit
  split
  · exact .ite (b.modDlv_handsOver _) (.refl b)
  · refine .ite ?_ (.refl b)
    extract_lets ps room
    exact .ite (b.dropUnit_handsOver ..) <| .ite (b.modDlv_handsOver _) <|
      .trans (.ite (b.lateDatagrams_handsOver _) (.refl b)) (sendPieces_handsOver ..)

theorem Bar.sendAll_handsOver (u : KspUnit) (v1 : List Byte) : b.HandsOver (b.sendAll u v1) := by
  unfold sendAll
  exact .foldl _ _ fun b k => b.sendUnit_handsOver ..

/-! #### Storage -/

theorem Bar.evidenceTake_handsOver (n : Nat) : b.HandsOver (b.evidenceTake n).1 := by
  unfold evidenceTake
  extract_lets k
  exact .ite_fst (b.modDlv_handsOver _) (b.modDlv_handsOver _)

theorem Bar.evidenceObject_handsOver (guaranteed : Bool) (published session seq index line0 line1 gen : Nat) (bytes : List Byte) :
    b.HandsOver (b.evidenceObject guaranteed published session seq index line0 line1 gen bytes) := by
  unfold evidenceObject
  exact (b.modSto_handsOver _).trans (sendAll_handsOver ..)

theorem Bar.appendBody_handsOver (type : Nat) (body : List Byte → List Byte) : b.HandsOver (b.appendBody type body) := by
  unfold appendBody
  extract_lets s head entry index room mark appended due
  have appends : b.HandsOver appended := b.modSto_handsOver _
  exact appends.trans <| .ite ((logEvent_handsOver ..).trans (modSto_handsOver ..)) <| .ite (.refl _) (modSto_handsOver ..)

theorem Bar.unpinItem_handsOver (session seq : Nat) : b.HandsOver (b.unpinItem session seq) := by
  unfold unpinItem
  exact .ite (.refl b) rfl

theorem Bar.settlePin_handsOver (e : ItemEntry) : b.HandsOver (b.settlePin e).1 := by
  unfold settlePin
  exact .ite_fst (.refl b) <| .ite_fst (.refl b) <| (b.unpinItem_handsOver ..).trans (logEvent_handsOver ..)

theorem Bar.formItem_handsOver (e : ItemEntry) : b.HandsOver (b.formItem e) := by
  unfold formItem appendEntry
  exact (b.settlePin_handsOver e).trans (appendBody_handsOver ..)

theorem Bar.pinItem_handsOver (session seq : Nat) (chunks : List Nat) : b.HandsOver (b.pinItem session seq chunks).1 := by
  unfold pinItem
  extract_lets frames pinned
  exact .ite_fst (.refl b) <| .ite_fst (.trans (modSto_handsOver ..) (.refl pinned)) (b.logEvent_handsOver ..)

/-! #### Crops -/

theorem Bar.submitCrop_handsOver (c : Crop) : b.HandsOver (b.submitCrop c) := by
  unfold submitCrop queueJob
  exact (b.modCrops_handsOver fun crops => crops ++ [c]).trans (modCod_handsOver ..)

theorem Bar.cutCrops_handsOver (g : CmpGeom) (pinned : Bool) (limit : Nat) (ds : List Defect) (n : Nat) :
    b.HandsOver (b.cutCrops g pinned limit ds n).1 := by
  induction ds generalizing b n with
  | nil => exact .refl b
  | cons d rest ih =>
    unfold cutCrops
    extract_lets c
    have takes : b.HandsOver (if n < limit then b.evidenceTake (b.cropSize c) else (b, false)).1 :=
      .ite_fst (b.evidenceTake_handsOver _) (.refl b)
    split
    next taken gold eq =>
      rw [eq] at takes
      extract_lets full
      have draws : taken.HandsOver (if gold = true then (1, taken) else if full = true then (0, taken) else taken.draw 2).2 :=
        .ite_snd (.refl _) <| .ite_snd (.refl _) (taken.draw_handsOver 2)
      split
      next keep drawn eq =>
        rw [eq] at draws
        extract_lets cut
        have cuts : drawn.HandsOver cut := .ite (submitCrop_handsOver ..) (.refl _)
        exact takes.trans <| draws.trans <| cuts.trans (ih cut (n + 1))

/-- An item that is published while its frame is open draws its length (R193). -/
theorem Bar.formVerdict_handsOver (ix : Nat) (i : Item) : b.HandsOver (b.formVerdict ix i).2.2.2 := by
  unfold formVerdict
  cases i.f with
  | some f => exact .refl b
  | none =>
    cases i.started with
    | true => exact b.draw_handsOver (2 ^ 24)
    | false => exact .refl b

end

end Sys2Proof.Machine
end

section
/-! Publication of an item (R193 to R195, R345): its record, its mark, its place in the verdict queue. -/

namespace Sys2Proof.Machine

/-! ### The record (Table 6-7) -/

theorem leBytes_length (n x : Nat) : (leBytes n x).length = n := by
  induction n generalizing x with
  | zero => rfl
  | succ n ih => rw [leBytes, List.length_cons, ih]

theorem leNat_leBytes_append (n x : Nat) (rest : List Byte) :
    leNat (leBytes n x ++ rest) = x % 256 ^ n + 256 ^ n * leNat rest := by
  induction n generalizing x with
  | zero => simp [leBytes, Nat.mod_one]
  | succ n ih =>
    have power : 256 ^ (n + 1) = 256 * 256 ^ n := Nat.pow_succ'
    rw [leBytes, List.cons_append, leNat, ih, BitVec.toNat_ofNat, power, Nat.mod_mul (a := 256), Nat.mul_add, Nat.mul_assoc,
      ← Nat.add_assoc]

/-- The value of the first n + m bytes, of which n hold x. -/
theorem leNat_take_leBytes_append (n m x : Nat) (rest : List Byte) :
    leNat ((leBytes n x ++ rest).take (n + m)) = x % 256 ^ n + 256 ^ n * leNat (rest.take m) := by
  have front := List.take_length_add_append (l₁ := leBytes n x) (l₂ := rest) m
  rw [leBytes_length] at front
  rw [front, leNat_leBytes_append]

theorem leNat_take_leBytes (n x : Nat) (rest : List Byte) : leNat ((leBytes n x ++ rest).take n) = x % 256 ^ n :=
  leNat_take_leBytes_append n 0 x rest

/-- The 16 bytes that the verdict queue takes of a record, as a number (R345). -/
def Verdict.slot (v : Verdict) : Nat := leNat (v.bytes.take 16)

theorem Verdict.slot_eq (v : Verdict) :
    v.slot = v.seq % 256 ^ 4 + 256 ^ 4 * (v.number % 256 ^ 4 + 256 ^ 4 * (v.lane % 256 ^ 1 + 256 ^ 1 *
      ((v.verdict + b2n v.seqValid * 4) % 256 ^ 1 + 256 ^ 1 * (v.failClasses % 256 ^ 1 + 256 ^ 1 *
        (v.coverage % 256 ^ 2 + 256 ^ 2 * (v.reasons % 256 ^ 3)))))) := by
  unfold slot bytes
  simp only [List.append_assoc]
  rw [leNat_take_leBytes_append 4 12, leNat_take_leBytes_append 4 8, leNat_take_leBytes_append 1 7, leNat_take_leBytes_append 1 6,
    leNat_take_leBytes_append 1 5, leNat_take_leBytes_append 2 3, leNat_take_leBytes 3]

/-- Where a record's number, lane, verdict and reasons stand in its slot. -/
theorem Verdict.slot_fields {v : Verdict} (lane : v.lane < 256) (verdict : v.verdict < 4) :
    v.slot / 2 ^ 32 % 2 ^ 32 = v.number % 2 ^ 32 ∧ v.slot / 2 ^ 64 % 256 = v.lane ∧ v.slot / 2 ^ 72 % 4 = v.verdict ∧
    v.slot / 2 ^ 104 = v.reasons % 2 ^ 24 := by
  rw [slot_eq]
  refine ⟨by omega, by omega, by omega, by omega⟩

theorem Verdict.testBit_slot {v : Verdict} (lane : v.lane < 256) (verdict : v.verdict < 4) {n : Nat} (h : n < 24) :
    v.slot.testBit (n + 104) = v.reasons.testBit n := by
  obtain ⟨-, -, -, reasons⟩ := slot_fields lane verdict
  rw [← Nat.testBit_div_two_pow, reasons, Nat.testBit_mod_two_pow, decide_eq_true h, Bool.true_and]

/-! ### Publication (R193 to R195, R345) -/

/-- A record is published from bar b: it is counted, the verdict queue takes its slot in a session, and beyond what hands it over
nothing else changes. -/
structure Bar.Records (b : Bar) (slot : Nat) (c : Bar) : Prop where
  lines : c.lines = b.lines
  par : c.par = b.par
  saf : c.saf = b.saf
  items : c.cap.items = b.cap.items
  published : c.cap.insp.published = sat32 b.cap.insp.published
  late : c.cap.insp.late = b.cap.insp.late
  queued : b.ecat.session = true → c.ecat.vq.getLast? = some (b.ecat.vqNext, slot, none)

section
variable {b c d : Bar} {slot : Nat}

theorem Bar.Records.handsOver (h : b.Records slot c) (next : c.HandsOver d) : b.Records slot d where
  lines := next.lines_eq.trans h.lines
  par := next.par_eq.trans h.par
  saf := next.saf_eq.trans h.saf
  items := next.items_eq.trans h.items
  published := (congrArg _ next.insp_eq).trans h.published
  late := (congrArg _ next.insp_eq).trans h.late
  queued session := by rw [next.ecat_eq, h.queued session]

theorem Bar.HandsOver.records (first : b.HandsOver c) (h : c.Records slot d) : b.Records slot d where
  lines := h.lines.trans first.lines_eq
  par := h.par.trans first.par_eq
  saf := h.saf.trans first.saf_eq
  items := h.items.trans first.items_eq
  published := by rw [h.published, first.insp_eq]
  late := by rw [h.late, first.insp_eq]
  queued session := by rw [h.queued (by rw [first.ecat_eq, session]), first.ecat_eq]

/-- The same marks are made on the items before a record is handed over and after. -/
theorem Bar.HandsOver.modItemAt (h : b.HandsOver c) (ix : Nat) (f : Item → Item) : (b.modItemAt ix f).HandsOver (c.modItemAt ix f) := by
  unfold HandsOver at h
  rw [h]
  rfl

end

/-- The slot of a record becomes the last of the verdict queue (R345). -/
theorem Bar.queueVerdict_handsOver (b : Bar) (bytes : List Byte) :
    ∃ ecat, ({ b with ecat := ecat } : Bar).HandsOver (b.queueVerdict bytes) ∧
      ecat.vq.getLast? = some (b.ecat.vqNext, leNat (bytes.take 16), none) := by
  unfold queueVerdict
  extract_lets slot e full queued
  exact ⟨queued.ecat, .ite (queued.logLimited_handsOver ..) (.refl queued), List.getLast?_concat⟩

/-- Neither the time of publication nor the flags stand in a record's slot. -/
theorem Verdict.slot_with (v : Verdict) (flags tPub : Nat) : ({ v with flags := flags, tPub := tPub } : Verdict).slot = v.slot := by
  rw [slot_eq, slot_eq]

/-- A record of a verdict is counted. -/
def Bar.countRecord (b : Bar) (verdict : Fin 4) : Bar :=
  b.modCap fun c => { c with insp := { c.insp with
    published := sat32 c.insp.published, byVerdict := vmod c.insp.byVerdict verdict sat32 } }

/-- A record that has been counted and sent enters the verdict queue in a session (R345). -/
theorem Bar.HandsOver.records_queued {b sent : Bar} {verdict : Fin 4} (sends : (b.countRecord verdict).HandsOver sent) (v : Verdict) :
    b.Records v.slot (if sent.ecat.session then sent.queueVerdict v.bytes else sent) := by
  have counts (ecat : Ecat) (queue : b.ecat.session = true → ecat.vq.getLast? = some (b.ecat.vqNext, v.slot, none)) :
      b.Records v.slot { sent with ecat := ecat } :=
    { lines := (sends.lines_eq :), par := (sends.par_eq :), saf := (sends.saf_eq :), items := (sends.items_eq :)
      published := (congrArg InspCounters.published sends.insp_eq :)
      late := (congrArg InspCounters.late sends.insp_eq :), queued := queue }
  have ecat : sent.ecat = b.ecat := sends.ecat_eq
  split
  next =>
    obtain ⟨_, queues, last⟩ := sent.queueVerdict_handsOver v.bytes
    rw [ecat] at last
    exact (counts _ fun _ => last).handsOver queues
  next closed =>
    rw [ecat] at closed
    exact counts sent.ecat fun session => absurd session closed

theorem Bar.publish_records (b : Bar) (v : Verdict) (ds : List Defect) (frame : Option (Nat × Nat)) (pinned : Bool) (due : List Nat)
    (late : Bool) : b.Records v.slot (b.publish v ds frame pinned due late) := by
  rw [← v.slot_with v.flags b.now]
  unfold publish
  extract_lets stamped rec64 v4 counted body
  split
  next l0 l1 _ =>
    extract_lets sent queued posS fed set entry
    have sends : (b.countRecord v4).HandsOver sent := counted.sendAll_handsOver ..
    have records : b.Records stamped.slot queued := sends.records_queued stamped
    have feeds : queued.HandsOver fed := feedVerdict_handsOver ..
    have takes : fed.HandsOver (fed.evidenceTake set.length).1 := fed.evidenceTake_handsOver _
    refine (records.handsOver feeds).handsOver ?_
    split
    · split
      next taken gold eq =>
        rw [eq] at takes
        extract_lets stored
        have stores : taken.HandsOver stored := taken.modSto_handsOver _
        exact takes.trans <| stores.trans (stored.evidenceObject_handsOver ..)
    · exact fed.formItem_handsOver _

/-- What is published of an item: its verdict as it is formed. -/
theorem Bar.publishItem_records {b : Bar} {ix : Nat} {i : Item} (h : b.cap.items[ix]? = some i) (waits : i.published = false) :
    (b.modItemAt ix fun i => { i with published := true }).Records (b.formVerdict ix i).1.slot (b.publishItem ix) := by
  have forms := b.formVerdict_handsOver ix i
  unfold publishItem
  split
  next missing => exact absurd (h.symm.trans missing) (by simp)
  next j found =>
    obtain rfl : i = j := Option.some.inj (h.symm.trans found)
    rw [if_neg (by simp [waits])]
    extract_lets late
    split
    next v r g formed eq =>
      rw [eq] at forms ⊢
      extract_lets frame
      have pins : formed.HandsOver (if (i.pin && v.seqValid) = true then
          formed.pinItem formed.sto.session v.seq (frame.elim [] fun f => (formed.sto.frameChunks f).map (·.number))
          else (formed, false)).1 :=
        .ite_fst (formed.pinItem_handsOver ..) (.refl formed)
      split
      next kept pinned eq =>
        rw [eq] at pins
        split
        next cut ds due dropped eq =>
          have cuts : kept.HandsOver cut := by
            rw [show cut = _ from (congrArg Prod.fst eq).symm]
            cases g with
            | some g => exact kept.cutCrops_handsOver ..
            | none => exact .refl kept
          extract_lets flagged marked recorded counted overflown crowded
          have marks : (b.modItemAt ix fun i => { i with published := true }).HandsOver marked :=
            HandsOver.modItemAt (forms.trans <| pins.trans cuts) ix _
          have records : marked.Records v.slot recorded := by
            have := marked.publish_records flagged ds frame pinned due late
            rwa [v.slot_with _ v.tPub] at this
          have counts : marked.Records v.slot counted :=
            ⟨records.lines, records.par, records.saf, records.items, records.published, records.late, records.queued⟩
          have overflows : counted.HandsOver overflown := .foldl _ _ fun b s => b.logEvent_handsOver ..
          have crowds : overflown.HandsOver crowded := .ite (logEvent_handsOver ..) (.refl _)
          exact marks.records <| counts.handsOver <| overflows.trans <| crowds.trans <| .ite (logEvent_handsOver ..) (.refl _)

end Sys2Proof.Machine
end

section
/-! The guard of R195 and the Safety Net that it engages (R46, R47, R422): each item is published once. -/

namespace Sys2Proof.Machine

/-! ### Items by place -/

theorem Bar.modItemAt_same {b : Bar} {ix : Nat} {i : Item} (f : Item → Item) (h : b.cap.items[ix]? = some i) :
    (b.modItemAt ix f).cap.items[ix]? = some (f i) :=
  (List.getElem?_modify_eq ..).trans (congrArg _ h)

theorem Bar.modItemAt_other (b : Bar) {ix x : Nat} (f : Item → Item) (h : x ≠ ix) :
    (b.modItemAt ix f).cap.items[x]? = b.cap.items[x]? := List.getElem?_modify_ne f _ h.symm

/-- The item that is found has the lane and the number, and waits for its verdict. -/
theorem Bar.findItem_some {b : Bar} {lane number ix : Nat} {i : Item} (find : b.findItem lane number = some ix)
    (item : b.cap.items[ix]? = some i) : i.lane = lane ∧ i.number = number ∧ i.published = false := by
  obtain ⟨_, rfl⟩ := List.getElem?_eq_some_iff.mp item
  obtain ⟨_, found, -⟩ := List.findIdx?_eq_some_iff_getElem.mp find
  simpa [and_assoc] using found

theorem Bar.findItem_none {b : Bar} {lane number : Nat}
    (h : ∀ i ∈ b.cap.items, i.lane = lane → i.number = number → i.published = true) : b.findItem lane number = none := by
  refine List.findIdx?_eq_none_iff.mpr fun i hi => ?_
  simpa using h i hi

/-- The item at a place has a published verdict. -/
def Bar.isPublished (b : Bar) (ix : Nat) : Prop := (b.cap.items[ix]?.map (·.published)) = some true

theorem Bar.isPublished_iff {b : Bar} {ix : Nat} : b.isPublished ix ↔ ∃ i, b.cap.items[ix]? = some i ∧ i.published = true := by
  simp [isPublished]

/-- An item that waits is published, and the others stay as they are. -/
theorem Bar.publishItem_items {b : Bar} {ix : Nat} {i : Item} (item : b.cap.items[ix]? = some i) (waits : i.published = false) :
    (b.publishItem ix).cap.items[ix]? = some { i with published := true } ∧
    ∀ x, x ≠ ix → (b.publishItem ix).cap.items[x]? = b.cap.items[x]? := by
  rw [(publishItem_records item waits).items]
  exact ⟨modItemAt_same _ item, fun x other => b.modItemAt_other _ other⟩

/-- No item there waits: nothing is published. -/
theorem Bar.publishItem_idle {b : Bar} {ix : Nat} (h : ∀ i, b.cap.items[ix]? = some i → i.published = true) : b.publishItem ix = b := by
  unfold publishItem
  split
  next => rfl
  next i item => exact if_pos (h i item)

/-- A publication takes no verdict back and leaves the Safety Net as it is. -/
theorem Bar.publishItem_keeps (b : Bar) (x : Nat) :
    (b.publishItem x).saf = b.saf ∧ ∀ ix, b.isPublished ix → (b.publishItem x).isPublished ix := by
  by_cases h : ∀ i, b.cap.items[x]? = some i → i.published = true
  · rw [publishItem_idle h]
    exact ⟨rfl, fun _ => id⟩
  · simp only [Classical.not_forall] at h
    obtain ⟨i, item, waits⟩ := h
    have waits : i.published = false := by simpa using waits
    obtain ⟨same, others⟩ := publishItem_items item waits
    refine ⟨(publishItem_records item waits).saf, fun ix published => ?_⟩
    by_cases here : ix = x
    · rw [here]
      exact congrArg _ same
    · exact (congrArg _ (others ix here)).trans published

theorem Bar.publishAll_keeps (b : Bar) :
    b.publishAll.saf = b.saf ∧ ∀ ix, b.isPublished ix → b.publishAll.isPublished ix := by
  unfold publishAll
  refine List.foldlRecOn (motive := fun c : Bar => c.saf = b.saf ∧ ∀ ix, b.isPublished ix → c.isPublished ix) _ _ ⟨rfl, fun _ => id⟩
    fun c kept x _ => ?_
  obtain ⟨saf, published⟩ := kept
  obtain ⟨saf', published'⟩ := c.publishItem_keeps x
  exact ⟨saf'.trans saf, fun ix h => published' ix (published ix h)⟩

/-! ### The engagement of the Safety Net (R46, R422) -/

/-- After a cause has arisen the Safety Net is engaged, the cause is noted, and no verdict has been taken back. -/
theorem Bar.engage_keeps (b : Bar) (code : Nat) (f : Causes → Causes) :
    (b.engage code f).saf.sn.engaged = true ∧ (b.engage code f).saf.sn.causes = f b.saf.sn.causes ∧
    ∀ ix, b.isPublished ix → (b.engage code f).isPublished ix := by
  unfold engage
  extract_lets caused noted engaging since sn ret entered marked
  split
  next already => exact ⟨already, rfl, fun _ => id⟩
  next =>
    obtain ⟨saf, published⟩ := marked.publishAll_keeps
    rw [logWith_saf, saf]
    refine ⟨rfl, rfl, fun ix h => published ix ?_⟩
    obtain ⟨i, item, done⟩ := isPublished_iff.mp h
    refine isPublished_iff.mpr ⟨i, ?_, done⟩
    have marks : marked.cap.items[ix]? = _ := (List.getElem?_map ..).trans (congrArg _ item)
    simpa [done] using marks

/-! ### The guard (R195) -/

/-- An item is marked late, and NOT_INSPECTED by the Safety Net where that is engaged. -/
def Item.markLate (net : Bool) (i : Item) : Item :=
  let i := i.withReason rVerdictLate
  if net then i.withReason rSafetyNet else i

theorem Item.markLate_keeps (net : Bool) (i : Item) :
    (i.markLate net).lane = i.lane ∧ (i.markLate net).number = i.number ∧ (i.markLate net).published = i.published := by
  cases net <;> exact ⟨rfl, rfl, rfl⟩

theorem Item.markLate_reason (net : Bool) (i : Item) : (i.markLate net).reasons.testBit 8 = true := by
  have late : (i.withReason rVerdictLate).reasons.testBit 8 = true := testBit_setBit_self ..
  cases net with
  | false => exact late
  | true =>
    simp only [markLate, if_true]
    rw [withReason, setBit, Nat.testBit_or, late, Bool.true_or]

/-- The bar as the guard has marked an item late. -/
def Bar.lateMarked (b : Bar) (ix : Nat) : Bar := b.modItemAt ix (Item.markLate b.saf.sn.engaged)

/-- The bar after the guard has published an item, before the Safety Net engages. -/
def Bar.latePublished (b : Bar) (ix : Nat) : Bar :=
  (((b.lateMarked ix).publishItem ix).modCap fun c => { c with insp := { c.insp with late := sat32 c.insp.late } }).modSn fun s =>
    { s with lastLate := ((b.lateMarked ix).publishItem ix).now }

section
variable {b : Bar} {lane number ix : Nat} {i : Item} (find : b.findItem lane number = some ix) (item : b.cap.items[ix]? = some i)
include find item

theorem Bar.verdictLate_due {due : Nat} (deadline : b.deadline i = some due) (reached : due ≤ b.now + 50000) :
    b.verdictLate lane number = ((b.latePublished ix).engage 0x5053 fun c => { c with late := true }).logEvent 0x5053
      (lane * 2 ^ 32 + i.seq.getD 0) := by
  simp only [verdictLate, find, item, Option.bind_some, deadline, if_pos reached]
  rfl

theorem Bar.verdictLate_early {due : Nat} (deadline : b.deadline i = some due) (early : b.now + 50000 < due) :
    b.verdictLate lane number = b := by
  simp only [verdictLate, find, item, Option.bind_some, deadline, if_neg (Nat.not_le.mpr early)]

theorem Bar.verdictLate_open (deadline : b.deadline i = none) : b.verdictLate lane number = b := by
  simp only [verdictLate, find, item, Option.bind_some, deadline]

theorem Bar.verdictPublish_found : b.verdictPublish lane number = if b.verdictReady i then b.publishItem ix else b := by
  simp only [verdictPublish, find, item]

/-- What the guard publishes: the item with VERDICT_LATE, as NOT_INSPECTED. -/
theorem Bar.latePublished_record (small : lane < 256) :
    ((b.latePublished ix).cap.items[ix]?.map fun j => (j.published, j.reasons.testBit 8)) = some (true, true) ∧
    (b.ecat.session = true → ∃ record, (b.latePublished ix).ecat.vq.getLast? = some (b.ecat.vqNext, record, none) ∧
      record / 2 ^ 72 % 4 = 3 ∧ record.testBit 112 = true ∧ record / 2 ^ 64 % 256 = lane ∧
      record / 2 ^ 32 % 2 ^ 32 = number % 2 ^ 32) ∧
    (b.latePublished ix).cap.insp.late = sat32 b.cap.insp.late := by
  obtain ⟨rfl, rfl, waits⟩ := findItem_some find item
  obtain ⟨lane, number, unpublished⟩ := i.markLate_keeps b.saf.sn.engaged
  have marked : (b.lateMarked ix).cap.items[ix]? = some (i.markLate b.saf.sn.engaged) := modItemAt_same _ item
  have records := publishItem_records marked (unpublished.trans waits)
  obtain ⟨items, -⟩ := publishItem_items marked (unpublished.trans waits)
  have reason := i.markLate_reason b.saf.sn.engaged
  refine ⟨?_, fun session => ⟨_, records.queued session, ?_⟩, congrArg sat32 records.late⟩
  · exact (congrArg _ items).trans (congrArg (fun x => some (true, x)) reason)
  · have formed := (b.lateMarked ix).formVerdict_reasons ix _ reason
    have verdict : ((b.lateMarked ix).formVerdict ix (i.markLate b.saf.sn.engaged)).1.verdict = 3 :=
      verdictOf_excluded _ (.inl ⟨8, by decide, formed⟩)
    have inLane : ((b.lateMarked ix).formVerdict ix (i.markLate b.saf.sn.engaged)).1.lane < 256 :=
      Nat.lt_of_le_of_lt (Nat.le_of_eq lane) small
    obtain ⟨numberAt, laneAt, verdictAt, -⟩ := Verdict.slot_fields inLane (by rw [verdict]; decide)
    exact ⟨verdictAt.trans verdict, (Verdict.testBit_slot inLane (by rw [verdict]; decide) (by decide)).trans formed,
      laneAt.trans lane, numberAt.trans (congrArg (· % 2 ^ 32) number)⟩

end

/-- Settles O38: what a publication makes of the items, the counts and the verdict queue, and the guard as such a publication of an item
that it has marked late. -/
theorem verdictIsPublishedOnce : Obligations.VerdictIsPublishedOnce := by
  intro s t lane number l running hl b
  obtain ⟨-, -, -, publish, guard, -⟩ := captureCommandsAnswer s t running
  have publish : Answers s (.verdictPublish t l number) (b.verdictPublish lane number) := hl ▸ publish l number
  have guard : Answers s (.verdictLate t l number) (b.verdictLate lane number) := hl ▸ guard l number
  refine ⟨fun done => ?_, fun ix i find item => ?_⟩
  · simp only [Bar.verdictPublish, Bar.verdictLate, Bar.findItem_none done] at publish guard
    exact ⟨publish, guard⟩
  · obtain ⟨-, -, waits⟩ := Bar.findItem_some find item
    rw [Bar.verdictPublish_found find item] at publish
    refine ⟨fun held => ?_, fun ready => ?_, fun due deadline reached => ?_, fun due deadline early => ?_, fun deadline => ?_⟩
    · rw [held, if_neg (by simp)] at publish
      exact publish
    · rw [ready, if_pos rfl] at publish
      have records := Bar.publishItem_records item waits
      obtain ⟨same, others⟩ := Bar.publishItem_items item waits
      exact ⟨_, publish, congrArg (Option.map Item.published) same, others, records.published.trans (sat32_eq_min _),
        congrArg Params.live records.par, records.lines, congrArg Safety.sn records.saf⟩
    · rw [Bar.verdictLate_due find item deadline reached] at guard
      obtain ⟨late, queued, count⟩ := Bar.latePublished_record find item (by omega)
      obtain ⟨engaged, causes, kept⟩ := (b.latePublished ix).engage_keeps 0x5053 fun c => { c with late := true }
      refine ⟨_, guard, late, queued, count.trans (sat32_eq_min _), engaged, congrArg Causes.late causes, kept ix ?_⟩
      simpa [Bar.isPublished] using congrArg (Option.map Prod.fst) late
    · rw [Bar.verdictLate_early find item deadline early] at guard
      exact guard
    · rw [Bar.verdictLate_open find item deadline] at guard
      exact guard

end Sys2Proof.Machine
end

section
/-! The DEFLATE engines (chapter 8) and the commit of references (R171): their events are answered. -/

namespace Sys2Proof.Machine

/-- Settles O41: the running bar acts on each submission, each end of a job and each commit, in this order. -/
theorem codecCommandsAnswer : Obligations.CodecCommandsAnswer := by
  intro s t b running
  exact ⟨fun descriptor input chain => .of_live (·.submitJob (jobOf .firmware descriptor input chain) chain) running rfl,
    .of_live (·.inflateDone) running rfl,
    .of_live (·.deflateDone) running rfl,
    fun handle => .of_live (·.refCommit handle) running rfl⟩

end Sys2Proof.Machine
end

section
/-! The nozzle tracks (chapter 7) and the deletion of references (R172): the events are answered, track commands wait for a window's
close (R216), and a reference is deleted unless it is in use. -/

namespace Sys2Proof.Machine

/-- Settles O39: the running bar acts on each event of the windows, the serial frames and the ladder, in this order. -/
theorem nozzleCommandsAnswer : Obligations.NozzleCommandsAnswer := by
  intro s t b running
  exact ⟨.of_live (·.windowBoundary) running rfl,
    .of_live (·.windowClose) running rfl,
    .of_live (·.nozzleLate) running rfl,
    fun j => .of_live (·.serialWrite j) running rfl,
    fun te => .of_live (·.ladderCue te) running rfl,
    .of_live (·.ladderEnd) running rfl⟩

/-! ### Values written, and rows of the dictionary that every part has -/

theorem leNat_leBytes {n x : Nat} (h : x < 256 ^ n) : leNat (leBytes n x) = x := by
  have value := leNat_leBytes_append n x []
  rwa [List.append_nil, leNat, Nat.mul_zero, Nat.add_zero, Nat.mod_eq_of_lt h] at value

/-- Predicates that agree on a list's elements find the same one. -/
theorem find?_eq_of_agree {α : Type} {p q : α → Bool} {xs : List α} (agree : ∀ x ∈ xs, p x = q x) : xs.find? p = xs.find? q := by
  induction xs with
  | nil => rfl
  | cons x rest ih =>
    simp only [List.find?_cons, agree x List.mem_cons_self, ih fun y member => agree y (List.mem_cons_of_mem x member)]

/-- An entry whose rows do not depend on the segments is there on every part (R4, R396). -/
theorem Bar.entry?_eq_findEntry (b : Bar) {index sub : Nat}
    (fixed : ∀ e ∈ dictionary, e.lo ≤ index → index ≤ e.hi → e.sub ≤ sub → sub ≤ e.subHi → e.span = .all)
    (noSensor : ¬ (0x2C00 ≤ index ∧ index ≤ 0x2C06)) : b.entry? index sub = findEntry index sub := by
  refine find?_eq_of_agree fun e row => Bool.and_eq_left_iff_imp.mpr fun covers => ?_
  simp only [Bool.and_eq_true, decide_eq_true_eq] at covers
  obtain ⟨⟨⟨low, high⟩, subLow⟩, subHigh⟩ := covers
  simp only [fixed e row low high subLow subHigh, Bool.or_eq_true, Bool.not_eq_true', Bool.and_eq_false_iff, decide_eq_false_iff_not]
  omega

/-! ### Track commands (R216) -/

/-- The code of an operation in 0x2620:03. -/
def TrackOp.code : TrackOp → Nat
  | .mask => 1 | .unmask => 2 | .compensate => 3 | .uncompensate => 4 | .reset => 5

theorem TrackOp.ofCode_code (op : TrackOp) : ofCode op.code = some op := by
  cases op <;> rfl

/-- The command that writes an operation's code. -/
def TrackOp.command (op : TrackOp) (t : Nat) : Instr :=
  match op with
  | .mask => .mask t | .unmask => .unmask t | .compensate => .compensate t | .uncompensate => .uncompensate t | .reset => .trackReset t

theorem exec_trackCommand (op : TrackOp) (t : Nat) (s : State) :
    exec (op.command t) s = s.mailSdo t .download 0x2620 3 (leBytes 1 op.code) := by
  cases op <;> rfl

/-- Over a range that is not empty the command waits, with the time it came. -/
theorem Bar.trackCommand_of_range {b : Bar} (op : TrackOp) (range : b.rwN 0x2620 1 < b.rwN 0x2620 2) :
    b.trackCommand op.code = (b.queueTrackCmd op (b.rwN 0x2620 1) (b.rwN 0x2620 2) none).accept := by
  simp only [trackCommand, if_pos range, op.ofCode_code]

theorem Bar.trackCommand_of_empty {b : Bar} (code : Nat) (empty : b.rwN 0x2620 2 ≤ b.rwN 0x2620 1) :
    b.trackCommand code = b.refuse 0x06090030 0x6001 := by
  simp only [trackCommand, if_neg (Nat.not_lt.mpr empty)]

theorem Bar.entry?_trackCommand (b : Bar) : b.entry? 0x2620 3 = some (ent 0x2620 3 .u8 .wo 0 1 5) :=
  (b.entry?_eq_findEntry (by decide +kernel) (by decide)).trans (by decide +kernel)

/-- Every operation's code passes the checks of a write to 0x2620:03. -/
theorem Bar.sdoRun_trackCommand {b : Bar} (op : TrackOp) (there : b.indexExists 0x2620 = true) :
    b.sdoRun (mailRequest .download 0x2620 3 (leBytes 1 op.code)) =
      Bar.finish (mailRequest .download 0x2620 3 (leBytes 1 op.code)) (b.trackCommand op.code) := by
  have taken : b.writeDenied .mailbox (ent 0x2620 3 .u8 .wo 0 1 5) 0x2620 3 (leBytes 1 op.code) = none := by cases op <;> rfl
  have number : leNat (leBytes 1 op.code) = op.code := by cases op <;> rfl
  refine sdoRun_download rfl there b.entry?_trackCommand (by decide) taken ?_
  rw [number]
  rfl

/-- A track command over the mailbox, where the server serves it. -/
theorem Answers.of_trackCommand {s : State} (op : TrackOp) (t : Nat) (h : s.bar.serves 0x2620 = true) :
    Answers s (op.command t)
      (Bar.finish (mailRequest .download 0x2620 3 (leBytes 1 op.code)) ((s.bar.mailAt t).trackCommand op.code)) := by
  rw [← Bar.sdoRun_trackCommand op (Bar.indexExists_of_serves t h)]
  exact .of_mailSdo h (exec_trackCommand op t s)

/-! ### Deletion of a reference (R172) -/

/-- A reference is in use while it is INGESTING or an item in flight holds it. -/
def Bar.refUsed (b : Bar) (r : Reference) (handle : Nat) : Prop :=
  r.state = .ingesting ∨ ∃ i ∈ b.cap.items, i.handle = handle ∧ (i.published = false ∨ i.queued = true)

theorem Bar.refUsed_iff (b : Bar) (r : Reference) (handle : Nat) :
    b.refUsed r handle ↔ (r.state = .ingesting || b.cap.items.any fun i => i.handle = handle && i.inFlight) = true := by
  simp [refUsed, Item.inFlight]

theorem Bar.deleteCommand_unknown {b : Bar} {handle : Nat} (h : b.ref? handle = none) :
    b.deleteCommand handle = b.refuse 0x06090030 0x5048 := by
  simp [deleteCommand, deleteRefused, h]

theorem Bar.deleteCommand_used {b : Bar} {handle : Nat} {r : Reference} (h : b.ref? handle = some r) (used : b.refUsed r handle) :
    b.deleteCommand handle = b.refuse 0x08000022 0x5047 := by
  have refused : b.deleteRefused handle = 0x5047 := by
    simp only [deleteRefused, h]
    exact if_pos ((b.refUsed_iff r handle).mp used)
  simp [deleteCommand, refused]

theorem Bar.deleteCommand_free {b : Bar} {handle : Nat} {r : Reference} (h : b.ref? handle = some r) (free : ¬ b.refUsed r handle) :
    b.deleteCommand handle = (b.deleteRef handle).accept := by
  have taken : b.deleteRefused handle = 0 := by
    simp only [deleteRefused, h]
    exact if_neg (mt (b.refUsed_iff r handle).mpr free)
  simp [deleteCommand, taken]

/-- A deleted handle names no reference. -/
theorem Bar.deleteRef_ref?_same (b : Bar) (handle : Nat) : (b.deleteRef handle).ref? handle = none := by
  simp [deleteRef, ref?]

/-- Other handles name what they named. -/
theorem Bar.deleteRef_ref?_other (b : Bar) {handle h : Nat} (other : h ≠ handle) : (b.deleteRef handle).ref? h = b.ref? h := by
  simp only [deleteRef, ref?, modCap_cap, modSto_cap, List.find?_filter]
  refine find?_eq_of_agree fun r _ => ?_
  by_cases named : r.handle = h <;> simp [named, other]

theorem Bar.entry?_delete (b : Bar) : b.entry? 0x2540 9 = some (ent 0x2540 9 .u32 .wo) :=
  (b.entry?_eq_findEntry (by decide +kernel) (by decide)).trans (by decide +kernel)

/-- A handle of 32 bits passes the checks of a write to 0x2540:09. -/
theorem Bar.writeDenied_delete (b : Bar) {handle : Nat} (fits : handle < 2 ^ 32) :
    b.writeDenied .mailbox (ent 0x2540 9 .u32 .wo) 0x2540 9 (leBytes 4 handle) = none := by
  have number : (ent 0x2540 9 .u32 .wo).number (leBytes 4 handle) = handle := congrArg Nat.cast (leNat_leBytes fits)
  have atMost : (handle : Int) ≤ 0xFFFFFFFFFFFFFFFF := by omega
  have ranged : b.inRange (ent 0x2540 9 .u32 .wo) 0x2540 9 handle = true := by
    simp [inRange, ent, between, atMost]
  have inside : b.rangeDenied (ent 0x2540 9 .u32 .wo) 0x2540 9 (leBytes 4 handle) = none := by
    simp [rangeDenied, number, ranged]
  simp only [writeDenied, inside]
  rfl

theorem Bar.sdoRun_delete {b : Bar} {handle : Nat} (there : b.indexExists 0x2540 = true) (fits : handle < 2 ^ 32) :
    b.sdoRun (mailRequest .download 0x2540 9 (leBytes 4 handle)) =
      Bar.finish (mailRequest .download 0x2540 9 (leBytes 4 handle)) (b.deleteCommand handle) := by
  refine sdoRun_download rfl there b.entry?_delete (by decide) (b.writeDenied_delete fits) ?_
  rw [leNat_leBytes fits]
  rfl

/-- A delete over the mailbox, where the server serves it. -/
theorem Answers.of_delete {s : State} {handle : Nat} (t : Nat) (h : s.bar.serves 0x2540 = true) (fits : handle < 2 ^ 32) :
    Answers s (.referenceDelete t handle)
      (Bar.finish (mailRequest .download 0x2540 9 (leBytes 4 handle)) ((s.bar.mailAt t).deleteCommand handle)) := by
  rw [← Bar.sdoRun_delete (Bar.indexExists_of_serves t h) fits]
  exact .of_mailSdo h rfl

/-- Settles O40: the track commands by whether the range is empty, the delete by whether its handle is known and in use. -/
theorem trackAndReferenceCommands : Obligations.TrackAndReferenceCommands := by
  refine ⟨⟨fun s t serves => ?tracks, fun s t running => ?tracksAnswer⟩, fun s t handle serves fits => ?delete,
    fun s t running handle => ⟨_, s.mailSdo_alive t .download 0x2540 9 (leBytes 4 handle) running⟩⟩
  case tracks =>
    intro b first stop queued
    have answers (op : TrackOp) : Answers s (op.command t)
        (Bar.finish (mailRequest .download 0x2620 3 (leBytes 1 op.code)) (b.trackCommand op.code)) := .of_trackCommand op t serves
    refine ⟨fun range => ?_, fun empty => ?_⟩
    · have waits (op : TrackOp) : Answers s (op.command t) (queued op) := by
        have answered := answers op
        rwa [Bar.trackCommand_of_range op range, Bar.finish_accept] at answered
      exact ⟨waits .mask, waits .unmask, waits .compensate, waits .uncompensate, waits .reset⟩
    · have refused (op : TrackOp) : Answers s (op.command t) (b.aborts 0x2620 3 0x06090030 0x6001) := by
        have answered := answers op
        rwa [Bar.trackCommand_of_empty _ empty, Bar.finish_refuse _ _ _ _ _ (by decide)] at answered
      simpa using ⟨refused .mask, refused .unmask, refused .compensate, refused .uncompensate, refused .reset⟩
  case tracksAnswer =>
    have answered (op : TrackOp) : ∃ b' : Bar, Answers s (op.command t) b' :=
      ⟨_, (exec_trackCommand op t s).trans (s.mailSdo_alive t .download 0x2620 3 (leBytes 1 op.code) running)⟩
    exact ⟨answered .mask, answered .unmask, answered .compensate, answered .uncompensate, answered .reset⟩
  case delete =>
    intro b
    have answers : Answers s (.referenceDelete t handle)
        (Bar.finish (mailRequest .download 0x2540 9 (leBytes 4 handle)) (b.deleteCommand handle)) := .of_delete t serves fits
    refine ⟨fun unknown => ?_, fun r known => ⟨fun used => ?_, fun free => ?_⟩⟩
    · rwa [Bar.deleteCommand_unknown unknown, Bar.finish_refuse _ _ _ _ _ (by decide)] at answers
    · rwa [Bar.deleteCommand_used known used, Bar.finish_refuse _ _ _ _ _ (by decide)] at answers
    · rw [Bar.deleteCommand_free known free, Bar.finish_accept] at answers
      exact ⟨b.deleteRef handle, answers, b.deleteRef_ref?_same handle, fun h other => b.deleteRef_ref?_other other, rfl, rfl⟩

end Sys2Proof.Machine
end

section
/-! The queues of the inflate and deflate engines (chapter 8): the refusal and the queueing of a job (R248, R251), and the end of a
job of firmware, after which its engine takes the next one (R246 to R249). -/

namespace Sys2Proof.Machine

/-- A job as its engine takes it. -/
def Job.started (j : Job) : Job := { j with status := .running }

/-! ### Submission (R248, R251) -/

/-- A job that is refused at submission: its chain holds an invalid descriptor, or it is of BEST_EFFORT and too long. -/
def Job.isRefused (j : Job) (chain : List (List Byte)) : Prop :=
  (∃ d ∈ chain, leAt d 8 4 < 1024 ∨ 16777216 < leAt d 8 4 ∨ leAt d 0x1C 4 ≠ 0 ∨ leAt d 0x18 4 / 4 % 2 ^ 30 ≠ 0) ∨
    (j.deflate = true ∧ j.guaranteed = false ∧ 1048576 < j.input.length)

/-- Bits 31 to 2 of the flags are the reserved ones. -/
theorem bufferBad_iff (d : List Byte) :
    bufferBad d = true ↔ leAt d 8 4 < 1024 ∨ 16777216 < leAt d 8 4 ∨ leAt d 0x1C 4 ≠ 0 ∨ leAt d 0x18 4 / 4 % 2 ^ 30 ≠ 0 := by
  simp [bufferBad, bits, Nat.shiftRight_eq_div_pow, or_assoc]

theorem Job.tooLong_iff (j : Job) :
    j.tooLong = true ↔ j.deflate = true ∧ j.guaranteed = false ∧ 1048576 < j.input.length := by
  simp [tooLong, and_assoc]

/-- The submission's test is the refusal. -/
theorem Job.isRefused_iff (j : Job) (chain : List (List Byte)) :
    j.isRefused chain ↔ (chain.any bufferBad || j.tooLong) = true := by
  simp only [isRefused, Bool.or_eq_true, List.any_eq_true, bufferBad_iff, tooLong_iff]

section
variable {b : Bar} {j : Job} {chain : List (List Byte)}

theorem Bar.submitJob_refused (h : j.isRefused chain) :
    b.submitJob j chain = b.modCod fun c => { c with lastJob := some { j with error := 0x704D } } :=
  if_pos ((j.isRefused_iff chain).mp h)

theorem Bar.submitJob_taken (h : ¬j.isRefused chain) : b.submitJob j chain = b.queueJob j :=
  if_neg (mt (j.isRefused_iff chain).mpr h)

theorem Bar.queueJob_inflate (kind : j.deflate = false) :
    b.queueJob j = b.modCod fun c => { c with inflateQ := c.inflateQ ++ [if c.inflateQ = [] then j.started else j] } := by
  simp only [queueJob, modCod, kind, List.isEmpty_iff, Job.started]
  rfl

theorem Bar.queueJob_deflate_idle (kind : j.deflate = true) (idle : b.cod.deflateRun = none) :
    b.queueJob j = b.modCod fun c => { c with deflateRun := some j.started } := by
  simp only [queueJob, modCod, kind, idle, Job.started]
  rfl

theorem Bar.queueJob_deflate_busy (kind : j.deflate = true) (busy : b.cod.deflateRun ≠ none) :
    b.queueJob j = b.modCod fun c =>
      if j.guaranteed = true then { c with deflateG := c.deflateG ++ [j] } else { c with deflateB := c.deflateB ++ [j] } := by
  obtain ⟨run, busy⟩ := Option.ne_none_iff_exists'.mp busy
  simp only [queueJob, modCod, kind, busy]
  rfl
end

/-! ### How a job ends (R246, R248, R249, R254) -/

section
variable (j : Job) (c : List JobBuffer)

@[simp] theorem Job.withChain_owner : (j.withChain c).owner = j.owner := rfl
@[simp] theorem Job.withChain_error : (j.withChain c).error = j.error := rfl
@[simp] theorem Job.withChain_produced : (j.withChain c).produced = j.produced := rfl
@[simp] theorem Job.withChain_check : (j.withChain c).check = j.check := rfl
@[simp] theorem Job.withChain_output : (j.withChain c).output = j.output := rfl
end

/-- An inflate job that has no code ends DONE without one, its output counted and summed, or ERROR with one. -/
theorem endInflate_ends {j e : Job} (ends : endInflate j = e) :
    e.owner = j.owner ∧ (j.error = 0 → (e.status = .done ∧ e.error = 0) ∨ (e.status = .error ∧ e.error ≠ 0)) ∧
    (e.status = .done → e.check = adler32 e.output ∧ e.produced = e.output.length) := by
  subst ends
  unfold endInflate
  extract_lets +onlyGivenNames r ended w kept
  split
  next stops =>
    have code : w.stop ≠ 0 := by simpa using (Bool.and_eq_true_iff.mp stops).2
    exact ⟨rfl, fun _ => .inr ⟨rfl, code⟩, nofun⟩
  next =>
    split
    next fault => exact ⟨by simp [apply_ite Job.owner, ended], fun _ => .inr ⟨rfl, fault⟩, nofun⟩
    next =>
      refine ⟨by simp [apply_ite Job.owner, ended], fun fresh => .inl ⟨rfl, ?_⟩, fun _ => ?_⟩
      · simp [apply_ite Job.error, ended, fresh]
      · simp [apply_ite Job.check, apply_ite Job.produced, apply_ite Job.output, ended]

/-- A deflate job ends NO_GAIN with its code, ERROR, or DONE with its whole input consumed and summed. -/
theorem endDeflate_ends {depth : Nat} {j e : Job} (ends : endDeflate depth j = e) :
    e.owner = j.owner ∧ (e.status = .done ∨ e.status = .noGain ∨ e.status = .error) ∧ (e.status = .noGain → e.error = 0x704C) ∧
    (e.status = .done → e.consumed = j.input.length ∧ e.produced = e.output.length ∧ e.check = adler32 j.input ∧
      (j.wrap = true → e.output.take 2 = [0x78, 0x9C])) := by
  subst ends
  unfold endDeflate
  extract_lets +onlyGivenNames items body pad out w
  split
  next =>
    by_cases gainless : w.stop = 0x704C
    · rw [if_pos gainless]
      exact ⟨rfl, .inr (.inl rfl), fun _ => gainless, nofun⟩
    · rw [if_neg gainless]
      exact ⟨rfl, .inr (.inr rfl), nofun, nofun⟩
  next =>
    extract_lets bytes stream
    have header (wraps : j.wrap = true) : stream.take 2 = [0x78, 0x9C] := by simp [stream, wraps]
    exact ⟨rfl, .inl rfl, nofun, fun _ => ⟨rfl, rfl, rfl, header⟩⟩

/-! ### The engines after the end of a job of firmware -/

/-- The codecs after an inflate job has ended as `e`, with `rest` still to serve. -/
def Codec.inflateEnded (c : Codec) (rest : List Job) (e : Job) : Codec :=
  { c with
    inflateQ := (rest.take 1).map Job.started ++ rest.drop 1, lastJob := some e
    inflateDone := if e.status = .done then min 0xFFFFFFFF (c.inflateDone + 1) else c.inflateDone
    inflateErrors := if e.status = .done then c.inflateErrors else min 0xFFFFFFFF (c.inflateErrors + 1)
    lastError := if e.status = .done then c.lastError else e.error
    lastOffset := if e.status = .done then c.lastOffset else e.consumed
    exhausted := if e.error = 0x704B then min 0xFFFFFFFF (c.exhausted + 1) else c.exhausted }

/-- The codecs after the deflate job has ended as `e`: the next one is the first of GUARANTEED, else of BEST_EFFORT. -/
def Codec.deflateEnded (c : Codec) (e : Job) : Codec :=
  { c with
    deflateRun := ((c.deflateG ++ c.deflateB).map Job.started).head?
    deflateG := c.deflateG.drop 1, deflateB := if c.deflateG = [] then c.deflateB.drop 1 else c.deflateB, lastJob := some e
    deflateDone := if e.status = .done then min 0xFFFFFFFF (c.deflateDone + 1) else c.deflateDone
    noGain := if e.status = .noGain then min 0xFFFFFFFF (c.noGain + 1) else c.noGain
    exhausted := if e.error = 0x704B then min 0xFFFFFFFF (c.exhausted + 1) else c.exhausted }

section
variable {b : Bar} {j : Job}

theorem Bar.inflateEnd_of_queue {rest : List Job} (queue : b.cod.inflateQ = j :: rest) :
    b.inflateEnd = (b.modCod (·.inflateEnded rest (endInflate j)), some (endInflate j)) := by
  cases rest <;> simp only [inflateEnd, queue, Codec.inflateEnded, sat32_eq_min] <;> rfl

theorem Bar.deflateEnd_of_run (run : b.cod.deflateRun = some j) :
    b.deflateEnd = (b.modCod (·.deflateEnded (endDeflate (b.rwN 0x2710 1) j)), some (endDeflate (b.rwN 0x2710 1) j)) := by
  cases guaranteed : b.cod.deflateG with
  | cons k ks => simp [deflateEnd, run, Codec.deflateEnded, guaranteed, modCod, sat32_eq_min, Job.started]
  | nil =>
    cases bestEffort : b.cod.deflateB <;>
      simp [deflateEnd, run, Codec.deflateEnded, guaranteed, bestEffort, modCod, sat32_eq_min, Job.started]

theorem Bar.inflateDone_idle (idle : b.cod.inflateQ = []) : b.inflateDone = b := by
  simp only [inflateDone, inflateEnd, idle]

theorem Bar.deflateDone_idle (idle : b.cod.deflateRun = none) : b.deflateDone = b := by
  simp only [deflateDone, deflateEnd, idle]

/-- What a job of firmware gives goes nowhere else. -/
theorem Bar.inflateDone_firmware {rest : List Job} (queue : b.cod.inflateQ = j :: rest) (firmware : j.owner = .firmware) :
    b.inflateDone = b.modCod (·.inflateEnded rest (endInflate j)) := by
  simp only [inflateDone, inflateEnd_of_queue queue, (endInflate_ends rfl).1, firmware]

theorem Bar.deflateDone_firmware (run : b.cod.deflateRun = some j) (firmware : j.owner = .firmware) :
    b.deflateDone = b.modCod (·.deflateEnded (endDeflate (b.rwN 0x2710 1) j)) := by
  simp only [deflateDone, deflateEnd_of_run run, (endDeflate_ends rfl).1, firmware]
end

/-- Settles O42: a submission by whether it is refused, and by its engine and whether that is idle; an end of a job by whether the
engine has one, which ends as the engine's own rules say. -/
theorem deflateEnginesServeTheirQueues : Obligations.DeflateEnginesServeTheirQueues := by
  intro s t running b c becomes started next
  obtain ⟨submits, inflates, deflates, -⟩ := codecCommandsAnswer s t running
  refine ⟨fun descriptor input chain => ?submission, fun idle => ?_, fun j rest queue firmware => ?inflateEnd,
    fun idle => ?_, fun j run firmware => ?deflateEnd⟩
  case submission =>
    intro j invalid
    have submitted : Answers s (.jobSubmit t descriptor input chain) (b.submitJob j chain) := submits descriptor input chain
    refine ⟨rfl, fun refused => ?_, fun taken kind => ?_, fun taken kind idle => ?_, fun taken kind busy => ?_⟩
    · rwa [Bar.submitJob_refused refused] at submitted
    · rwa [Bar.submitJob_taken taken, Bar.queueJob_inflate kind] at submitted
    · rwa [Bar.submitJob_taken taken, Bar.queueJob_deflate_idle kind idle] at submitted
    · rwa [Bar.submitJob_taken taken, Bar.queueJob_deflate_busy kind busy] at submitted
  case inflateEnd =>
    rw [Bar.inflateDone_firmware queue firmware] at inflates
    obtain ⟨owner, codes, done⟩ := endInflate_ends (j := j) rfl
    exact ⟨endInflate j, owner.trans firmware, codes, done, inflates⟩
  case deflateEnd =>
    rw [Bar.deflateDone_firmware run firmware] at deflates
    obtain ⟨owner, statuses, gainless, done⟩ := endDeflate_ends (depth := b.rwN 0x2710 1) (j := j) rfl
    exact ⟨endDeflate (b.rwN 0x2710 1) j, owner.trans firmware, statuses, gainless, done, deflates⟩
  · rw [Bar.inflateDone_idle idle] at inflates
    exact inflates
  · rw [Bar.deflateDone_idle idle] at deflates
    exact deflates

end Sys2Proof.Machine
end

section
/-! The events of flash storage (chapter 9): they are answered. -/

namespace Sys2Proof.Machine

/-- Settles O43: the running bar acts on the mount, the end of a FORMAT, the power losses, the checkpoints and the journal, the reads
and failures of NAND, the rings, the patrol, the ledger and the staging, in this order. -/
theorem storageCommandsAnswer : Obligations.StorageCommandsAnswer := by
  intro s t b running
  exact ⟨fun found ms => .of_live (·.mountNow found ms) running rfl,
    .of_live (·.formatDone) running rfl,
    .of_live (·.pfailAccepted) running rfl,
    .of_live (·.sealDone) running rfl,
    .of_live (·.sealResume) running rfl,
    .of_live (·.critSealResume) running rfl,
    .of_live (·.checkpoint) running rfl,
    .of_live (·.journalFlush) running rfl,
    fun handle data => .of_live (·.stripeDelivered handle data) running rfl,
    fun handle data pages => .of_live (·.stripeBudget handle data pages) running rfl,
    fun handle stripe lost => .of_live (·.spoolRetryDone handle stripe lost) running rfl,
    fun place group => .of_live (·.retire place.lun place.plane group) running rfl,
    fun place group => .of_live (·.retire place.lun place.plane group) running rfl,
    fun group => .of_live (·.eraseDone group) running rfl,
    fun evidence => .of_live (·.reclaim (if evidence then .evidence else .archive)) running rfl,
    fun group => .of_live (·.compact group) running rfl,
    fun group place hard soft1 soft2 soft3 =>
      .of_live (·.patrolRead group place (codewords hard soft1 soft2 soft3)) running rfl,
    .of_live (fun b => b.patrolEnd b.flashHottest) running rfl,
    .of_live (·.sealEntry) running rfl,
    fun seq => .of_live (·.itemEntry seq) running rfl,
    .of_live (·.wearAhead) running rfl,
    .of_live (·.stagingWrite) running rfl,
    .of_live (·.stagingRoom) running rfl,
    fun n => .of_live (·.committed n) running rfl⟩

end Sys2Proof.Machine
end

section
/-! FORMAT (R264, R265) and the pins of items (R273): what the journal's and the checkpoints' work leaves of storage, what a FORMAT
empties, whom a PIN and an UNPIN reach, and how the dictionary's commands are answered. -/

namespace Sys2Proof.Machine

/-! ### The work on groups, journal and checkpoints (R276, R460) -/

/-- From s to s' nothing changes but the groups, the journal, the checkpoints and the anchor. -/
def Storage.MetadataOnly (s s' : Storage) : Prop :=
  s' = { s with
    groups := s'.groups, orders := s'.orders, openSince := s'.openSince
    journal := s'.journal, journalFrom := s'.journalFrom, journalPages := s'.journalPages
    checkpointAt := s'.checkpointAt, checkpoints := s'.checkpoints, slots := s'.slots, ring := s'.ring }

section
variable {s s' u : Storage}

theorem Storage.MetadataOnly.refl (s : Storage) : s.MetadataOnly s := rfl

theorem Storage.MetadataOnly.trans (first : s.MetadataOnly s') (second : s'.MetadataOnly u) : s.MetadataOnly u := by
  unfold MetadataOnly at first second ⊢
  rw [first] at second
  exact second

theorem Storage.MetadataOnly.ite {p : Prop} [Decidable p] (yes : s.MetadataOnly s') (no : s.MetadataOnly u) :
    s.MetadataOnly (if p then s' else u) := by
  split
  · exact yes
  · exact no

theorem Storage.MetadataOnly.state_eq (h : s.MetadataOnly s') : s'.state = s.state := Eq.trans (congrArg Storage.state h) rfl
theorem Storage.MetadataOnly.pins_eq (h : s.MetadataOnly s') : s'.pins = s.pins := Eq.trans (congrArg Storage.pins h) rfl
theorem Storage.MetadataOnly.chunks_eq (h : s.MetadataOnly s') : s'.chunks = s.chunks := Eq.trans (congrArg Storage.chunks h) rfl
theorem Storage.MetadataOnly.ledger_eq (h : s.MetadataOnly s') : s'.ledger = s.ledger := Eq.trans (congrArg Storage.ledger h) rfl
theorem Storage.MetadataOnly.nextIndex_eq (h : s.MetadataOnly s') : s'.nextIndex = s.nextIndex :=
  Eq.trans (congrArg Storage.nextIndex h) rfl
end

section
variable (s : Storage)

/-- Room for data is found in an open group, or in a free one that is opened. -/
theorem Storage.allocate_metadataOnly {s' : Storage} {st : StStream} {pool moving : Bool} {n g place : Nat}
    (found : s.allocate st pool moving n = some (g, place, s')) : s.MetadataOnly s' := by
  unfold allocate at found
  split at found
  · cases found
    rfl
  · split at found
    · cases found
    · cases found
      rfl

theorem Storage.flush_metadataOnly : s.MetadataOnly s.flush := by
  unfold flush
  refine .ite (.refl s) ?_
  extract_lets emptied
  have empties : s.MetadataOnly emptied := rfl
  split
  next found => exact empties.trans (emptied.allocate_metadataOnly found)
  next => exact empties

theorem Storage.record_metadataOnly (now : Nat) (r : JournalRec) : s.MetadataOnly (s.record now r) := by
  unfold record
  extract_lets ready
  have writes : s.MetadataOnly ready := .ite s.flush_metadataOnly (.refl s)
  exact writes.trans rfl

theorem Storage.eraseStart_metadataOnly (id now : Nat) : s.MetadataOnly (s.eraseStart id now) := by
  unfold eraseStart
  refine .trans (.trans ?_ (record_metadataOnly ..)) (flush_metadataOnly _)
  rfl

theorem Storage.eraseMetadata_metadataOnly (now : Nat) : s.MetadataOnly (s.eraseMetadata now) := by
  unfold eraseMetadata
  exact List.foldlRecOn _ _ (.refl s) fun _ kept g _ => kept.trans (eraseStart_metadataOnly _ g.id now)

theorem Storage.mark_metadataOnly (left : Nat) : s.MetadataOnly (s.mark left) := rfl

theorem Storage.checkpoint_metadataOnly (now : Nat) : s.MetadataOnly (s.checkpoint now) := by
  unfold checkpoint
  extract_lets flushed n
  split
  next => exact s.flush_metadataOnly.trans rfl
  next found =>
    refine .trans ?_ (eraseMetadata_metadataOnly _ now)
    exact s.flush_metadataOnly.trans <| (flushed.allocate_metadataOnly found).trans rfl
end

/-! ### The ledger's entry of a FORMAT (R265, R289) -/

/-- From s to s' an entry joins the ledger, before the earlier ones and under the next index; the state, the pins and the chunks stay. -/
structure Storage.EntryAppended (s s' : Storage) : Prop where
  ledger : ∃ entry, s'.ledger = (s.nextIndex, entry) :: s.ledger
  nextIndex : s'.nextIndex = s.nextIndex + 1
  state : s'.state = s.state
  pins : s'.pins = s.pins
  chunks : s'.chunks = s.chunks

theorem Bar.appendBody_entryAppended (b : Bar) (type : Nat) (body : List Byte → List Byte) :
    b.sto.EntryAppended (b.appendBody type body).sto := by
  unfold appendBody
  extract_lets s head entry index room mark appended due
  split
  · exact ⟨⟨entry, rfl⟩, rfl, rfl, rfl, rfl⟩
  · split <;> exact ⟨⟨entry, rfl⟩, rfl, rfl, rfl, rfl⟩

theorem Bar.appendEntry_entryAppended (b : Bar) (type : Nat) (body : List Byte) : b.sto.EntryAppended (b.appendEntry type body).sto :=
  b.appendBody_entryAppended type fun _ => body

theorem Bar.appendEntry_handsOver (b : Bar) (type : Nat) (body : List Byte) : b.HandsOver (b.appendEntry type body) :=
  b.appendBody_handsOver type fun _ => body

/-! ### FORMAT (R264, R265) -/

section
variable {b : Bar}

theorem Bar.rwN_putRw (b : Bar) (index sub n : Nat) : (b.putRw index sub (.num n)).rwN index sub = n := by
  simp [rwN, rwI, Store.numAt, putRw, Store.find_put_self]

/-- From b to c a FORMAT has emptied references, pins, chunks and ledger, which holds n entries anew; the RW parameters stay. -/
structure Bar.Formatted (n : Nat) (b c : Bar) : Prop where
  rwN : ∀ index sub, c.rwN index sub = b.rwN index sub
  state : c.sto.state = .formatting
  refs : c.cap.refs = []
  pins : c.sto.pins = []
  chunks : c.sto.chunks = []
  ledger : c.sto.ledger.length = n
  nextIndex : c.sto.nextIndex = n

section
variable {c : Bar} {n : Nat}

theorem Bar.HandsOver.rwN_eq (h : b.HandsOver c) (index sub : Nat) : c.rwN index sub = b.rwN index sub :=
  Eq.trans (congrArg (·.rwN index sub) h) rfl

theorem Bar.HandsOver.refs_eq (h : b.HandsOver c) : c.cap.refs = b.cap.refs := Eq.trans (congrArg (·.cap.refs) h) rfl

/-- A ledger entry formed then is one more. -/
theorem Bar.Formatted.appendEntry (emptied : b.Formatted n c) (type : Nat) (body : List Byte) :
    b.Formatted (n + 1) (c.appendEntry type body) :=
  have others := c.appendEntry_handsOver type body
  have entry := c.appendEntry_entryAppended type body
  have ⟨_, ledger⟩ := entry.ledger
  { rwN := fun index sub => (others.rwN_eq index sub).trans (emptied.rwN index sub)
    state := entry.state.trans emptied.state
    refs := others.refs_eq.trans emptied.refs
    pins := entry.pins.trans emptied.pins
    chunks := entry.chunks.trans emptied.chunks
    ledger := (congrArg List.length ledger).trans (congrArg (· + 1) emptied.ledger)
    nextIndex := entry.nextIndex.trans (congrArg (· + 1) emptied.nextIndex) }

theorem Bar.Formatted.modSto (emptied : b.Formatted n c) {f : Storage → Storage} (metadata : c.sto.MetadataOnly (f c.sto)) :
    b.Formatted n (c.modSto f) :=
  { rwN := emptied.rwN
    state := metadata.state_eq.trans emptied.state
    refs := emptied.refs
    pins := metadata.pins_eq.trans emptied.pins
    chunks := metadata.chunks_eq.trans emptied.chunks
    ledger := (congrArg List.length metadata.ledger_eq).trans emptied.ledger
    nextIndex := metadata.nextIndex_eq.trans emptied.nextIndex }
end

/-- A FORMAT leaves its own entry 0, and a checkpoint that holds it. -/
theorem Bar.formatWith_formatted (b : Bar) (q : FormatValues) : b.Formatted 1 (b.formatWith q) := by
  unfold formatWith
  extract_lets rest emptied cap unreferenced
  have empties : b.Formatted 0 unreferenced := ⟨fun _ _ => rfl, rfl, rfl, rfl, rfl, rfl, rfl⟩
  exact (empties.appendEntry 5 _).modSto ((Storage.checkpoint_metadataOnly ..).trans (Storage.mark_metadataOnly ..))

/-- The values of 0x2801 that a FORMAT takes. -/
def Bar.formatValues (b : Bar) : FormatValues := ⟨b.rwN 0x2801 1, b.rwN 0x2801 2, b.rwN 0x2801 3, b.rwN 0x2801 4⟩

/-- The key of FORMAT is cleared. -/
def Bar.keyCleared (b : Bar) : Bar := b.putRw 0x2800 3 (.num 0)

/-- A FORMAT does its work on media that is there, and that neither mounts nor seals. -/
theorem Bar.format_works (present : b.sto.state ≠ .absent) (mounted : b.sto.state ≠ .mounting) (open_ : b.sto.state ≠ .sealing) :
    b.format = b.keyCleared.formatWith b.keyCleared.formatValues := by
  unfold format
  extract_lets cleared q
  have same : cleared.sto.state = b.sto.state := rfl
  split
  next absent => exact absurd (same.symm.trans absent) present
  next mounting => exact absurd (same.symm.trans mounting) mounted
  next sealing => exact absurd (same.symm.trans sealing) open_
  next => rfl

/-- While a mount or a sealing runs, a FORMAT waits for its end (log entry 145). -/
theorem Bar.format_waits (busy : b.sto.state = .mounting ∨ b.sto.state = .sealing) :
    b.format = b.keyCleared.modSto fun s => { s with formatPending := some b.keyCleared.formatValues } := by
  have same : (b.putRw 0x2800 3 (.num 0)).sto.state = b.sto.state := rfl
  obtain mounting | sealing := busy
  · simp only [format, same, mounting]
    rfl
  · simp only [format, same, sealing]
    rfl

theorem Bar.formatCommand_keyless (keyless : b.rwN 0x2800 3 ≠ 0x464F524D) : b.formatCommand = b.refuse 0x08000020 0x8003 :=
  if_pos keyless

theorem Bar.formatCommand_taken (key : b.rwN 0x2800 3 = 0x464F524D) (quotas : b.quotaInvalid = false) :
    b.formatCommand = b.format.accept := by
  simp [formatCommand, key, quotas]
end

/-! ### Pins (R273) -/

section
variable {b : Bar} {session seq : Nat} {cs : List Nat}

@[simp] theorem Storage.markPinned_pins (s : Storage) (session seq : Nat) (on : Bool) :
    (s.markPinned session seq on).pins = s.pins := by
  unfold markPinned
  split <;> rfl

@[simp] theorem Storage.markPinned_stored (s : Storage) (session seq : Nat) (on : Bool) :
    (s.markPinned session seq on).stored = s.stored := by
  unfold markPinned
  split <;> rfl

/-- The item joins the pins. -/
def Bar.pinAdded (b : Bar) (session seq : Nat) : Bar :=
  b.modSto fun s => ({ s with pins := (session, seq) :: s.pins } : Storage).markPinned session seq true

theorem Bar.mem_pinAdded_pins {x : Nat × Nat} : x ∈ (b.pinAdded session seq).sto.pins ↔ x = (session, seq) ∨ x ∈ b.sto.pins := by
  simp [pinAdded]

theorem Bar.pinAdded_stored : (b.pinAdded session seq).sto.stored = b.sto.stored := by
  simp [pinAdded]

theorem Bar.pinItem_pinned (pinned : (session, seq) ∈ b.sto.pins) : b.pinItem session seq cs = (b, true) := if_pos pinned

/-- The pin of another item is added, or refused and logged. -/
theorem Bar.pinItem_unpinned (unpinned : (session, seq) ∉ b.sto.pins) :
    b.pinItem session seq cs = (b.pinAdded session seq, true) ∨ b.pinItem session seq cs = (b.logEvent 0x8030 0, false) := by
  unfold pinItem
  rw [if_neg unpinned]
  extract_lets frames added
  split
  · exact .inl rfl
  · exact .inr rfl

/-- A pin that is taken joins the pins, and what is stored stays. -/
theorem Bar.pinItem_taken (taken : (b.pinItem session seq cs).2 = true) :
    (∀ x, x ∈ (b.pinItem session seq cs).1.sto.pins ↔ x = (session, seq) ∨ x ∈ b.sto.pins) ∧
    (b.pinItem session seq cs).1.sto.stored = b.sto.stored := by
  by_cases pinned : (session, seq) ∈ b.sto.pins
  · rw [pinItem_pinned pinned]
    exact ⟨fun x => ⟨.inr, fun held => held.elim (fun same => same ▸ pinned) id⟩, rfl⟩
  · obtain added | refused := pinItem_unpinned (cs := cs) pinned
    · rw [added]
      exact ⟨fun x => mem_pinAdded_pins, pinAdded_stored⟩
    · simp [refused] at taken

theorem Bar.unpinItem_unpinned (unpinned : (session, seq) ∉ b.sto.pins) : b.unpinItem session seq = b := if_pos unpinned

/-- An UNPIN takes its item off the pins, and no other. -/
theorem Bar.mem_unpinItem_pins {x : Nat × Nat} :
    x ∈ (b.unpinItem session seq).sto.pins ↔ x ∈ b.sto.pins ∧ x ≠ (session, seq) := by
  by_cases pinned : (session, seq) ∈ b.sto.pins
  · simp [unpinItem, pinned, Storage.dropPool]
  · rw [unpinItem_unpinned pinned]
    exact ⟨fun held => ⟨held, fun same => pinned (same ▸ held)⟩, And.left⟩

theorem Bar.pinCommand_unknown (unknown : b.sto.pinKnown (b.rwN 0x2805 1) (b.rwN 0x2805 2) = none) (code : Nat) :
    b.pinCommand code = b.refuse 0x06090030 0x8005 := by
  simp [pinCommand, unknown]

theorem Bar.pinCommand_pin (known : b.sto.pinKnown (b.rwN 0x2805 1) (b.rwN 0x2805 2) = some cs)
    (taken : (b.pinItem (b.rwN 0x2805 1) (b.rwN 0x2805 2) cs).2 = true) :
    b.pinCommand 1 = (b.pinItem (b.rwN 0x2805 1) (b.rwN 0x2805 2) cs).1.accept := by
  simp [pinCommand, known, taken]

theorem Bar.pinCommand_unpin (known : b.sto.pinKnown (b.rwN 0x2805 1) (b.rwN 0x2805 2) = some cs) :
    b.pinCommand 2 = (b.unpinItem (b.rwN 0x2805 1) (b.rwN 0x2805 2)).accept := by
  simp [pinCommand, known]
end

/-! ### The commands over the mailbox -/

section
variable {b : Bar}

theorem Bar.entry?_format (b : Bar) : b.entry? 0x2800 2 = some (ent 0x2800 2 .u8 .wo 0 1 1) :=
  (b.entry?_eq_findEntry (by decide +kernel) (by decide)).trans (by decide +kernel)

theorem Bar.entry?_pin (b : Bar) : b.entry? 0x2805 3 = some (ent 0x2805 3 .u8 .wo 0 1 2) :=
  (b.entry?_eq_findEntry (by decide +kernel) (by decide)).trans (by decide +kernel)

/-- A write that a check denies is answered with that check's codes, and has no effect. -/
theorem Bar.sdoRun_denied {index sub abort detail : Nat} {v : List Byte} {e : Entry}
    (other : isArm (mailRequest .download index sub v) = false) (there : b.indexExists index = true)
    (entry : b.entry? index sub = some e) (writable : e.acc ≠ .ro) (denied : b.writeDenied .mailbox e index sub v = some (abort, detail))
    (unkeyed : b.keySpent index sub detail = b) (code : abort ≠ 0) :
    b.sdoRun (mailRequest .download index sub v) = b.aborts index sub abort detail := by
  have run : b.sdoDo (mailRequest .download index sub v) = b.refuse abort detail := by
    simp only [sdoDo, mailRequest, locate_of_entry there entry, if_neg writable, denied, unkeyed]
  simp only [sdoRun]
  rw [if_neg (by simp [mailRequest]), if_neg (by simp [other]), run, finish_refuse b index sub detail v code]

/-- Outside PRE-OP a FORMAT is denied by its state (R265, R497 step 5). -/
theorem Bar.sdoRun_format_denied (there : b.indexExists 0x2800 = true) (al : b.ecat.al ≠ .preop) :
    b.sdoRun (mailRequest .download 0x2800 2 (leBytes 1 1)) = b.aborts 0x2800 2 0x08000022 0x8002 := by
  have denied : b.writeDenied .mailbox (ent 0x2800 2 .u8 .wo 0 1 1) 0x2800 2 (leBytes 1 1) = some (0x08000022, 0x8002) := by
    simp [writeDenied, benchDenied, stateDenied, al, preopCode]
  exact sdoRun_denied rfl there b.entry?_format (by decide) denied rfl (by decide)

theorem Bar.sdoRun_format (there : b.indexExists 0x2800 = true) (al : b.ecat.al = .preop) :
    b.sdoRun (mailRequest .download 0x2800 2 (leBytes 1 1)) =
      Bar.finish (mailRequest .download 0x2800 2 (leBytes 1 1)) b.formatCommand := by
  have allowed : b.stateDenied .mailbox (ent 0x2800 2 .u8 .wo 0 1 1) 0x2800 2 (leBytes 1 1) = none := by
    simp [stateDenied, al, engineBusy, timerBusy, between]
  have taken : b.writeDenied .mailbox (ent 0x2800 2 .u8 .wo 0 1 1) 0x2800 2 (leBytes 1 1) = none := by
    simp only [writeDenied, allowed]
    rfl
  exact sdoRun_download rfl there b.entry?_format (by decide) taken rfl

/-- The codes of PIN and of UNPIN pass the checks of a write to 0x2805:03. -/
theorem Bar.sdoRun_pin {code : Nat} (there : b.indexExists 0x2805 = true) (valid : code = 1 ∨ code = 2) :
    b.sdoRun (mailRequest .download 0x2805 3 (leBytes 1 code)) =
      Bar.finish (mailRequest .download 0x2805 3 (leBytes 1 code)) (b.pinCommand code) := by
  obtain rfl | rfl := valid
  · exact sdoRun_download rfl there b.entry?_pin (by decide) rfl rfl
  · exact sdoRun_download rfl there b.entry?_pin (by decide) rfl rfl
end

section
variable {s : State} {t : Nat}

/-- FORMAT over the mailbox in PRE-OP, where the server serves it. -/
theorem Answers.of_format (serves : s.bar.serves 0x2800 = true) (al : (s.bar.mailAt t).ecat.al = .preop) :
    Answers s (.format t) (Bar.finish (mailRequest .download 0x2800 2 (leBytes 1 1)) (s.bar.mailAt t).formatCommand) := by
  rw [← Bar.sdoRun_format (Bar.indexExists_of_serves t serves) al]
  exact .of_mailSdo serves rfl

theorem Answers.of_pin (serves : s.bar.serves 0x2805 = true) :
    Answers s (.pin t) (Bar.finish (mailRequest .download 0x2805 3 (leBytes 1 1)) ((s.bar.mailAt t).pinCommand 1)) := by
  rw [← Bar.sdoRun_pin (Bar.indexExists_of_serves t serves) (.inl rfl)]
  exact .of_mailSdo serves rfl

theorem Answers.of_unpin (serves : s.bar.serves 0x2805 = true) :
    Answers s (.unpin t) (Bar.finish (mailRequest .download 0x2805 3 (leBytes 1 2)) ((s.bar.mailAt t).pinCommand 2)) := by
  rw [← Bar.sdoRun_pin (Bar.indexExists_of_serves t serves) (.inr rfl)]
  exact .of_mailSdo serves rfl
end

/-- Settles O44: FORMAT by the order of its checks and by what storage does, PIN and UNPIN by whether the item is known and pinned. -/
theorem formatAndPins : Obligations.FormatAndPins := by
  refine ⟨⟨fun s t serves => ?format, fun s t serves => ?pins⟩, fun s t running => ?answered⟩
  case format =>
    intro b
    have answers (al : b.ecat.al = .preop) : Answers s (.format t)
        (Bar.finish (mailRequest .download 0x2800 2 (leBytes 1 1)) b.formatCommand) := .of_format serves al
    refine ⟨fun al => ?_, fun al keyless => ?_, fun al key quotas present mounted open_ => ?_, fun al key quotas busy => ?_⟩
    · rw [← Bar.sdoRun_format_denied (Bar.indexExists_of_serves t serves) al]
      exact .of_mailSdo serves rfl
    · have answered := answers al
      rwa [Bar.formatCommand_keyless keyless, Bar.finish_refuse _ _ _ _ _ (by decide)] at answered
    · have answered := answers al
      rw [Bar.formatCommand_taken key quotas, Bar.finish_accept, Bar.format_works present mounted open_] at answered
      have done := b.keyCleared.formatWith_formatted b.keyCleared.formatValues
      have cleared : b.keyCleared.rwN 0x2800 3 = 0 := b.rwN_putRw 0x2800 3 0
      exact ⟨_, answered, (done.rwN ..).trans cleared, done.state, done.refs, done.pins, done.chunks, done.ledger, done.nextIndex⟩
    · have answered := answers al
      rwa [Bar.formatCommand_taken key quotas, Bar.finish_accept, Bar.format_waits busy] at answered
  case pins =>
    intro b item
    have pin : Answers s (.pin t) (Bar.finish (mailRequest .download 0x2805 3 (leBytes 1 1)) (b.pinCommand 1)) := .of_pin serves
    have unpin : Answers s (.unpin t) (Bar.finish (mailRequest .download 0x2805 3 (leBytes 1 2)) (b.pinCommand 2)) := .of_unpin serves
    refine ⟨fun unknown => ?_, fun cs known => ?_⟩
    · rw [Bar.pinCommand_unknown unknown, Bar.finish_refuse _ _ _ _ _ (by decide)] at pin unpin
      exact ⟨pin, unpin⟩
    · rw [Bar.pinCommand_unpin known, Bar.finish_accept] at unpin
      have pins (taken : (b.pinItem item.1 item.2 cs).2 = true) :
          Answers s (.pin t) ((b.pinItem item.1 item.2 cs).1.responds 0x2805 3 0 []) := by
        rwa [Bar.pinCommand_pin known taken, Bar.finish_accept] at pin
      refine ⟨fun pinned => ?_, fun unpinned => ?_, ⟨_, unpin, ?_, fun x other => ?_⟩, fun taken => ?_⟩
      · have same : b.pinItem item.1 item.2 cs = (b, true) := Bar.pinItem_pinned pinned
        simpa only [same] using pins (congrArg Prod.snd same)
      · rwa [Bar.unpinItem_unpinned unpinned] at unpin
      · exact fun held => (Bar.mem_unpinItem_pins.mp held).2 rfl
      · exact Bar.mem_unpinItem_pins.trans (and_iff_left other)
      · obtain ⟨held, stored⟩ := Bar.pinItem_taken taken
        exact ⟨_, pins taken, (held item).mpr (.inl rfl), fun x other => (held x).trans (or_iff_right other), stored⟩
  case answered =>
    exact ⟨⟨_, s.mailSdo_alive t .download 0x2800 2 (leBytes 1 1) running⟩,
      ⟨_, s.mailSdo_alive t .download 0x2805 3 (leBytes 1 1) running⟩,
      ⟨_, s.mailSdo_alive t .download 0x2805 3 (leBytes 1 2) running⟩⟩

end Sys2Proof.Machine
end

section
/-! The data plane (chapter 10): its events are answered, what a link change leaves (R299), and that what a bar sends, and the end of an
upload's container, leave the same peers in session, so that a timeout ends its own session alone (R309). -/

namespace Sys2Proof.Machine

/-- Settles O45: the running bar acts on each datagram, each timer of a session, each link change and each gate entry, in this order. -/
theorem deliveryCommandsAnswer : Obligations.DeliveryCommandsAnswer := by
  intro s t b running
  exact ⟨fun rx => .of_live (·.hello rx) running rfl,
    fun rx => .of_live (·.receive rx (onlyType 0 3 fun b h => b.closeSession h.peer 0x9023)) running rfl,
    fun k => .of_live (·.keepalive k.val) running rfl,
    fun rx => .of_live (·.receive rx fun b _ => b) running rfl,
    fun k => .of_live (·.sessionTimeout k.val) running rfl,
    fun rx => .of_live (·.receive rx (onlyType 0 5 Bar.replay)) running rfl,
    fun rx more => .of_live (·.benchReceive rx more) running rfl,
    fun rx => .of_live (·.receive rx (onlyType 7 1 Bar.spoolBegin)) running rfl,
    fun rx => .of_live (·.receive rx (onlyType 7 2 Bar.spoolData)) running rfl,
    fun k => .of_live (·.spoolAck k.val) running rfl,
    fun k => .of_live (·.uploadTimeout k.val) running rfl,
    fun rx => .of_live (·.receive rx (onlyType 8 1 Bar.readbackRequest)) running rfl,
    fun rx => .of_live (·.receive rx (onlyType 8 2 Bar.credit)) running rfl,
    fun rx => .of_live (·.receive rx (onlyType 2 1 Bar.nozzleRecords)) running rfl,
    fun rx => .of_live (·.receive rx (onlyType 2 1 Bar.nozzleRecords)) running rfl,
    fun rx => .of_live (·.kspMalformed rx) running rfl,
    fun p mac sender target => .of_live (·.arpRequest p.port p.tag mac sender target) running rfl,
    fun p sender target => .of_live (·.neighbourSolicitation p.port p.tag p.fragment sender target) running rfl,
    fun p v6 sender target rest => .of_live (·.echoRequest p.port p.tag v6 p.fragment sender target rest) running rfl,
    fun p => .of_live (·.peerDelayRequest p) running rfl,
    fun p => .of_live (·.linkDown p) running rfl,
    fun p => .of_live (·.linkUp p) running rfl,
    fun p => .of_live (fun b => ((b.gateEntryStart p).benchResume p).readbackResume p) running rfl⟩

/-! ### Links (R299) -/

section
variable {b : Bar} {p : Fin 4}

theorem Bar.modPort_same (b : Bar) (p : Fin 4) (f : Port → Port) : (b.modPort p f).dlv.ports[p] = f b.dlv.ports[p] := vmod_same ..

theorem Bar.modPort_other (b : Bar) {p o : Fin 4} (f : Port → Port) (other : o ≠ p) : (b.modPort p f).dlv.ports[o] = b.dlv.ports[o] :=
  vmod_other _ f other

/-- The bar with a port marked down, its queue discarded and counted. -/
def Bar.linkLost (b : Bar) (p : Fin 4) : Bar :=
  (b.modPort p fun q => { q with up := false, queue := [] }).modDlv fun d =>
    { d with discarded := min 0xFFFFFFFF (b.dlv.discarded + (b.dlv.ports[p]).queue.length) }

theorem Bar.linkLost_same (b : Bar) (p : Fin 4) : (b.linkLost p).dlv.ports[p] = { b.dlv.ports[p] with up := false, queue := [] } :=
  b.modPort_same p _

theorem Bar.linkLost_other (b : Bar) {p o : Fin 4} (other : o ≠ p) : (b.linkLost p).dlv.ports[o] = b.dlv.ports[o] :=
  b.modPort_other _ other

/-- The bar with a port marked up, from now on free to send. -/
def Bar.linkHeld (b : Bar) (p : Fin 4) : Bar := b.modPort p fun q => { q with up := true, free := max q.free (25 * b.now) }

theorem Bar.linkDown_of_up (up : (b.dlv.ports[p]).up = true) : b.linkDown p = (b.linkLost p).logEvent 0x9024 0 := if_pos up

theorem Bar.linkDown_of_down (down : (b.dlv.ports[p]).up = false) : b.linkDown p = b := by
  simp only [linkDown, down, Bool.false_eq_true, if_false]

theorem Bar.linkUp_of_down (down : (b.dlv.ports[p]).up = false) (on : b.portOn p = true) :
    b.linkUp p = (b.linkHeld p).logEvent 0x9025 0 := by
  simp only [linkUp, down, on]
  rfl

theorem Bar.linkUp_of_up_or_off (idle : (b.dlv.ports[p]).up = true ∨ b.portOn p = false) : b.linkUp p = b := by
  unfold linkUp
  obtain up | off := idle
  · simp only [up, Bool.not_true, Bool.and_false, Bool.false_eq_true, if_false]
  · simp only [off, Bool.false_and, Bool.false_eq_true, if_false]
end

/-! ### Who is in session -/

/-- From b to c the same peers have sessions, in the same order. -/
def Bar.SamePeers (b c : Bar) : Prop := c.dlv.sessions.map (·.peer) = b.dlv.sessions.map (·.peer)

section
variable {b c d : Bar}

theorem Bar.SamePeers.refl (b : Bar) : b.SamePeers b := rfl

theorem Bar.SamePeers.trans (first : b.SamePeers c) (second : c.SamePeers d) : b.SamePeers d := Eq.trans second first

theorem Bar.SamePeers.ite {p : Prop} [Decidable p] (yes : b.SamePeers c) (no : b.SamePeers d) : b.SamePeers (if p then c else d) := by
  split
  · exact yes
  · exact no

/-- A peer has a session when it is among the peers that have one. -/
theorem Bar.session?_isSome_iff (b : Bar) (k : Nat) : (b.session? k).isSome = true ↔ k ∈ b.dlv.sessions.map (·.peer) := by
  simp [session?]

theorem Bar.SamePeers.session?_isSome (h : b.SamePeers c) (k : Nat) : (c.session? k).isSome = (b.session? k).isSome := by
  rw [Bool.eq_iff_iff, Bar.session?_isSome_iff, Bar.session?_isSome_iff, h]
end

/-! #### What a port sends -/

section
variable (b : Bar)

theorem Bar.modSession_samePeers (k : Nat) {f : Session → Session} (keeps : ∀ s, (f s).peer = s.peer) :
    b.SamePeers (b.modSession k f) := by
  simp [SamePeers, modSession, Function.comp_def, apply_ite Session.peer, keeps]

theorem Bar.logLimited_samePeers (code unit arg period : Nat) : b.SamePeers (b.logLimited code unit arg period) := by
  unfold logLimited
  exact .ite (.refl b) rfl

theorem Bar.lateDatagrams_samePeers (n : Nat) : b.SamePeers (b.lateDatagrams n) := by
  unfold lateDatagrams
  exact .trans (c := { b with dlv := _ }) rfl (logLimited_samePeers ..)

theorem Bar.lateEvents_samePeers (n : Nat) (windows : List (Nat × Nat)) : b.SamePeers (b.lateEvents n windows) := by
  unfold lateEvents
  exact List.foldlRecOn windows _ (motive := b.SamePeers) rfl fun c kept _ _ => kept.trans (.ite (.refl c) rfl)

theorem Bar.renewHeld_samePeers (f : Frame) (bytes : List Byte) : b.SamePeers (b.renewHeld f bytes) :=
  b.modSession_samePeers f.peer fun _ => rfl

theorem Bar.frameLeaves_samePeers (p : Fin 4) (f : Frame) (rest : List Frame) : b.SamePeers (b.frameLeaves p f rest) := by
  unfold frameLeaves
  extract_lets late
  split
  next g events _ =>
    extract_lets sent copied marked
    have leaves : b.SamePeers sent := rfl
    have copies : sent.SamePeers copied := .ite rfl (.refl _)
    have marks : copied.SamePeers marked :=
      .ite (.trans (renewHeld_samePeers ..) <| .trans (lateEvents_samePeers ..) (lateDatagrams_samePeers ..)) (.refl _)
    refine leaves.trans <| copies.trans <| marks.trans ?_
    split <;> rfl

theorem Bar.portFrames_samePeers (p : Fin 4) (fuel : Nat) : b.SamePeers (b.portFrames p fuel) := by
  induction fuel generalizing b with
  | zero => exact .refl b
  | succ fuel ih =>
    unfold portFrames
    extract_lets q asks
    refine .ite (.refl b) ?_
    have draws : b.SamePeers (if asks then b.draw 8 else (7, b)).2 := by split <;> rfl
    split
    next drawn =>
      rw [drawn] at draws
      split
      · exact draws
      · exact draws.trans <| (frameLeaves_samePeers ..).trans (ih _)

theorem Bar.portRun_samePeers (p : Fin 4) : b.SamePeers (b.portRun p) := by
  unfold portRun
  exact .ite ((b.portFrames_samePeers ..).trans rfl) (.refl b)

theorem Bar.enqueue_samePeers (p : Fin 4) (f : Frame) : b.SamePeers (b.enqueue p f) := by
  unfold enqueue
  extract_lets vlan tagged
  exact .ite ((b.portRun_samePeers p).trans <| .trans (c := modPort ..) rfl (portRun_samePeers ..)) rfl

theorem Bar.sendPiece_samePeers (k : Nat) (u : KspUnit) (stamp frag : Nat) (last : Bool) (payload : List Byte) :
    b.SamePeers (b.sendPiece k u stamp frag last payload) := by
  unfold sendPiece
  split
  · exact .refl b
  · extract_lets st gap flags d bytes replica port frame keep own held counted queued
    have counts : b.SamePeers counted := b.modSession_samePeers k fun _ => rfl
    have queues : b.SamePeers queued := counts.trans (enqueue_samePeers _ port frame)
    cases replica with
    | none => exact queues
    | some p => exact queues.trans (enqueue_samePeers ..)

theorem Bar.sendPieces_samePeers (k : Nat) (u : KspUnit) (stamp frag : Nat) (ps : List (List Byte)) :
    b.SamePeers (b.sendPieces k u stamp frag ps) := by
  fun_induction sendPieces b k u stamp frag ps with
  | case1 => exact .refl _
  | case2 => exact sendPiece_samePeers ..
  | case3 _ _ _ _ _ ih => exact (sendPiece_samePeers ..).trans ih

theorem Bar.dropUnit_samePeers (k stream : Nat) : b.SamePeers (b.dropUnit k stream) := by
  unfold dropUnit
  extract_lets marked dlv counted
  have marks : b.SamePeers marked := b.modSession_samePeers k fun _ => rfl
  have counts : marked.SamePeers counted := by
    unfold counted
    split <;> rfl
  exact marks.trans <| counts.trans (logLimited_samePeers ..)

theorem Bar.sendUnit_samePeers (k : Nat) (u : KspUnit) : b.SamePeers (b.sendUnit k u) := by
  unfold sendUnit
  split
  · exact .ite rfl (.refl b)
  · refine .ite ?_ (.refl b)
    extract_lets ps room
    exact .ite (b.dropUnit_samePeers ..) <| .ite rfl <|
      .trans (.ite (b.lateDatagrams_samePeers _) (.refl b)) (sendPieces_samePeers ..)
end

/-! ### The end of an upload's container (R171, R309, R311) -/

/-- From b to c the same peers have sessions, and the Safety Net and the items are as before. -/
structure Bar.SessionsStand (b c : Bar) : Prop where
  peers : b.SamePeers c
  saf : c.saf = b.saf
  items : c.cap.items = b.cap.items

section
variable {b c d : Bar}

theorem Bar.SessionsStand.refl (b : Bar) : b.SessionsStand b := ⟨rfl, rfl, rfl⟩

theorem Bar.SessionsStand.trans (first : b.SessionsStand c) (second : c.SessionsStand d) : b.SessionsStand d :=
  ⟨first.peers.trans second.peers, second.saf.trans first.saf, second.items.trans first.items⟩

theorem Bar.SessionsStand.ite {p : Prop} [Decidable p] (yes : b.SessionsStand c) (no : b.SessionsStand d) :
    b.SessionsStand (if p then c else d) := by
  split
  · exact yes
  · exact no

theorem Bar.HandsOver.sessionsStand (h : b.HandsOver c) (peers : b.SamePeers c) : b.SessionsStand c := ⟨peers, h.saf_eq, h.items_eq⟩
end

section
variable (b : Bar)

theorem Bar.modSession_sessionsStand (k : Nat) {f : Session → Session} (keeps : ∀ s, (f s).peer = s.peer) :
    b.SessionsStand (b.modSession k f) := (b.modSession_handsOver k f).sessionsStand (b.modSession_samePeers k keeps)

theorem Bar.sendUnit_sessionsStand (k : Nat) (u : KspUnit) : b.SessionsStand (b.sendUnit k u) :=
  (b.sendUnit_handsOver k u).sessionsStand (b.sendUnit_samePeers k u)

theorem Bar.foeError_sessionsStand (error detail : Nat) (logIt : Bool) : b.SessionsStand (b.foeError error detail logIt) := by
  unfold foeError
  exact .ite ⟨rfl, rfl, rfl⟩ ⟨rfl, rfl, rfl⟩

theorem Bar.failRun_sessionsStand (v : Bool) (k code : Nat) : b.SessionsStand (b.failRun v k code) := by
  unfold failRun
  split
  · exact .refl b
  · extract_lets marked
    split
    · exact ⟨rfl, rfl, rfl⟩
    · split <;> exact ⟨rfl, rfl, rfl⟩

theorem Bar.containerInvalid_sessionsStand (v : Bool) (k : Nat) : b.SessionsStand (b.containerInvalid v k) := by
  unfold containerInvalid
  split
  · exact .refl b
  · exact ⟨rfl, rfl, rfl⟩

theorem Bar.ingestAnswer_sessionsStand (i : Ingest) : b.SessionsStand (b.ingestAnswer i) := by
  unfold ingestAnswer
  extract_lets status last closed
  have closes : b.SessionsStand closed := ⟨rfl, rfl, rfl⟩
  refine .ite (.ite ⟨rfl, rfl, rfl⟩ (closes.trans (foeError_sessionsStand ..))) ?_
  split
  · exact .refl b
  next p _ =>
    extract_lets freed
    have frees : b.SessionsStand freed := b.modSession_sessionsStand p fun _ => rfl
    exact frees.trans (sendUnit_sessionsStand ..)

theorem Bar.cutIngest_sessionsStand (v : Bool) (k code : Nat) : b.SessionsStand (b.cutIngest v k code) := by
  unfold cutIngest
  split
  · exact .refl b
  next i _ =>
    extract_lets released failed ended
    have releases : b.SessionsStand released := ⟨rfl, rfl, rfl⟩
    have fails : released.SessionsStand failed := .ite (failRun_sessionsStand ..) (.refl _)
    have ends : failed.SessionsStand ended := .ite (.refl _) (containerInvalid_sessionsStand ..)
    refine releases.trans <| fails.trans <| ends.trans ?_
    split
    · exact .trans (c := modCap ..) ⟨rfl, rfl, rfl⟩ (ingestAnswer_sessionsStand ..)
    · exact .refl _

theorem Bar.abortUpload_sessionsStand (k code : Nat) : b.SessionsStand (b.abortUpload k code) := by
  unfold abortUpload
  split
  · exact .ite (.trans (c := b.logEvent 0x9029 0) ⟨rfl, rfl, rfl⟩ (cutIngest_sessionsStand ..)) (.refl b)
  · exact .refl b
end

/-! ### The end of a session (R309) -/

/-- The bar after the session of peer k has ended: its upload, its dialect and its waiting bench responses with it. -/
def Bar.sessionEnded (b : Bar) (k : Nat) : Bar :=
  ((b.abortUpload k 0x5040).setDialect k 0).modDlv fun d =>
    { d with sessions := d.sessions.filter fun s => s.peer ≠ k, benchOut := d.benchOut.filter fun w => w.1 ≠ k }

section
variable {b : Bar} {k : Nat} {x : Session}

theorem Bar.closeSession_of_open (code : Nat) (found : b.session? k = some x) :
    b.closeSession k code = (b.sessionEnded k).logEvent code 0 := by
  simp only [closeSession, found]
  rfl

theorem Bar.sessionTimeout_early (found : b.session? k = some x) (early : b.now < x.lastRx + 1000000000) : b.sessionTimeout k = b := by
  simp only [sessionTimeout, found, if_neg (Nat.not_le.mpr early)]

theorem Bar.sessionTimeout_due (found : b.session? k = some x) (due : x.lastRx + 1000000000 ≤ b.now) :
    b.sessionTimeout k = (b.sessionEnded k).logEvent 0x9022 0 := by
  simp only [sessionTimeout, found, if_pos due, closeSession_of_open 0x9022 found]

theorem Bar.sessionEnded_session?_same (b : Bar) (k : Nat) : (b.sessionEnded k).session? k = none := by
  simp [sessionEnded, session?]

theorem Bar.sessionEnded_saf (b : Bar) (k : Nat) : (b.sessionEnded k).saf = b.saf := by
  simp only [sessionEnded, setDialect, modDlv_saf, modNz_saf, (b.abortUpload_sessionsStand k 0x5040).saf]

theorem Bar.sessionEnded_items (b : Bar) (k : Nat) : (b.sessionEnded k).cap.items = b.cap.items := by
  simp only [sessionEnded, setDialect, modDlv_cap, modNz_cap, (b.abortUpload_sessionsStand k 0x5040).items]

/-- Other peers keep their sessions. -/
theorem Bar.sessionEnded_session?_other (b : Bar) {k j : Nat} (other : j ≠ k) :
    ((b.sessionEnded k).session? j).isSome = (b.session? j).isSome := by
  rw [← (b.abortUpload_sessionsStand k 0x5040).peers.session?_isSome j]
  simp only [sessionEnded, session?, modDlv_dlv, setDialect, modNz_dlv, List.find?_filter]
  refine congrArg Option.isSome (find?_eq_of_agree fun s _ => ?_)
  by_cases own : s.peer = j <;> simp [own, other]
end

/-- Settles O46: a link event by whether its port is up and on, a timeout by whether the session's second has passed. -/
theorem linkChangesLeaveSessions : Obligations.LinkChangesLeaveSessions := by
  refine ⟨fun s t p running => ?links, fun s t k x running => ?timeout⟩
  case links =>
    intro b
    have down : Answers s (.linkDown t p) (b.linkDown p) := .of_live (·.linkDown p) running rfl
    have up : Answers s (.linkUp t p) (b.linkUp p) := .of_live (·.linkUp p) running rfl
    refine ⟨fun was => ?_, fun was => ?_, fun idle => ?_, fun was on => ?_⟩
    · rw [Bar.linkDown_of_up was] at down
      have lost := b.linkLost_same p
      exact ⟨b.linkLost p, down, congrArg Port.up lost, congrArg Port.queue lost, rfl, fun o other => b.linkLost_other other,
        rfl, rfl, rfl, rfl, rfl⟩
    · rw [Bar.linkDown_of_down was] at down
      exact down
    · rw [Bar.linkUp_of_up_or_off idle] at up
      exact up
    · rw [Bar.linkUp_of_down was on] at up
      exact ⟨b.linkHeld p, up, congrArg Port.up (b.modPort_same p _), fun o other => b.modPort_other _ other, rfl⟩
  case timeout =>
    intro b found
    have answered : Answers s (.sessionTimeout t k) (b.sessionTimeout k.val) := .of_live (·.sessionTimeout k.val) running rfl
    refine ⟨fun early => ?_, fun due => ?_⟩
    · rwa [Bar.sessionTimeout_early found early] at answered
    · rw [Bar.sessionTimeout_due found due] at answered
      exact ⟨b.sessionEnded k.val, answered, b.sessionEnded_session?_same k.val,
        fun j other => b.sessionEnded_session?_other other, b.sessionEnded_saf k.val, b.sessionEnded_items k.val⟩

end Sys2Proof.Machine
end

section
/-! A bar in reset or shutdown (R329, R408, R409, R444, R490, R495): the commands that act on it, and that every other one only lets
time pass. -/

namespace Sys2Proof.Machine

/-- A command whose guard does not hold only lets its time pass. -/
theorem PassesBy.of_guard {s : State} {c : Instr} {t : Nat} {x : Bar} {p : Prop} [Decidable p] (idle : ¬p)
    (runs : exec c s = .next { s with bar := if p then x else s.bar.at t }) : PassesBy s c t := by
  rw [PassesBy, runs, if_neg idle]

theorem State.request_idle {s : State} (t : Nat) (f : Bar → Bar) (held : s.bar.alive = false) (other : s.bar.saf.power ≠ .reset) :
    s.request t f = .next { s with bar := s.bar.at t } := by
  simp [State.request, held, other]

theorem State.measured_idle {s : State} (t : Nat) (f : Bar → Bar) (held : s.bar.alive = false)
    (other : s.bar.saf.power ≠ .shutdown) : s.measured t f = .next { s with bar := s.bar.at t } := by
  simp [State.measured, held, other]

/-- Settles O4: the requests of the slave act in a reset, the thermal domain in a shutdown, a trip and the resets in both, and every
other command has the running bar as its guard. -/
theorem onlySomeCommandsWakeAHeldBar : Obligations.OnlySomeCommandsWakeAHeldBar := by
  intro s c held
  have requested {c : Instr} {t : Nat} {p : Prop} (f : Bar → Bar) (runs : exec c s = s.request t f)
      (named : s.bar.saf.power = .reset → p) : (∃ t, PassesBy s c t) ∨ p := by
    by_cases reset : s.bar.saf.power = .reset
    · exact .inr (named reset)
    · exact .inl ⟨t, runs.trans (s.request_idle t f held reset)⟩
  have measured {c : Instr} {t : Nat} {p : Prop} (f : Bar → Bar) (runs : exec c s = s.measured t f)
      (named : s.bar.saf.power = .shutdown → p) : (∃ t, PassesBy s c t) ∨ p := by
    by_cases shut : s.bar.saf.power = .shutdown
    · exact .inr (named shut)
    · exact .inl ⟨t, runs.trans (s.measured_idle t f held shut)⟩
  have ofSegment {c : Instr} {t : Nat} {seg : Fin 8} {p : Prop} (f : Bar → Bar) (runs : exec c s = s.ofSegment seg t f)
      (named : s.bar.segs ≤ seg.val → p) : (∃ t, PassesBy s c t) ∨ p := by
    obtain ⟨absent, -⟩ | ⟨-, live⟩ := s.ofSegment_cases seg t f
    · exact .inr (named absent)
    · exact .inl ⟨t, (runs.trans live).trans (s.live_idle t f held)⟩
  cases c with
  | alRequestPreop t m => exact requested (·.requestPreop m) rfl fun h => .inl ⟨h, t, .inl ⟨m, rfl⟩⟩
  | alRequestSafeop t a b x =>
    exact requested (·.requestSafeop (smCode a b) x.sync0 x.pdTime) rfl fun h => .inl ⟨h, t, .inr (.inl ⟨a, b, x, rfl⟩)⟩
  | alRequestOp t => exact requested (·.requestOp) rfl fun h => .inl ⟨h, t, .inr (.inr (.inl rfl))⟩
  | alRequestInit t => exact requested (·.requestInit) rfl fun h => .inl ⟨h, t, .inr (.inr (.inr (.inl rfl)))⟩
  | alRequestBoot t x => exact requested (·.requestBoot x) rfl fun h => .inl ⟨h, t, .inr (.inr (.inr (.inr ⟨x, rfl⟩)))⟩
  | sensorSample t i r f => exact measured (·.sensorSample i r f) rfl fun h => .inr (.inl ⟨h, t, .inl ⟨i, r, f, rfl⟩⟩)
  | thermalRestart t => exact measured (·.thermalRestart) rfl fun h => .inr (.inl ⟨h, t, .inr rfl⟩)
  | thermalTrip t i p o => exact .inr (.inr (.inr (.inl ⟨t, .inl ⟨i, p, o, rfl⟩⟩)))
  | startup t x => exact .inr (.inr (.inr (.inl ⟨t, .inr (.inl ⟨x, rfl⟩)⟩)))
  | externalReset x => exact .inr (.inr (.inr (.inl ⟨x.t, .inr (.inr (.inl ⟨x.level, x.held, rfl⟩))⟩)))
  | brownOut t r => exact .inr (.inr (.inr (.inl ⟨t, .inr (.inr (.inr (.inl ⟨r, rfl⟩)))⟩)))
  | extest t => exact .inr (.inr (.inr (.inl ⟨t, .inr (.inr (.inr (.inr (.inl rfl))))⟩)))
  | tapReset t => exact .inr (.inr (.inr (.inl ⟨t, .inr (.inr (.inr (.inr (.inr rfl))))⟩)))
  | segmentLine t seg n line =>
    exact ofSegment (·.segmentLine seg n line) rfl fun h => .inr (.inr (.inr ⟨t, seg, n, line, h, .inl rfl⟩))
  | segmentLineTimeout t seg n line =>
    exact ofSegment (·.segmentLineTimeout seg n line) rfl fun h => .inr (.inr (.inr ⟨t, seg, n, line, h, .inr rfl⟩))
  | _ => exact .inl ⟨_, .of_guard (p := (s.bar.at _).alive = true) (ne_true_of_eq_false held) rfl⟩

end Sys2Proof.Machine
end

section
/-! The Ringmaster (chapter 15), start-up and the resets (R421, R444, R454, R490, R495): their events are answered. -/

namespace Sys2Proof.Machine

/-- Settles O52: the running bar acts on each check-in, period close, test, failure, scrub, release request and elapsed condition, in
this order. -/
theorem ringmasterCommandsAnswer : Obligations.RingmasterCommandsAnswer := fun _ _ running =>
  ⟨fun seven => .of_live (·.hostCheckin seven) running rfl,
    .of_live (·.snRelease) running rfl,
    .of_live (·.periodClose) running rfl,
    fun slot => .of_live (fun b => b.checkIn ⟨slot.val, by omega⟩ b.now) running rfl,
    .of_live (·.resetHub) running rfl,
    fun level held => .of_live (·.faultReadback level held) running rfl,
    .of_live (·.lockstepMismatch) running rfl,
    fun seg cls => .of_live (·.stageStall seg cls) running rfl,
    fun region addr => .of_live (·.dramUncorrectable region addr) running rfl,
    .of_live (·.stolenLine) running rfl,
    fun test seg unit r => .of_live (·.serviceTest test seg unit r) running rfl,
    .of_live (·.passEnd) running rfl,
    .of_live (·.passOverrun) running rfl,
    fun found => .of_live (·.dramScrub found) running rfl,
    fun lost => .of_live (·.mramScrub lost) running rfl,
    fun cause => .of_live (·.causeClears cause) running rfl⟩

/-- Settles O58: the re-read of a fuse row by the running bar, then what acts on a bar in every state. -/
theorem startAndResetCommandsAnswer : Obligations.StartAndResetCommandsAnswer := fun _ _ =>
  ⟨fun running seg row low high => .of_live (·.fuseReread seg row low high) running rfl,
    fun _ => rfl, fun _ _ => rfl, fun _ => rfl, rfl, rfl⟩

end Sys2Proof.Machine
end

section
/-! Resets (R421, R437, R440, R459, R490): what causes one, and what it leaves and keeps. -/

namespace Sys2Proof.Machine

/-- A recorded cause changes the retained record alone: it names the cause and its time, and clears RUNNING (R440). -/
theorem Bar.recordCause_eq (b : Bar) (code : Nat) : ∃ r : Retained, b.recordCause code = b.modRet (fun _ => r) ∧
    r.running = false ∧ r.lastCause = code ∧ r.lastTime = b.now ∧ r.boots = b.saf.ret.boots := by
  refine ⟨(b.recordCause code).saf.ret, ?_⟩
  unfold recordCause
  extract_lets line named
  split <;> exact ⟨rfl, rfl, rfl, rfl, rfl⟩

/-- The bar in reset after a cause that was logged with an argument. -/
def Bar.resetFor (b : Bar) (code arg : Nat) : Bar := ((b.logEvent code arg).recordCause code).hardReset

/-- The rail has stood outside its monitor limits for 5 µs (R421, Table 17-8). -/
def railOutside (rail : Fin 6) (mv held : Nat) : Prop :=
  5000 ≤ held ∧ (mv < (railLimits.getD rail.val (0, 0)).1 ∨ (railLimits.getD rail.val (0, 0)).2 < mv)

/-- Table 17-8, rail by rail. -/
theorem railLimits_eq (rail : Fin 6) : railLimits.getD rail.val (0, 0) = match rail with
    | 0 => (500, 900) | 1 => (2600, 3000) | 2 => (1670, 1930) | 3 => (3070, 3530) | 4 => (840, 960) | _ => (1120, 1280) := by
  match rail with
  | 0 | 1 | 2 | 3 | 4 | 5 => rfl

theorem Bar.brownOut_outside {b : Bar} {rail : Fin 6} {mv held : Nat} (h : railOutside rail mv held) :
    b.brownOut rail mv held = b.resetFor 0xD02E rail.val := by
  unfold brownOut
  unfold railOutside at h
  generalize railLimits.getD rail.val (0, 0) = limits at h
  refine if_neg ?_
  simp only [Bool.or_eq_true, Bool.and_eq_true, decide_eq_true_eq]
  omega

theorem Bar.brownOut_inside {b : Bar} {rail : Fin 6} {mv held : Nat} (h : ¬railOutside rail mv held) :
    b.brownOut rail mv held = b := by
  unfold brownOut
  unfold railOutside at h
  generalize railLimits.getD rail.val (0, 0) = limits at h
  refine if_pos ?_
  simp only [Bool.or_eq_true, Bool.and_eq_true, decide_eq_true_eq]
  omega

/-- What a command answers, in other words. -/
theorem exec_next_of {s : State} {c : Instr} {x y : Bar} (runs : exec c s = .next { s with bar := x }) (h : x = y) :
    exec c s = .next { s with bar := y } := h ▸ runs

theorem Bar.externalReset_long {b : Bar} {low : Nat} (powered : b.saf.power ≠ .shutdown) (long : 2000 ≤ low) :
    b.externalReset low = b.resetFor 0xD030 0 := by
  refine if_neg ?_
  simp [powered, long]

theorem Bar.externalReset_ignored {b : Bar} {low : Nat} (h : b.saf.power = .shutdown ∨ low < 2000) :
    b.externalReset low = b := if_pos (by simpa using h)

/-- Settles O59: both resets leave the bar that their cause resets, and that bar is the one at reset but for what is retained. -/
theorem resetsKeepWhatIsRetained : Obligations.ResetsKeepWhatIsRetained := by
  intro s t low mv held rail level b limits outside kept
  have outside_iff : outside ↔ railOutside rail mv held :=
    Iff.of_eq (congrArg (fun x : Nat × Nat => 5000 ≤ held ∧ (mv < x.1 ∨ x.2 < mv)) (railLimits_eq rail).symm)
  have keeps (c : Instr) (code arg : Nat) (h : exec c s = .next { s with bar := b.resetFor code arg }) : kept c code arg := by
    obtain ⟨r, cause, stopped, last, time, boots⟩ := (b.logEvent code arg).recordCause_eq code
    refine ⟨_, h, ?_⟩
    rw [Bar.resetFor, cause]
    exact ⟨rfl, rfl, rfl, rfl, rfl, rfl, rfl, rfl, rfl, rfl, rfl, rfl, rfl, rfl, rfl, rfl, rfl, rfl, rfl, rfl, rfl, rfl, rfl, rfl,
      last, time, stopped, boots⟩
  refine ⟨fun out => keeps _ _ _ ?_, fun inside => ?_, fun powered long => keeps _ _ _ ?_, fun ignored => ?_⟩
  · exact exec_next_of rfl (Bar.brownOut_outside (outside_iff.mp out))
  · exact exec_next_of rfl (Bar.brownOut_inside (mt outside_iff.mpr inside))
  · exact exec_next_of rfl (Bar.externalReset_long powered long)
  · have runs : exec (.externalReset ⟨t, level, low⟩) s = .next { s with bar := if level then b else b.externalReset low } := rfl
    cases level with
    | true => exact runs
    | false => exact exec_next_of runs (Bar.externalReset_ignored (by simpa using ignored))

end Sys2Proof.Machine
end

section
/-! The event log and the Emergencies (R352, R353). -/

namespace Sys2Proof.Machine

/-! ### Emergencies (R353) -/

/-- A choice depends on what its condition says alone. -/
theorem ite_of_iff {α : Type} {p q : Prop} [Decidable p] [Decidable q] {x y : α} (same : p ↔ q) :
    (if p then x else y) = if q then x else y := ite_congr (propext same) (fun _ => rfl) fun _ => rfl

theorem emergencyCode_eq (code : Nat) : emergencyCode code = if 0xC000 ≤ code ∧ code ≤ 0xCFFF then 0x4200 else 0xFF00 := by
  unfold emergencyCode
  exact ite_of_iff (by omega)

section
variable {b : Bar} {code arg sev : Nat} {reserved : Bool}

/-- An entry of severity 0 or 1 sends no Emergency. -/
theorem Bar.logWith_minor (minor : sev < 2) :
    let c := b.logWith code arg sev reserved false
    c.sm1 = b.sm1 ∧ c.log.emergDropped = b.log.emergDropped ∧ (c.log.entries.head?.map fun x => (x.sent, x.dropped)) = some (false, false) := by
  simp [logWith, show ¬2 ≤ sev by omega]

/-- An entry of severity 2 or 3 sends its Emergency where there is a place for it. -/
theorem Bar.logWith_sends (severe : 2 ≤ sev) (room : emergenciesWaiting b.sm1 < 15 ∨ reserved = true) :
    let c := b.logWith code arg sev reserved false
    c.sm1 = b.sm1 ++ [.emergency (emergencyBytes (emergencyCode code) b.errorRegister code b.log.next)] ∧
    c.log.emergDropped = b.log.emergDropped ∧ (c.log.entries.head?.map fun x => (x.sent, x.dropped)) = some (true, false) := by
  have place : (decide (emergenciesWaiting b.sm1 < 15) || reserved) = true := by simpa using room
  simp [logWith, severe, place]

/-- Without a place the Emergency is dropped and counted. -/
theorem Bar.logWith_drops (severe : 2 ≤ sev) (full : 15 ≤ emergenciesWaiting b.sm1) (open_ : reserved = false) :
    let c := b.logWith code arg sev reserved false
    c.sm1 = b.sm1 ∧ c.log.emergDropped = sat32 b.log.emergDropped ∧
    (c.log.entries.head?.map fun x => (x.sent, x.dropped)) = some (false, true) := by
  simp [logWith, severe, open_, show ¬emergenciesWaiting b.sm1 < 15 by omega]

end

/-- Settles O14, by the severity of the entry and the places left for its Emergency. -/
theorem emergenciesFollowSeverity : Obligations.EmergenciesFollowSeverity := by
  intro b code arg sev reserved
  refine ⟨Bar.logWith_minor, fun severe room => ?_, fun severe full open_ => ?_⟩
  · rw [← emergencyCode_eq]
    exact Bar.logWith_sends severe room
  · rw [← sat32_eq_min]
    exact Bar.logWith_drops severe full open_

/-! ### Reads over the mailbox (R333, R338) -/

/-- A read of the mailbox that passes the checks gives what its entry reads. -/
theorem Bar.sdoRun_upload {b : Bar} {index sub : Nat} {e : Entry} (there : b.indexExists index = true)
    (entry : b.entry? index sub = some e) (readable : e.acc ≠ .wo) :
    b.sdoRun (mailRequest .upload index sub []) = Bar.finish (mailRequest .upload index sub []) (b.readEntry .mailbox e index sub) := by
  simp [sdoRun, sdoDo, mailRequest, isArm, locate_of_entry there entry, readable]

/-- A read that answers is answered with the line boundary of its snapshot (R24). -/
theorem Bar.finish_answer (b : Bar) (index sub : Nat) (v : List Byte) :
    Bar.finish (mailRequest .upload index sub []) (b.answer v) =
      b.responds index sub 0 v (if b.ecat.session then b.cap.snapAt else b.lines) := rfl

theorem Bar.finish_refuse_upload (b : Bar) (index sub detail : Nat) {abort : Nat} (h : abort ≠ 0) :
    Bar.finish (mailRequest .upload index sub []) (b.refuse abort detail) = b.aborts index sub abort detail := by
  refine (if_neg h).trans ?_
  simp [sendAnswer, snapshotLine, mailRequest, aborts, responds, modChannel, refuse, h]

/-! ### The ring and its read pointer (R352) -/

/-- A full ring loses its oldest entry, which is counted. -/
theorem Bar.logWith_overwritten (b : Bar) (code arg sev : Nat) (r e : Bool) : (b.logWith code arg sev r e).log.overwritten =
    if logSize ≤ b.log.entries.length then sat32 b.log.overwritten else b.log.overwritten := by
  simp [logWith]

theorem Bar.entry?_logEntry (b : Bar) : b.entry? 0x2F00 4 = some (ent 0x2F00 4 (.dom 32 32) .ro) :=
  (b.entry?_eq_findEntry (by decide +kernel) (by decide)).trans (by decide +kernel)

/-- Where a read of the mailbox stands: at its pointer, moved up to the oldest entry held. -/
def Bar.logPlace (b : Bar) : Nat := max b.sdoM.logPtr (b.log.next - b.log.entries.length)

theorem Bar.readLog_held {b : Bar} {x : LogEntry} (held : b.logPlace < b.log.next)
    (entry : b.log.entries[b.log.next - 1 - b.logPlace]? = some x) :
    b.readLog .mailbox = (b.modChannel .mailbox fun c => { c with logPtr := b.logPlace + 1 }).answer x.bytes := by
  simp only [logPlace] at held entry ⊢
  simp only [readLog, channel?, if_pos held, entry]

theorem Bar.readLog_empty {b : Bar} (past : b.log.next ≤ b.logPlace) :
    b.readLog .mailbox = (b.modChannel .mailbox fun c => { c with logPtr := b.logPlace }).refuse 0x08000020 0xF001 := by
  simp only [logPlace] at past ⊢
  simp only [readLog, channel?, Nat.not_lt.mpr past, if_false]

/-- A read of the event log over the mailbox. -/
theorem Answers.of_eventLogRead {s : State} (t : Nat) (h : s.bar.serves 0x2F00 = true) :
    Answers s (.eventLogRead t) (Bar.finish (mailRequest .upload 0x2F00 4 []) ((s.bar.mailAt t).readLog .mailbox)) := by
  have answer : Answers s (.eventLogRead t) ((s.bar.mailAt t).sdoRun (mailRequest .upload 0x2F00 4 [])) := .of_mailSdo h rfl
  rwa [Bar.sdoRun_upload (Bar.indexExists_of_serves t h) (Bar.entry?_logEntry _) (by decide)] at answer

/-- Settles O13: an entry is written, then the read at the pointer by whether an entry is left there. -/
theorem logRingAndItsReadPointer : Obligations.LogRingAndItsReadPointer := by
  refine ⟨fun b code arg sev bound => ?_, fun s t h _ => ?_⟩
  · refine ⟨_, rfl, rfl, rfl, rfl, rfl, rfl, rfl, rfl, b.logWith_bound .., ?_, rfl, rfl, rfl, rfl, rfl, rfl⟩
    rw [← sat32_eq_min]
    exact (b.logWith_overwritten ..).trans (ite_of_iff (by unfold logSize; omega))
  · intro b p
    refine ⟨fun x held entry => ?_, fun past => ?_⟩
    · have answer := Answers.of_eventLogRead t h
      rwa [Bar.readLog_held held entry] at answer
    · have answer := Answers.of_eventLogRead t h
      rwa [Bar.readLog_empty past, Bar.finish_refuse_upload _ _ _ _ (by decide)] at answer

end Sys2Proof.Machine
end

section
/-! What a publication changes (R193 to R195, R345), and the engagement and release of the Safety Net (R46, R47, R422 to R426). -/

namespace Sys2Proof.Machine

/-! ### What a publication changes -/

/-- From b to c nothing changes but what verdicts leave: the items with their counts, the verdict queue, and where a record goes. -/
def Bar.Publishes (b c : Bar) : Prop :=
  c = { b with
    free := c.free, log := c.log, sm1 := c.sm1, io := c.io, nz := c.nz, cod := c.cod, sto := c.sto, dlv := c.dlv
    ecat := { b.ecat with
      vq := c.ecat.vq, vqNext := c.ecat.vqNext, vqP := c.ecat.vqP, vqBase := c.ecat.vqBase, vqLost := c.ecat.vqLost
      slotsLost := c.ecat.slotsLost }
    cap := { b.cap with items := c.cap.items, insp := c.cap.insp, crops := c.cap.crops } }

section
variable {b c d : Bar}

theorem Bar.Publishes.refl (b : Bar) : b.Publishes b := rfl

theorem Bar.Publishes.trans (first : b.Publishes c) (second : c.Publishes d) : b.Publishes d := by
  unfold Publishes at first second ⊢
  rw [first] at second
  exact second

theorem Bar.HandsOver.publishes (h : b.HandsOver c) : b.Publishes c := by
  unfold HandsOver at h
  rw [h]
  rfl

theorem Bar.Publishes.foldl {α : Type} (l : List α) (f : Bar → α → Bar) (step : ∀ (c : Bar) (a : α), c.Publishes (f c a)) :
    b.Publishes (l.foldl f b) :=
  List.foldlRecOn l f (.refl b) fun c kept a _ => kept.trans (step c a)

theorem Bar.Publishes.lines_eq (h : b.Publishes c) : c.lines = b.lines := Eq.trans (congrArg Bar.lines h) rfl
theorem Bar.Publishes.now_eq (h : b.Publishes c) : c.now = b.now := Eq.trans (congrArg Bar.now h) rfl
theorem Bar.Publishes.par_eq (h : b.Publishes c) : c.par = b.par := Eq.trans (congrArg Bar.par h) rfl
theorem Bar.Publishes.saf_eq (h : b.Publishes c) : c.saf = b.saf := Eq.trans (congrArg Bar.saf h) rfl
theorem Bar.Publishes.al_eq (h : b.Publishes c) : c.ecat.al = b.ecat.al := Eq.trans (congrArg (·.ecat.al) h) rfl
theorem Bar.Publishes.session_eq (h : b.Publishes c) : c.ecat.session = b.ecat.session := Eq.trans (congrArg (·.ecat.session) h) rfl

theorem Bar.modItemAt_publishes (b : Bar) (ix : Nat) (f : Item → Item) : b.Publishes (b.modItemAt ix f) := rfl

theorem Bar.modItems_publishes (b : Bar) (f : Item → Item) : b.Publishes (b.modItems f) := rfl

end

theorem Bar.queueVerdict_publishes (b : Bar) (bytes : List Byte) : b.Publishes (b.queueVerdict bytes) := by
  unfold queueVerdict
  extract_lets slot e full queued
  have queues : b.Publishes queued := rfl
  exact queues.trans (HandsOver.ite (queued.logLimited_handsOver ..) (.refl queued)).publishes

theorem Bar.publish_publishes (b : Bar) (v : Verdict) (ds : List Defect) (frame : Option (Nat × Nat)) (pinned : Bool) (due : List Nat)
    (late : Bool) : b.Publishes (b.publish v ds frame pinned due late) := by
  unfold publish
  extract_lets stamped rec64 v4 counted body
  have counts : b.Publishes counted := rfl
  split
  next l0 l1 _ =>
    extract_lets sent queued posS fed set entry
    have sends : counted.HandsOver sent := counted.sendAll_handsOver ..
    have queues : sent.Publishes queued := by
      unfold queued
      split
      · exact sent.queueVerdict_publishes _
      · exact .refl sent
    have feeds : queued.HandsOver fed := feedVerdict_handsOver ..
    have takes : fed.HandsOver (fed.evidenceTake set.length).1 := fed.evidenceTake_handsOver _
    refine counts.trans <| sends.publishes.trans <| queues.trans (feeds.trans ?_).publishes
    split
    · split
      next taken gold eq =>
        rw [eq] at takes
        exact takes.trans <| (taken.modSto_handsOver _).trans (evidenceObject_handsOver ..)
    · exact fed.formItem_handsOver _

theorem Bar.publishItem_publishes (b : Bar) (ix : Nat) : b.Publishes (b.publishItem ix) := by
  unfold publishItem
  split
  next => exact .refl b
  next i item =>
    have forms := b.formVerdict_handsOver ix i
    split
    · exact .refl b
    · extract_lets late
      split
      next v r g formed eq =>
        rw [eq] at forms
        extract_lets frame
        have pins : formed.HandsOver (if (i.pin && v.seqValid) = true then
            formed.pinItem formed.sto.session v.seq (frame.elim [] fun f => (formed.sto.frameChunks f).map (·.number))
            else (formed, false)).1 :=
          .ite_fst (formed.pinItem_handsOver ..) (.refl formed)
        split
        next kept pinned eq =>
          rw [eq] at pins
          split
          next cut ds due dropped eq =>
            have cuts : kept.HandsOver cut := by
              rw [show cut = _ from (congrArg Prod.fst eq).symm]
              cases g with
              | some g => exact kept.cutCrops_handsOver ..
              | none => exact .refl kept
            extract_lets flagged marked recorded counted overflown crowded
            have counts : recorded.Publishes counted := rfl
            have overflows : counted.HandsOver overflown := .foldl _ _ fun b s => b.logEvent_handsOver ..
            have crowds : overflown.HandsOver crowded := .ite (logEvent_handsOver ..) (.refl _)
            exact (forms.trans <| pins.trans cuts).publishes.trans <| (cut.modItemAt_publishes ix _).trans <|
              (marked.publish_publishes ..).trans <| counts.trans <|
              (overflows.trans <| crowds.trans <| .ite (logEvent_handsOver ..) (.refl _)).publishes

theorem Bar.publishAll_publishes (b : Bar) : b.Publishes b.publishAll := by
  unfold publishAll
  exact .foldl _ _ publishItem_publishes

/-! ### The items after a publication -/

/-- An item with its verdict published. -/
def Item.done (i : Item) : Item := { i with published := true }

theorem Item.done_of_published {i : Item} (h : i.published = true) : i.done = i := by
  simp [done, ← h]

theorem Bar.publishItem_getElem? (b : Bar) (ix x : Nat) :
    (b.publishItem ix).cap.items[x]? = (b.cap.items[x]?).map fun i => if x = ix then i.done else i := by
  by_cases h : ∀ i, b.cap.items[ix]? = some i → i.published = true
  · rw [publishItem_idle h]
    split
    next here =>
      subst here
      cases item : b.cap.items[x]? with
      | none => rfl
      | some i => exact congrArg some (Item.done_of_published (h i item)).symm
    next => exact (Option.map_id' ..).symm
  · simp only [Classical.not_forall] at h
    obtain ⟨i, item, waits⟩ := h
    obtain ⟨same, others⟩ := publishItem_items item (by simpa using waits)
    split
    next here =>
      subst here
      rw [same, item]
      rfl
    next other => exact (others x other).trans (Option.map_id' ..).symm

theorem Bar.publishItems_getElem? (b : Bar) (l : List Nat) (x : Nat) :
    (l.foldl (fun b ix => b.publishItem ix) b).cap.items[x]? = (b.cap.items[x]?).map fun i => if x ∈ l then i.done else i := by
  induction l generalizing b with
  | nil => simp
  | cons ix rest ih =>
    rw [List.foldl_cons, ih, publishItem_getElem?, Option.map_map]
    congr 1
    funext i
    by_cases here : x = ix <;> by_cases later : x ∈ rest <;> simp [here, later, Item.done]

/-- Step 4 of R422: every item has its verdict published. -/
theorem Bar.publishAll_items (b : Bar) : b.publishAll.cap.items = b.cap.items.map Item.done := by
  refine List.ext_getElem? fun x => ?_
  rw [publishAll, publishItems_getElem?, List.getElem?_map]
  refine Option.map_congr fun i item => ?_
  split
  next => rfl
  next other =>
    refine (Item.done_of_published (Classical.byContradiction fun waits => other ?_)).symm
    obtain ⟨inside, here⟩ := List.getElem?_eq_some_iff.mp item
    simpa [inside, here] using waits

/-! ### The engagement of the Safety Net (R422) -/

/-- A cause is noted, with its bit since the engagement. -/
def Bar.noteCause (b : Bar) (f : Causes → Causes) : Bar :=
  b.modSn fun s => { s with causes := f s.causes, since := s.since ||| (f s.causes).bits }

/-- The bar that a cause engages, before its items are published: the engagement is recorded, and items without a verdict have
the reason and the code. -/
def Bar.engaging (b : Bar) (code : Nat) (f : Causes → Causes) : Bar :=
  let c := (b.noteCause f).modSn fun s =>
    { s with engaged := true, engagements := sat32 s.engagements, lastEngaged := b.now, lastCode := code }
  (c.modRet fun r => { r with snEntries := sat32 r.snEntries, lastSn := (b.noteCause f).saf.sn.since }).modItems fun i =>
    if i.published then i else { i.withReason rSafetyNet with detail := code }

/-- Engaged already, the Safety Net only notes the cause. -/
theorem Bar.engage_of_engaged {b : Bar} (code : Nat) (f : Causes → Causes) (h : b.saf.sn.engaged = true) :
    b.engage code f = b.noteCause f := if_pos h

theorem Bar.engage_of_released {b : Bar} (code : Nat) (f : Causes → Causes) (h : b.saf.sn.engaged = false) :
    b.engage code f = (b.engaging code f).publishAll.logWith 0xD020 (b.noteCause f).saf.sn.since 3 true false :=
  if_neg (by exact ne_true_of_eq_false h)

/-- An item that the engagement finds: with its verdict it stands; without one it is published with the reason and the code. -/
def Item.netEngaged (code : Nat) (i : Item) : Item :=
  if i.published then i else { i.withReason rSafetyNet with detail := code, published := true }

theorem Item.netEngaged_published (code : Nat) (i : Item) : (i.netEngaged code).published = true := by
  unfold netEngaged
  split
  · assumption
  · rfl

theorem Item.netEngaged_of_published (code : Nat) {i : Item} (h : i.published = true) : i.netEngaged code = i := if_pos h

theorem Bar.engage_items {b : Bar} (code : Nat) (f : Causes → Causes) (h : b.saf.sn.engaged = false) :
    (b.engage code f).cap.items = b.cap.items.map (Item.netEngaged code) := by
  have marked : (b.engaging code f).cap.items = b.cap.items.map fun i =>
    if i.published then i else { i.withReason rSafetyNet with detail := code } := rfl
  rw [engage_of_released code f h, logWith_cap, publishAll_items, marked, List.map_map]
  congr 1
  funext i
  by_cases published : i.published = true
  · simp [Item.netEngaged, published, Item.done_of_published]
  · simp [Item.netEngaged, published, Item.done]

/-- What an engagement changes beside the items and what their verdicts leave: the Safety Net's own record. -/
theorem Bar.engage_publishes {b : Bar} (code : Nat) (f : Causes → Causes) (h : b.saf.sn.engaged = false) :
    (b.engaging code f).Publishes (b.engage code f) := by
  rw [engage_of_released code f h]
  exact (publishAll_publishes _).trans rfl

/-- Settles O53: the engagement by what it does to the Safety Net's record and to each item. -/
theorem safetyNetEngagesOnce : Obligations.SafetyNetEngagesOnce := by
  intro s t running b n causes
  have answer : Answers s (.lockstepMismatch t) b.lockstepMismatch := .of_live (·.lockstepMismatch) running rfl
  refine ⟨fun released => ⟨b.engage 0xD02C fun c => { c with lockstep := true }, answer, ?_⟩, fun engaged => ?_⟩
  · have keeps := Bar.engage_publishes 0xD02C (fun c => { c with lockstep := true }) released
    have items := Bar.engage_items 0xD02C (fun c => { c with lockstep := true }) released
    have saf := keeps.saf_eq
    refine ⟨congrArg (·.sn.engaged) saf, congrArg (·.sn.causes) saf, congrArg (·.sn.lastEngaged) saf, congrArg (·.sn.lastCode) saf,
      (congrArg (·.sn.engagements) saf).trans (sat32_eq_min _), ?low, by simp [items], ?published, ?stands, ?entry,
      congrArg (·.live) keeps.par_eq, keeps.lines_eq, keeps.al_eq⟩
    case low =>
      have engaged : (b.engage 0xD02C fun c => { c with lockstep := true }).saf.sn.engaged = true := congrArg (·.sn.engaged) saf
      simp [Bar.faultHigh, engaged]
    case published =>
      intro i member
      rw [items] at member
      obtain ⟨j, -, rfl⟩ := List.mem_map.mp member
      exact j.netEngaged_published _
    case stands =>
      intro x i item published
      rw [items, List.getElem?_map, item]
      exact congrArg some (Item.netEngaged_of_published _ published)
    case entry =>
      rw [Bar.engage_of_released _ _ released]
      rfl
  · rw [Bar.lockstepMismatch, Bar.engage_of_engaged _ _ engaged] at answer
    exact answer

/-! ### Release (R425, R426) -/

theorem Bar.passedSince_iff (b : Bar) : b.passedSince = true ↔ ∃ u, b.saf.ist.cleanPass = some u ∧ b.saf.sn.lastClear ≤ u := by
  unfold passedSince
  cases b.saf.ist.cleanPass with
  | none => simp
  | some u => simp

/-- All that a release asks for (R425). -/
def Bar.releaseFits (b : Bar) : Prop :=
  b.saf.sn.causes.bits = 0 ∧ (∃ u, b.saf.ist.cleanPass = some u ∧ b.saf.sn.lastClear ≤ u) ∧ (b.ecat.al = .safeop ∨ b.ecat.al = .op)

theorem Bar.requestRelease_of_released {b : Bar} (h : b.saf.sn.engaged = false) : b.requestRelease = b := if_pos (by simp [h])

theorem Bar.requestRelease_granted {b : Bar} (engaged : b.saf.sn.engaged = true) (fits : b.releaseFits) :
    b.requestRelease = (b.modSn fun s => { s with engaged := false, since := 0, lastRelease := b.ecat.sampleTime }).logWith
      0xD021 0 1 false true := by
  obtain ⟨clear, passed, state⟩ := fits
  simp [requestRelease, engaged, clear, b.passedSince_iff.mpr passed, state]

theorem Bar.requestRelease_refused {b : Bar} (engaged : b.saf.sn.engaged = true) (unfit : ¬b.releaseFits) :
    b.requestRelease = b.logEvent 0xD022 (b.saf.sn.causes.bits + b2n (!b.passedSince) * 65536) := by
  simp only [releaseFits, ← passedSince_iff] at unfit
  simp only [requestRelease, engaged, Bool.not_true, Bool.false_eq_true, if_false]
  exact if_neg (by simpa [and_assoc] using unfit)

/-- Settles O54, by whether a request is pending, whether the Safety Net is engaged, and whether all that a release asks for holds. -/
theorem safetyNetRelease : Obligations.SafetyNetRelease := by
  intro s t running b n taken passed fit
  have answer : Answers s (.snRelease t) b.snRelease := .of_live (·.snRelease) running rfl
  have idle (h : b.ecat.releasePend = false) : b.snRelease = b := if_neg (ne_true_of_eq_false h)
  have taking (h : b.ecat.releasePend = true) : b.snRelease = taken.requestRelease := if_pos h
  refine ⟨fun h => ?_, fun h released => ?_, fun h engaged fits => ?_, fun h engaged unfit => ?_⟩
  · rwa [idle h] at answer
  · rwa [taking h, Bar.requestRelease_of_released (b := taken) released] at answer
  · rwa [taking h, Bar.requestRelease_granted (b := taken) engaged fits] at answer
  · rw [taking h, Bar.requestRelease_refused (b := taken) engaged unfit] at answer
    refine ⟨_, answer, fun since => ?_, fun pending => ?_⟩
    · simp [taken.passedSince_iff.mpr since, b2n, taken, n]
    · simp [eq_false_of_ne_true (mt taken.passedSince_iff.mp pending), b2n, taken, n]

end Sys2Proof.Machine
end

section
/-! What a decided reset (R437) leaves of the Ringmaster, and the close of a watchdog period (R433 to R436). -/

namespace Sys2Proof.Machine

theorem Bar.HandsOver.now_eq {b c : Bar} (h : b.HandsOver c) : c.now = b.now := Eq.trans (congrArg Bar.now h) rfl

theorem Bar.HandsOver.wdgSettings_eq {b c : Bar} (h : b.HandsOver c) : c.wdgSettings = b.wdgSettings :=
  Eq.trans (congrArg Bar.wdgSettings h) rfl

/-! ### Sealing leaves the Ringmaster alone (R284, R437) -/

/-- From b to c the Ringmaster and the time are the same. -/
def Bar.SafetyKept (b c : Bar) : Prop := c.saf = b.saf ∧ c.now = b.now

section
variable {b c d : Bar}

theorem Bar.SafetyKept.refl (b : Bar) : b.SafetyKept b := ⟨rfl, rfl⟩

theorem Bar.SafetyKept.trans (first : b.SafetyKept c) (second : c.SafetyKept d) : b.SafetyKept d :=
  ⟨second.1.trans first.1, second.2.trans first.2⟩

theorem Bar.HandsOver.safetyKept (h : b.HandsOver c) : b.SafetyKept c := ⟨h.saf_eq, h.now_eq⟩

theorem Bar.SafetyKept.ite {p : Prop} [Decidable p] (yes : b.SafetyKept c) (no : b.SafetyKept d) :
    b.SafetyKept (if p then c else d) := by
  split
  · exact yes
  · exact no

end

theorem Bar.emitChunk_handsOver (b : Bar) (k : Nat) (lines : List CodLine) : b.HandsOver (b.emitChunk k lines) := by
  unfold emitChunk
  split
  · extract_lets st segs parts body n head chunk faults worst faulty counted staged
    have faults : b.HandsOver faulty := .ite (.refl b) ((b.modCod_handsOver _).trans (logEvent_handsOver ..))
    exact faults.trans <| (faulty.modCod_handsOver _).trans <| (counted.modSto_handsOver _).trans (sendAll_handsOver ..)
  · exact .refl b

theorem Bar.endRow_safetyKept (b : Bar) (k : Nat) : b.SafetyKept (b.endRow k) := by
  unfold endRow
  split
  next lines _ =>
    have emits := (b.modCap fun c => { c with codRows := c.codRows.filter (·.1 ≠ k) }).emitChunk_handsOver k lines
    exact ⟨emits.saf_eq, emits.now_eq⟩
  · exact .refl b

theorem Bar.endRows_safetyKept (b : Bar) : b.SafetyKept b.endRows :=
  List.foldlRecOn (motive := b.SafetyKept) _ _ (.refl b) fun c kept k _ => kept.trans (c.endRow_safetyKept k)

theorem Bar.formAllItems_handsOver (b : Bar) : b.HandsOver b.formAllItems :=
  (HandsOver.foldl _ _ fun c e => c.formItem_handsOver e).trans (modSto_handsOver ..)

theorem Bar.stagingWrite_handsOver (b : Bar) : b.HandsOver b.stagingWrite := by
  unfold stagingWrite
  split
  · exact .refl b
  · exact (b.modSto_handsOver _).trans <| .ite (modSto_handsOver ..) (modSto_handsOver ..)

theorem Bar.stageAll_handsOver (b : Bar) (n : Nat) : b.HandsOver (b.stageAll n) := by
  induction n generalizing b with
  | zero => exact .refl b
  | succ n ih => exact b.stagingWrite_handsOver.trans (ih _)

theorem Bar.sealStart_handsOver (b : Bar) (line : Nat) : b.HandsOver (b.sealStart line) := by
  unfold sealStart
  split
  · exact b.formAllItems_handsOver.trans <| (stageAll_handsOver ..).trans <|
      .trans (.ite (logEvent_handsOver ..) (.refl _)) (modSto_handsOver ..)
  · exact .refl b

theorem Bar.startSealing_safetyKept (b : Bar) : b.SafetyKept b.startSealing :=
  b.endRows_safetyKept.trans (sealStart_handsOver ..).safetyKept

/-- A reset is decided: its cause is recorded, with the time of the decision (R437). -/
theorem Bar.decideReset_saf {b : Bar} (code : Nat) (h : b.saf.resetAt = none) :
    ∃ r, (b.decideReset code).saf = { b.saf with ret := r, resetAt := some (b.now, code) } := by
  obtain ⟨r, cause, -⟩ := (b.logEvent code 0).recordCause_eq code
  obtain ⟨saf, -⟩ := (((b.logEvent code 0).recordCause code).modSaf fun s => { s with resetAt := some (b.now, code) }).startSealing_safetyKept
  refine ⟨r, ?_⟩
  rw [decideReset, if_neg (by simp [h])]
  refine saf.trans ?_
  rw [cause]
  rfl

/-! ### Check-ins (R434) -/

/-- The check-ins of a period are well: one, in the window. -/
theorem judgeCheckins_eq_none_iff (window : Nat × Nat) (times : List Nat) :
    judgeCheckins window times = none ↔ ∃ u, times = [u] ∧ window.1 ≤ u ∧ u < window.2 := by
  unfold judgeCheckins
  split
  next => simp
  next t =>
    by_cases early : t < window.1
    · rw [if_pos early]
      exact ⟨fun none => absurd none (by decide), fun ⟨u, one, start, _⟩ => by cases one; omega⟩
    · rw [if_neg early]
      by_cases late : window.2 ≤ t
      · rw [if_pos late]
        exact ⟨fun none => absurd none (by decide), fun ⟨u, one, _, stop⟩ => by cases one; omega⟩
      · rw [if_neg late]
        exact ⟨fun _ => ⟨t, rfl, by omega, by omega⟩, fun _ => rfl⟩
  next other => exact ⟨fun none => absurd none (by decide), fun ⟨u, one, _⟩ => absurd one (other u)⟩

/-- From b to c nothing of the watchdog changes but the check-ins that its slots hold, and nothing else of the Ringmaster, the time or
the settings does. -/
def Bar.ChecksIn (b c : Bar) : Prop :=
  c.saf = { b.saf with wdg := { b.saf.wdg with slots := c.saf.wdg.slots } } ∧ c.now = b.now ∧ c.wdgSettings = b.wdgSettings

theorem Bar.ChecksIn.refl (b : Bar) : b.ChecksIn b := ⟨rfl, rfl, rfl⟩

theorem Bar.ChecksIn.trans {b c d : Bar} (first : b.ChecksIn c) (second : c.ChecksIn d) : b.ChecksIn d := by
  obtain ⟨saf, now, settings⟩ := first
  obtain ⟨saf', now', settings'⟩ := second
  exact ⟨by rw [saf', saf], now'.trans now, settings'.trans settings⟩

theorem Bar.HandsOver.checksIn {b c : Bar} (h : b.HandsOver c) : b.ChecksIn c := ⟨by rw [h.saf_eq], h.now_eq, h.wdgSettings_eq⟩

theorem Bar.checkIn_checksIn (b : Bar) (i : Fin 8) (t : Nat) : b.ChecksIn (b.checkIn i t) := by
  unfold checkIn
  extract_lets w times noted
  split
  · exact .refl b
  · have notes : b.ChecksIn noted := ⟨rfl, rfl, rfl⟩
    refine notes.trans (HandsOver.ite ?_ (.refl noted)).checksIn
    split
    · exact noted.logEvent_handsOver ..
    · exact .refl noted

theorem Bar.hostCheckin_checksIn (b : Bar) (seven : Bool) : b.ChecksIn (b.hostCheckin seven) := by
  have taken (f : Ecat → Ecat) (i : Fin 8) (t : Nat) : b.ChecksIn ((b.modEcat f).checkIn i t) :=
    .trans (c := b.modEcat f) ⟨rfl, rfl, rfl⟩ (checkIn_checksIn ..)
  cases seven with
  | false =>
    by_cases h : b.ecat.checkin6 = true
    · exact (congrArg b.ChecksIn (if_pos h)).mpr (taken _ 6 _)
    · exact (congrArg b.ChecksIn (if_neg h)).mpr (.refl b)
  | true =>
    by_cases h : b.ecat.checkin7 = true
    · exact (congrArg b.ChecksIn (if_pos h)).mpr (taken _ 7 _)
    · exact (congrArg b.ChecksIn (if_neg h)).mpr (.refl b)

theorem Bar.hostBefore_checksIn (b : Bar) : b.ChecksIn b.hostBefore := by
  unfold hostBefore
  split
  · exact (b.hostCheckin_checksIn false).trans (hostCheckin_checksIn ..)
  · exact .refl b

theorem Bar.judgeCarried_handsOver (b : Bar) (i : Fin 8) : b.HandsOver (b.judgeCarried i) := by
  unfold judgeCarried
  extract_lets w times
  refine .ite (.refl b) (.foldl _ _ fun c n => .ite ?_ (.refl c))
  split
  · exact c.logEvent_handsOver ..
  · exact .refl c

/-! ### The close of a period (R434 to R436) -/

/-- An engagement changes nothing of the Ringmaster but the Safety Net and the retained record. -/
theorem Bar.engage_saf (b : Bar) (code : Nat) (f : Causes → Causes) :
    (∃ sn ret, (b.engage code f).saf = { b.saf with sn := sn, ret := ret }) ∧ (b.engage code f).now = b.now := by
  cases h : b.saf.sn.engaged with
  | true =>
    rw [engage_of_engaged _ _ h]
    exact ⟨⟨_, _, rfl⟩, rfl⟩
  | false =>
    have keeps := engage_publishes code f h
    exact ⟨⟨_, _, keeps.saf_eq⟩, keeps.now_eq⟩

theorem Bar.clearCause_saf (b : Bar) (f : Causes → Causes) :
    (∃ sn, (b.clearCause f).saf = { b.saf with sn := sn } ∧ sn.causes = f b.saf.sn.causes ∧ sn.engaged = b.saf.sn.engaged) ∧
    (b.clearCause f).now = b.now := by
  unfold clearCause
  extract_lets before cleared
  split <;> exact ⟨⟨_, rfl, rfl, rfl⟩, rfl⟩

/-- The host slots' part of a close leaves the periods, the slots and the firmware's misses as they are. -/
theorem Bar.closeHost_saf (b : Bar) (w : Watchdog) :
    (∃ sn ret lost clean, (b.closeHost w).saf = { b.saf with sn := sn, ret := ret, wdg := { b.saf.wdg with hostLost := lost, hostClean := clean } }) ∧
    (b.closeHost w).now = b.now := by
  unfold closeHost
  split
  · obtain ⟨⟨sn, ret, saf⟩, now⟩ := (b.modWdg fun w => { w with hostLost := true, hostClean := 0 }).engage_saf 0xD027 fun c => { c with host := true }
    exact ⟨⟨sn, ret, true, 0, saf⟩, now⟩
  · split
    · extract_lets n
      split
      · obtain ⟨⟨sn, saf, -⟩, now⟩ := (b.modWdg fun w => { w with hostLost := false, hostClean := n }).clearCause_saf fun c => { c with host := false }
        exact ⟨⟨sn, b.saf.ret, false, n, saf⟩, now⟩
      · exact ⟨⟨_, _, _, _, rfl⟩, rfl⟩
    · exact ⟨⟨_, _, _, _, rfl⟩, rfl⟩

/-- The bar when a period has closed for its slots, before the consequences: the misses are logged, and the next period begins. -/
def Bar.periodClosed (b : Bar) (sup : Bool) : Bar :=
  let w := b.saf.wdg
  let c := w.missed.foldl (fun b i => if w.verdict i = some 0 then b.logEvent 0xD023 i.val else b) b
  (List.finRange 8).foldl (fun b i => b.judgeCarried i)
    (c.modWdg fun w' => { w' with k := w'.k + 1, tk := w.nextStart, inForce := c.wdgSettings, slots := Vector.ofFn (w'.closeSlot sup) })

theorem Bar.periodClosed_saf (b : Bar) (sup : Bool) :
    (b.periodClosed sup).saf = { b.saf with wdg := { b.saf.wdg with
      k := b.saf.wdg.k + 1, tk := b.saf.wdg.nextStart, inForce := b.wdgSettings, slots := Vector.ofFn (b.saf.wdg.closeSlot sup) } } ∧
    (b.periodClosed sup).now = b.now := by
  unfold periodClosed
  extract_lets w logged
  have logs : b.HandsOver logged := .foldl _ _ fun c i => .ite (c.logEvent_handsOver ..) (.refl c)
  have judges := HandsOver.foldl (b := logged.modWdg fun w' => { w' with
    k := w'.k + 1, tk := w.nextStart, inForce := logged.wdgSettings, slots := Vector.ofFn (w'.closeSlot sup) })
    (List.finRange 8) (fun b i => b.judgeCarried i) fun c i => c.judgeCarried_handsOver i
  rw [judges.saf_eq, judges.now_eq]
  refine ⟨?_, logs.now_eq⟩
  rw [modWdg, modSaf, logs.saf_eq, logs.wdgSettings_eq]

/-- The host slots are supervised in the period that begins: a session runs whose first cycle has been sampled (R434). -/
def Bar.hostSupervised (b : Bar) : Bool :=
  b.ecat.session && match b.saf.wdg.hostFrom with
    | some t => decide (t < b.saf.wdg.nextStart)
    | none => false

/-- Before its end, with the watchdog not started or a reset decided, a period does not close. -/
theorem Bar.periodClose_early {b : Bar}
    (h : b.saf.wdg.started = false ∨ b.now < b.saf.wdg.nextStart ∨ b.saf.resetAt.isSome = true) : b.periodClose = b := by
  have open_ : (b.saf.wdg.started && decide (b.saf.wdg.nextStart ≤ b.now) && b.saf.resetAt.isNone) = false := by
    rcases h with idle | early | decided
    · simp [idle]
    · simp [Nat.not_le.mpr early]
    · simp [Option.isNone_eq_false_iff.mpr decided]
  unfold periodClose
  simp only [open_, Bool.false_eq_true, if_false]
  exact if_pos (by simpa [or_assoc] using h)

theorem Bar.periodClose_due {b : Bar} (started : b.saf.wdg.started = true) (due : b.saf.wdg.nextStart ≤ b.now)
    (open_ : b.saf.resetAt = none) :
    ∃ sup, b.periodClose = ((b.hostBefore.periodClosed sup).closeHost b.hostBefore.saf.wdg).closeFirmware b.hostBefore.saf.wdg := by
  obtain ⟨saf, now, -⟩ := b.hostBefore_checksIn
  have closes : (!b.hostBefore.saf.wdg.started || decide (b.hostBefore.now < b.hostBefore.saf.wdg.nextStart) ||
      b.hostBefore.saf.resetAt.isSome) = false := by
    rw [saf, now]
    simp only [started, open_, Bool.not_true, Option.isSome_none, Bool.or_false, Bool.false_or, decide_eq_false_iff_not]
    exact Nat.not_lt.mpr due
  refine ⟨b.hostBefore.hostSupervised, ?_⟩
  have opens : (b.saf.wdg.started && decide (b.saf.wdg.nextStart ≤ b.now) && b.saf.resetAt.isNone) = true := by simp [started, due, open_]
  unfold periodClose
  rw [if_pos opens]
  extract_lets c w next sup logged begun judged
  rw [if_neg (ne_true_of_eq_false closes)]
  exact congrArg (fun d : Bar => (d.closeHost w).closeFirmware w) (show judged = c.periodClosed c.hostSupervised from rfl)

/-- No firmware slot has missed the period: the cause clears (R435). -/
theorem Bar.closeFirmware_met {b : Bar} {w : Watchdog} (h : ∀ i ∈ w.missed, ¬i.val < 6) :
    b.closeFirmware w = (b.modWdg fun w => { w with fwMissed := false }).clearCause fun c => { c with fw := false } := by
  have none : w.missed.find? (fun i => decide (i.val < 6)) = none := by simpa using h
  simp only [closeFirmware, none]

/-- A firmware slot has missed the period: the Safety Net engages, or the reset is decided where one had missed the period before. -/
theorem Bar.closeFirmware_missed {b : Bar} {w : Watchdog} {i : Fin 8} (member : i ∈ w.missed) (firmware : i.val < 6) :
    ∃ code, b.closeFirmware w = if w.fwMissed then b.decideReset 0xD029
      else (b.modWdg fun w => { w with fwMissed := true }).engage code fun c => { c with fw := true } := by
  cases found : w.missed.find? fun i => decide (i.val < 6) with
  | none => exact absurd firmware (by simpa using List.find?_eq_none.mp found i member)
  | some j => exact ⟨_, by simp only [closeFirmware, found]; rfl⟩

/-- What the close leaves of the slots and the periods: that of the slots' own close. -/
theorem Bar.closeFirmware_wdg (b : Bar) (w : Watchdog) (open_ : b.saf.resetAt = none) :
    ∃ missed, (b.closeFirmware w).saf.wdg = { b.saf.wdg with fwMissed := missed } := by
  unfold closeFirmware
  split
  · split
    · obtain ⟨r, saf⟩ := b.decideReset_saf 0xD029 open_
      exact ⟨_, congrArg (·.wdg) saf⟩
    · obtain ⟨⟨sn, ret, saf⟩, -⟩ := (b.modWdg fun w => { w with fwMissed := true }).engage_saf _ _
      exact ⟨true, congrArg (·.wdg) saf⟩
  · obtain ⟨⟨sn, saf, -⟩, -⟩ := (b.modWdg fun w => { w with fwMissed := false }).clearCause_saf fun c => { c with fw := false }
    exact ⟨false, congrArg (·.wdg) saf⟩

theorem Watchdog.mem_missed {w : Watchdog} {i : Fin 8} :
    i ∈ w.missed ↔ (w.slots[i]).supervised = true ∧ w.verdict i ≠ none := by
  simp [missed, Option.isSome_iff_ne_none]

theorem Watchdog.verdict_eq_none_iff (w : Watchdog) (i : Fin 8) : w.verdict i = none ↔
    ∃ u, ((w.slots[i]).times.filter fun t => decide (t < w.nextStart)) = [u] ∧ (w.window i).1 ≤ u ∧ u < (w.window i).2 :=
  judgeCheckins_eq_none_iff ..

/-- A slot after the close: it has passed exactly with a good verdict, and a supervised one without counts a miss. -/
theorem Watchdog.closeSlot_counts (w : Watchdog) (sup : Bool) (i : Fin 8) :
    ((w.closeSlot sup i).passed = true ↔ w.verdict i = none) ∧
    (i ∈ w.missed → (w.closeSlot sup i).misses = sat16 (w.slots[i]).misses) ∧
    (i ∉ w.missed → (w.closeSlot sup i).misses = (w.slots[i]).misses) := by
  simp only [mem_missed, closeSlot]
  cases w.verdict i with
  | none => simp
  | some v => simp +contextual

/-- What a close that is due leaves of the watchdog: the next period, with the slots after their close. -/
theorem Bar.periodClose_wdg {b : Bar} (started : b.saf.wdg.started = true) (due : b.saf.wdg.nextStart ≤ b.now)
    (open_ : b.saf.resetAt = none) :
    let w := b.hostBefore.saf.wdg
    ∃ sup, b.periodClose.saf.wdg.k = w.k + 1 ∧ b.periodClose.saf.wdg.tk = w.nextStart ∧ b.periodClose.saf.wdg.inForce = b.wdgSettings ∧
      ∀ i : Fin 8, b.periodClose.saf.wdg.slots[i] = w.closeSlot sup i := by
  intro w
  obtain ⟨sup, closes⟩ := periodClose_due started due open_
  obtain ⟨before, -, settings⟩ := b.hostBefore_checksIn
  obtain ⟨closed, -⟩ := b.hostBefore.periodClosed_saf sup
  obtain ⟨⟨sn, ret, lost, clean, host⟩, -⟩ := (b.hostBefore.periodClosed sup).closeHost_saf w
  have undecided : ((b.hostBefore.periodClosed sup).closeHost w).saf.resetAt = none := by
    rw [host, closed, before]
    exact open_
  obtain ⟨missed, firmware⟩ := closeFirmware_wdg _ w undecided
  refine ⟨sup, ?_⟩
  rw [closes, firmware, host, closed, ← settings]
  exact ⟨rfl, rfl, rfl, fun i => Vector.getElem_ofFn ..⟩

/-- What a close that is due leaves of the Safety Net and of a reset, by the firmware slots that missed the period (R435). -/
theorem Bar.periodClose_firmware {b : Bar} (started : b.saf.wdg.started = true) (due : b.saf.wdg.nextStart ≤ b.now)
    (open_ : b.saf.resetAt = none) :
    let w := b.hostBefore.saf.wdg
    ((∃ i ∈ w.missed, i.val < 6) → w.fwMissed = false → b.periodClose.saf.sn.engaged = true ∧ b.periodClose.saf.sn.causes.fw = true ∧
      b.periodClose.saf.wdg.fwMissed = true) ∧
    ((∃ i ∈ w.missed, i.val < 6) → w.fwMissed = true → b.periodClose.saf.resetAt = some (b.now, 0xD029)) ∧
    ((∀ i ∈ w.missed, ¬i.val < 6) → b.periodClose.saf.sn.causes.fw = false ∧ b.periodClose.saf.wdg.fwMissed = false) := by
  intro w
  obtain ⟨sup, closes⟩ := periodClose_due started due open_
  obtain ⟨before, now, -⟩ := b.hostBefore_checksIn
  obtain ⟨closed, now'⟩ := b.hostBefore.periodClosed_saf sup
  obtain ⟨⟨sn, ret, lost, clean, host⟩, now''⟩ := (b.hostBefore.periodClosed sup).closeHost_saf w
  rw [closes]
  refine ⟨fun ⟨i, member, firmware⟩ first => ?_, fun ⟨i, member, firmware⟩ again => ?_, fun met => ?_⟩
  · obtain ⟨code, engages⟩ := closeFirmware_missed (b := (b.hostBefore.periodClosed sup).closeHost w) member firmware
    rw [first] at engages
    rw [engages]
    obtain ⟨engaged, causes, -⟩ := (((b.hostBefore.periodClosed sup).closeHost w).modWdg fun w => { w with fwMissed := true }).engage_keeps code
      fun c => { c with fw := true }
    obtain ⟨⟨sn', ret', saf⟩, -⟩ := (((b.hostBefore.periodClosed sup).closeHost w).modWdg fun w => { w with fwMissed := true }).engage_saf code
      fun c => { c with fw := true }
    exact ⟨engaged, congrArg (·.fw) causes, congrArg (·.wdg.fwMissed) saf⟩
  · obtain ⟨code, decides⟩ := closeFirmware_missed (b := (b.hostBefore.periodClosed sup).closeHost w) member firmware
    rw [again] at decides
    have undecided : ((b.hostBefore.periodClosed sup).closeHost w).saf.resetAt = none := by
      rw [host, closed, before]
      exact open_
    obtain ⟨r, saf⟩ := decideReset_saf 0xD029 undecided
    rw [decides, ← now, ← now', ← now'']
    exact congrArg (·.resetAt) saf
  · rw [closeFirmware_met met]
    obtain ⟨⟨sn', saf, causes, -⟩, -⟩ := (((b.hostBefore.periodClosed sup).closeHost w).modWdg fun w => { w with fwMissed := false }).clearCause_saf
      fun c => { c with fw := false }
    rw [saf]
    exact ⟨congrArg (·.fw) causes, rfl⟩

/-- Settles O55: the close by what it leaves of the watchdog's slots, and by the firmware slots that missed the period. -/
theorem watchdogPeriodCloses : Obligations.WatchdogPeriodCloses := by
  intro s t running b stop w window good missed
  have answer : Answers s (.watchdogPeriodClose t) b.periodClose := .of_live (·.periodClose) running rfl
  refine ⟨fun h => ?_, fun started due open_ => ⟨_, answer, ?_⟩⟩
  · rwa [Bar.periodClose_early h] at answer
  · obtain ⟨before, -, -⟩ := b.hostBefore_checksIn
    have same : w = b.hostBefore.saf.wdg := congrArg (fun c : Bar => c.saf.wdg) (ite_of_iff decide_eq_true_iff.symm)
    have next : w.nextStart = stop := by rw [same, before]; rfl
    have good_iff (i : Fin 8) : good i ↔ w.verdict i = none := by
      rw [w.verdict_eq_none_iff, next]
      exact Iff.rfl
    have missed_iff (i : Fin 8) : missed i ↔ i ∈ w.missed := by
      rw [w.mem_missed, ne_eq, ← good_iff]
    obtain ⟨sup, k, tk, inForce, slots⟩ := Bar.periodClose_wdg started due open_
    obtain ⟨engages, decides, clears⟩ := Bar.periodClose_firmware started due open_
    rw [← same] at k tk slots engages decides clears
    refine ⟨k, tk.trans next, inForce, fun i => ?_, ?_, ?_, ?_⟩
    · obtain ⟨passed, counts, keeps⟩ := w.closeSlot_counts sup i
      simp only [slots, missed_iff, good_iff]
      exact ⟨passed, counts, keeps, by rw [← next]; rfl⟩
    · rintro ⟨i, firmware, h⟩
      exact engages ⟨i, (missed_iff i).mp h, firmware⟩
    · rintro ⟨i, firmware, h⟩
      exact decides ⟨i, (missed_iff i).mp h, firmware⟩
    · exact fun h => clears fun i member firmware => h i firmware ((missed_iff i).mpr member)

end Sys2Proof.Machine
end


section
/-! PROOFS. The words of the Carousel (chapter 12): decoding inverts encoding, and every word that decodes is the word of its
instruction. -/

namespace Sys2Proof.Machine

theorem bits_eq (x hi lo : Nat) : bits x hi lo = x / 2 ^ lo % 2 ^ (hi + 1 - lo) := by
  rw [bits, Nat.shiftRight_eq_div_pow]

theorem bit_eq (x i : Nat) : bit x i = decide (x / 2 ^ i % 2 = 1) := Nat.testBit_eq_decide_div_mod_eq

theorem b2n_bit (x i : Nat) : b2n (bit x i) = x / 2 ^ i % 2 := by
  rw [bit_eq, b2n]
  split <;> simp_all

@[simp] theorem b2n_false : b2n false = 0 := rfl
@[simp] theorem b2n_true : b2n true = 1 := rfl

theorem b2n_le_one (v : Bool) : b2n v ≤ 1 := by cases v <;> decide

theorem b2n_eq_one (v : Bool) : decide (b2n v = 1) = v := by cases v <;> rfl

/-- The operands of a legal WAIT fit their fields. -/
theorem lt_of_waitLegal {kind arg : Nat} (h : waitLegal kind arg = true) : kind < 12 ∧ arg < 64 := by
  unfold waitLegal at h
  grind

/-- The operands of a legal GET fit their fields. -/
theorem lt_of_getLegal {src arg : Nat} (h : getLegal src arg = true) : src < 14 ∧ arg < 64 := by
  unfold getLegal at h
  grind

theorem AluOp.code_lt (op : AluOp) : op.code < 10 := by cases op <;> decide

theorem decodeAluOp_code (op : AluOp) : decodeAluOp op.code = some op := by cases op <;> rfl

theorem PinAction.code_lt (a : PinAction) : a.code < 4 := by cases a <;> decide

/-- A decoded ALU operation has the code it was decoded from. -/
theorem code_of_decodeAluOp {n : Nat} {op : AluOp} (h : decodeAluOp n = some op) : op.code = n := by
  unfold decodeAluOp at h
  split at h <;> cases h <;> rfl

/-- A legal instruction's word fits 16 bits. -/
theorem CInstr.code_lt {i : CInstr} (h : i.wf = true) : i.code < 65536 := by
  cases i with
  | jmp cond target => simp [CInstr.wf] at h; simp only [CInstr.code]; omega
  | wait kind arg => have := lt_of_waitLegal h; simp only [CInstr.code]; omega
  | set a timed r pin => have := a.code_lt; have := b2n_le_one timed; simp only [CInstr.code]; omega
  | ldi r imm | ldh r imm => simp [CInstr.wf] at h; simp only [CInstr.code]; omega
  | alu op d arg =>
    have := op.code_lt
    cases arg with
    | reg r => simp only [CInstr.code]; omega
    | imm v => simp [CInstr.wf] at h; simp only [CInstr.code]; omega
  | get src r arg => have := lt_of_getLegal h; simp only [CInstr.code]; omega
  | send r v | fetch r v => have := b2n_le_one v; simp only [CInstr.code]; omega
  | shift isIn msb timed r pin =>
    have := b2n_le_one isIn; have := b2n_le_one msb; have := b2n_le_one timed; simp only [CInstr.code]; omega
  | putSh r | putBc r => simp only [CInstr.code]; omega
  | evt kind v => have := b2n_le_one v; cases kind <;> (simp only [CInstr.code]; omega)
  | nop | halt | clrsh | log => decide

theorem toNat_encodeCarousel {i : CInstr} (h : i.wf = true) : (encodeCarousel i).toNat = i.code := by
  rw [encodeCarousel, BitVec.toNat_ofNat]
  exact Nat.mod_eq_of_lt (CInstr.code_lt h)

theorem encodeCarousel_eq_of_code {i : CInstr} {w : Word16} (h : i.code = w.toNat) : encodeCarousel i = w :=
  BitVec.eq_of_toNat_eq (by rw [encodeCarousel, BitVec.toNat_ofNat, h]; exact Nat.mod_eq_of_lt w.isLt)

theorem bits_of_field {x hi lo n : Nat} (h : x / 2 ^ lo % 2 ^ (hi + 1 - lo) = n) : bits x hi lo = n := (bits_eq x hi lo).trans h

theorem bit_of_field {x i : Nat} {v : Bool} (h : x / 2 ^ i % 2 = b2n v) : bit x i = v := by
  rw [bit_eq, h, b2n_eq_one]

theorem regAt_of_field {w lo : Nat} {r : Fin 4} (h : w / 2 ^ lo % 4 = r.val) : regAt w lo = r := Fin.ext h

theorem pinAt_of_field {w : Nat} {i : Fin 64} (h : w % 64 = i.val) : pinAt w = i := Fin.ext h

/-- The operand fields of a row of Table 12-2 do not overlap, so each is read back from the word. -/
theorem decodeCarousel_of_code {i : CInstr} {w : Word16} (h : i.wf = true) (hw : w.toNat = i.code) :
    decodeCarousel w = some i := by
  unfold decodeCarousel
  dsimp only
  generalize w.toNat = x at hw
  cases i with
  | jmp cond target =>
    simp only [CInstr.wf, Bool.and_eq_true, decide_eq_true_eq, CInstr.code] at h hw
    have op : x / 4096 = 0 := by omega
    simp only [op, bits_of_field (x := x) (hi := 11) (lo := 8) (n := cond) (by omega),
      bits_of_field (x := x) (hi := 7) (lo := 0) (n := target) (by omega), if_pos h.1]
  | wait kind arg =>
    have := lt_of_waitLegal h
    simp only [CInstr.code] at hw
    have op : x / 4096 = 1 := by omega
    simp only [op, bits_of_field (x := x) (hi := 11) (lo := 8) (n := kind) (by omega),
      bits_of_field (x := x) (hi := 7) (lo := 0) (n := arg) (by omega)]
    exact if_pos h
  | set a timed r pin =>
    have := a.code_lt
    have := b2n_le_one timed
    simp only [CInstr.code] at hw
    have op : x / 4096 = 2 := by omega
    have reserved : bit x 8 = false := bit_of_field (by simp; omega)
    simp only [op, reserved, bits_of_field (x := x) (hi := 11) (lo := 10) (n := a.code) (by omega),
      bit_of_field (x := x) (i := 9) (v := timed) (by omega), regAt_of_field (w := x) (lo := 6) (r := r) (by omega),
      pinAt_of_field (w := x) (i := pin) (by omega)]
    cases a <;> rfl
  | ldi r imm =>
    simp only [CInstr.wf, decide_eq_true_eq, CInstr.code] at h hw
    have op : x / 4096 = 3 := by omega
    simp only [op, bits_of_field (x := x) (hi := 9) (lo := 8) (n := 0) (by omega),
      bits_of_field (x := x) (hi := 7) (lo := 0) (n := imm) (by omega), regAt_of_field (w := x) (lo := 10) (r := r) (by omega)]
    rfl
  | ldh r imm =>
    simp only [CInstr.wf, decide_eq_true_eq, CInstr.code] at h hw
    have op : x / 4096 = 4 := by omega
    simp only [op, bits_of_field (x := x) (hi := 9) (lo := 8) (n := 0) (by omega),
      bits_of_field (x := x) (hi := 7) (lo := 0) (n := imm) (by omega), regAt_of_field (w := x) (lo := 10) (r := r) (by omega)]
    rfl
  | alu o d arg =>
    have := o.code_lt
    cases arg with
    | reg r =>
      simp only [CInstr.code] at hw
      have op : x / 4096 = 5 := by omega
      have register : bit x 5 = false := bit_of_field (by simp; omega)
      simp only [op, register, bits_of_field (x := x) (hi := 11) (lo := 8) (n := o.code) (by omega), decodeAluOp_code,
        bits_of_field (x := x) (hi := 4) (lo := 2) (n := 0) (by omega), regAt_of_field (w := x) (lo := 6) (r := d) (by omega),
        regAt_of_field (w := x) (lo := 0) (r := r) (by omega)]
      rfl
    | imm v =>
      simp only [CInstr.wf, decide_eq_true_eq, CInstr.code] at h hw
      have op : x / 4096 = 5 := by omega
      have immediate : bit x 5 = true := bit_of_field (by simp; omega)
      simp only [op, immediate, bits_of_field (x := x) (hi := 11) (lo := 8) (n := o.code) (by omega), decodeAluOp_code,
        bits_of_field (x := x) (hi := 4) (lo := 0) (n := v) (by omega), regAt_of_field (w := x) (lo := 6) (r := d) (by omega)]
      rfl
  | get src r arg =>
    have := lt_of_getLegal h
    simp only [CInstr.code] at hw
    have op : x / 4096 = 6 := by omega
    simp only [op, bits_of_field (x := x) (hi := 11) (lo := 8) (n := src) (by omega),
      bits_of_field (x := x) (hi := 5) (lo := 0) (n := arg) (by omega), regAt_of_field (w := x) (lo := 6) (r := r) (by omega)]
    exact if_pos h
  | send r oldest =>
    have := b2n_le_one oldest
    simp only [CInstr.code] at hw
    have op : x / 4096 = 7 := by omega
    simp only [op, bits_of_field (x := x) (hi := 8) (lo := 0) (n := 0) (by omega),
      bit_of_field (x := x) (i := 9) (v := oldest) (by omega), regAt_of_field (w := x) (lo := 10) (r := r) (by omega)]
    rfl
  | fetch r peek =>
    have := b2n_le_one peek
    simp only [CInstr.code] at hw
    have op : x / 4096 = 8 := by omega
    simp only [op, bits_of_field (x := x) (hi := 8) (lo := 0) (n := 0) (by omega),
      bit_of_field (x := x) (i := 9) (v := peek) (by omega), regAt_of_field (w := x) (lo := 10) (r := r) (by omega)]
    rfl
  | shift isIn msb timed r pin =>
    have := b2n_le_one isIn
    have := b2n_le_one msb
    have := b2n_le_one timed
    simp only [CInstr.code] at hw
    have op : x / 4096 = 9 := by omega
    have reserved : bit x 8 = false := bit_of_field (by simp; omega)
    simp only [op, reserved, bit_of_field (x := x) (i := 11) (v := isIn) (by omega),
      bit_of_field (x := x) (i := 10) (v := msb) (by omega), bit_of_field (x := x) (i := 9) (v := timed) (by omega),
      regAt_of_field (w := x) (lo := 6) (r := r) (by omega), pinAt_of_field (w := x) (i := pin) (by omega)]
    rfl
  | putSh r =>
    simp only [CInstr.code] at hw
    have op : x / 4096 = 10 := by omega
    simp only [op, bits_of_field (x := x) (hi := 5) (lo := 0) (n := 0) (by omega),
      bits_of_field (x := x) (hi := 11) (lo := 8) (n := 0) (by omega), regAt_of_field (w := x) (lo := 6) (r := r) (by omega)]
    rfl
  | putBc r =>
    simp only [CInstr.code] at hw
    have op : x / 4096 = 10 := by omega
    simp only [op, bits_of_field (x := x) (hi := 5) (lo := 0) (n := 0) (by omega),
      bits_of_field (x := x) (hi := 11) (lo := 8) (n := 1) (by omega), regAt_of_field (w := x) (lo := 6) (r := r) (by omega)]
    rfl
  | evt kind atNow =>
    have := b2n_le_one atNow
    have op : x / 4096 = 11 := by cases kind <;> (simp only [CInstr.code] at hw; omega)
    have low : bits x 8 0 = 0 := bits_of_field (by cases kind <;> (simp only [CInstr.code] at hw; omega))
    have time : bit x 9 = atNow := bit_of_field (by cases kind <;> (simp only [CInstr.code] at hw; omega))
    simp only [op, low, time]
    cases kind with
    | leading => rw [bits_of_field (x := x) (hi := 11) (lo := 10) (n := 0) (by simp only [CInstr.code] at hw; omega)]; rfl
    | trailing => rw [bits_of_field (x := x) (hi := 11) (lo := 10) (n := 1) (by simp only [CInstr.code] at hw; omega)]; rfl
    | pulse => rw [bits_of_field (x := x) (hi := 11) (lo := 10) (n := 2) (by simp only [CInstr.code] at hw; omega)]; rfl
  | nop | halt | clrsh | log => rw [hw]; decide

/-- Every bit of a word that decodes is a field of its instruction or reserved and 0. -/
theorem code_of_decodeCarousel {i : CInstr} {w : Word16} (h : decodeCarousel w = some i) : i.wf = true ∧ i.code = w.toNat := by
  have := w.isLt
  unfold decodeCarousel at h
  dsimp only at h
  generalize w.toNat = x at h this
  split at h
  case h_1 op =>
    split at h <;> cases h
    next hc =>
    rw [bits_eq] at hc
    simp only [CInstr.wf, CInstr.code, bits_eq, Bool.and_eq_true, decide_eq_true_eq]
    omega
  case h_2 op =>
    split at h <;> cases h
    next hc =>
    refine ⟨hc, ?_⟩
    simp only [CInstr.code, bits_eq]
    omega
  case h_3 op =>
    split at h <;> cases h
    next hc =>
    rw [bit_eq, decide_eq_true_eq] at hc
    refine ⟨rfl, ?_⟩
    have fits : bits x 11 10 < 4 := Nat.mod_lt _ (by decide)
    have field := bits_eq x 11 10
    simp only [CInstr.code, b2n_bit, regAt, pinAt]
    generalize bits x 11 10 = n at fits field
    obtain rfl | rfl | rfl | rfl : n = 0 ∨ n = 1 ∨ n = 2 ∨ n = 3 := by omega
    all_goals simp only [PinAction.code] <;> omega
  case h_4 op | h_5 op =>
    split at h <;> cases h
    next hc =>
    rw [bits_eq] at hc
    simp only [CInstr.wf, CInstr.code, bits_eq, regAt, decide_eq_true_eq]
    omega
  case h_6 op =>
    split at h
    · cases h
    next o ho =>
    have ho := code_of_decodeAluOp ho
    rw [bits_eq] at ho
    split at h
    next him =>
      cases h
      rw [bit_eq, decide_eq_true_eq] at him
      simp only [CInstr.wf, CInstr.code, bits_eq, regAt, ho, decide_eq_true_eq]
      omega
    next hreg =>
      split at h <;> cases h
      next hc =>
      rw [bit_eq, decide_eq_true_eq] at hreg
      rw [bits_eq] at hc
      refine ⟨rfl, ?_⟩
      simp only [CInstr.code, regAt, ho]
      omega
  case h_7 op =>
    split at h <;> cases h
    next hc =>
    refine ⟨hc, ?_⟩
    simp only [CInstr.code, bits_eq, regAt]
    omega
  case h_8 op | h_9 op =>
    split at h <;> cases h
    next hc =>
    rw [bits_eq] at hc
    refine ⟨rfl, ?_⟩
    simp only [CInstr.code, b2n_bit, regAt]
    omega
  case h_10 op =>
    split at h <;> cases h
    next hc =>
    rw [bit_eq, decide_eq_true_eq] at hc
    refine ⟨rfl, ?_⟩
    simp only [CInstr.code, b2n_bit, regAt, pinAt]
    omega
  case h_11 op =>
    split at h
    · cases h
    next hc =>
    rw [bits_eq] at hc
    split at h <;> cases h <;> rename_i hn <;> rw [bits_eq] at hn <;> refine ⟨rfl, ?_⟩ <;> simp only [CInstr.code, regAt] <;> omega
  case h_12 op =>
    split at h
    · cases h
    next hc =>
    rw [bits_eq] at hc
    split at h <;> cases h <;> rename_i hn <;> rw [bits_eq] at hn <;> refine ⟨rfl, ?_⟩ <;> simp only [CInstr.code, b2n_bit] <;> omega
  case h_13 op =>
    split at h
    · cases h
    next hc =>
    rw [bits_eq] at hc
    split at h <;> cases h <;> rename_i hn <;> rw [bits_eq] at hn <;> refine ⟨rfl, ?_⟩ <;> simp only [CInstr.code] <;> omega
  case h_14 => cases h

/-- Settles O17. -/
theorem carouselWordsDecodeBack : Obligations.CarouselWordsDecodeBack :=
  fun _ h => decodeCarousel_of_code h (toNat_encodeCarousel h)

/-- Settles O18. -/
theorem carouselWordsAreUnique : Obligations.CarouselWordsAreUnique := by
  intro w i h
  obtain ⟨legal, code⟩ := code_of_decodeCarousel h
  exact ⟨legal, encodeCarousel_eq_of_code code⟩

end Sys2Proof.Machine
end


section
/-! PROOFS. The instructions of the Carousel in their channel's step (chapter 12): one rule for the step, one for each
instruction's effect. -/

namespace Sys2Proof.Machine

theorem Bar.instrStep_of_executes {b : Bar} {k : Fin 64} {i : CInstr} {sel : CInstr → Bool} (h : b.executes k i = true)
    (named : sel i = true) : b.instrStep k sel = (b.takeStep k).chExec k i := by
  simp only [Bar.executes, Bool.and_eq_true, decide_eq_true_eq, Bool.not_eq_true'] at h
  obtain ⟨⟨turn, word⟩, free⟩ := h
  simp only [Bar.instrStep, turn, word, named, free, if_true, Bool.not_false, Bool.and_true]

/-- A channel's command is answered with the effect of the instruction the channel executes. -/
theorem Answers.of_instr {s : State} {c : Instr} {t : Nat} {k : Fin 64} {lv : Word64} {i : CInstr} (sel : CInstr → Bool)
    (running : s.bar.alive = true) (h : (s.bar.stepAt t lv).executes k i = true) (named : sel i = true)
    (runs : exec c s = s.live t fun b => (b.samplePins lv b.now).instrStep k sel) {x : Bar}
    (effect : ((s.bar.stepAt t lv).takeStep k).chExec k i = x) : Answers s c x := by
  have step := (Bar.instrStep_of_executes (sel := sel) h named).trans effect
  exact step ▸ Answers.of_live (fun b => (b.samplePins lv b.now).instrStep k sel) running runs

theorem Bar.modChan_congr (b : Bar) (k : Fin 64) {f g : ChannelState → ChannelState} (h : f (b.chan k) = g (b.chan k)) :
    b.modChan k f = b.modChan k g := by
  unfold Bar.modChan vmod
  rw [show f b.io.chans[k] = g b.io.chans[k] from h]

theorem Bar.modChan_chan (b : Bar) (k : Fin 64) (f : ChannelState → ChannelState) : (b.modChan k f).chan k = f (b.chan k) :=
  vmod_same b.io.chans k f

theorem Bar.modChan_modChan (b : Bar) (k : Fin 64) (f g : ChannelState → ChannelState) :
    (b.modChan k f).modChan k g = b.modChan k fun c => g (f c) := by
  unfold Bar.modChan vmod
  simp

/-- What an ALU instruction does to its channel. -/
theorem Bar.chExec_alu (b : Bar) (k : Fin 64) (op : AluOp) (d : Fin 4) (arg : AluArg) :
    b.chExec k (.alu op d arg) = b.modChan k fun c =>
      let v := aluResult op c.g[d] (match arg with | .reg r => c.g[r] | .imm v => BitVec.ofNat 32 v)
      { c.goesOn with g := if op.stores then c.g.set d.val v else c.g, z := decide (v = 0), n := v.msb } := by
  cases op <;> rfl

/-- Settles O19. -/
theorem carouselAluComputes : Obligations.CarouselAluComputes := by
  intro s t k lv op d arg running h
  dsimp only
  have effect := Bar.chExec_alu ((s.bar.stepAt t lv).takeStep k) k op d arg
  cases op with
  | mov | add | sub | and | or | xor | shl | shr | cmp | tst =>
    exact .of_instr _ running h rfl rfl (effect.trans (Bar.modChan_congr _ _ rfl))

/-- The conditions of Table 12-4, of the channel that jumps. -/
theorem Bar.jumpHolds_iff (b : Bar) (k : Fin 64) (cond : Nat) : b.jumpHolds k cond = true ↔
    match cond with
    | 0 => True | 1 => (b.chan k).z = true | 2 => (b.chan k).z = false | 3 => (b.chan k).n = true | 4 => (b.chan k).n = false
    | 5 => b.pinSeen (pinAt (b.rwN (0x2A10 + k.val) 2)) = true | 6 => b.pinSeen (pinAt (b.rwN (0x2A10 + k.val) 2)) = false
    | 7 => (b.chan k).cq = [] | 8 => (b.chan k).cq ≠ [] | 9 => (b.chan k).bc = 0 | 10 => (b.chan k).bc ≠ 0
    | _ => (b.chan k).g[(3 : Fin 4)] - 1 ≠ 0 := by
  unfold jumpHolds
  match cond with
  | 0 => exact iff_of_true rfl trivial
  | 1 | 3 | 5 => exact Iff.rfl
  | 2 | 4 | 6 => exact Iff.of_eq (Bool.not_eq_true' _)
  | 7 => exact List.isEmpty_iff
  | 8 => exact (Iff.of_eq (Bool.not_eq_true' _)).trans List.isEmpty_eq_false_iff
  | 9 | 10 | n + 11 => exact decide_eq_true_iff

/-- JMP in one equation: the jump is taken or the channel goes on, and LOOP counts G3 down. -/
theorem Bar.chExec_jmp (b : Bar) (k : Fin 64) (cond target : Nat) :
    b.chExec k (.jmp cond target) = b.modChan k fun c =>
      let x := if cond = 11 then { c with g := c.g.set 3 (c.g[(3 : Fin 4)] - 1) } else c
      if b.jumpHolds k cond then { x with pc := target, busy := .ready } else x.goesOn := rfl

/-- Settles O20. -/
theorem carouselLoadsAndJumps : Obligations.CarouselLoadsAndJumps := by
  constructor
  · intro s t k lv r imm running
    refine ⟨fun h => ?_, fun h => ?_, fun h => ?_, fun h => ?_, fun h => ?_, fun h => ?_, fun h => ?_⟩ <;>
      exact .of_instr _ running h rfl rfl rfl
  · intro s t k lv cond target running h b c home holds after
    have taken : b.jumpHolds k cond = true ↔ holds := b.jumpHolds_iff k cond
    constructor
    · intro hh
      refine .of_instr _ running h rfl rfl ((Bar.chExec_jmp _ _ _ _).trans (Bar.modChan_congr _ _ ?_))
      exact if_pos (taken.mpr hh)
    · intro hh
      refine .of_instr _ running h rfl rfl ((Bar.chExec_jmp _ _ _ _).trans (Bar.modChan_congr _ _ ?_))
      exact if_neg fun x => hh (taken.mp x)

end Sys2Proof.Machine
end


section
/-! PROOFS. The queues, the events and GET of the Carousel (chapter 12). -/

namespace Sys2Proof.Machine

theorem Bar.chFetch_depth {b : Bar} {k : Fin 64} (r : Fin 4) (peek : Bool) (h : b.queueDepth k = 0) :
    b.chExec k (.fetch r peek) = b.faultChannel k .joinedQueue := if_pos h

theorem Bar.chFetch_empty {b : Bar} {k : Fin 64} (r : Fin 4) (peek : Bool) (h : 0 < b.queueDepth k) (empty : (b.chan k).cq = []) :
    b.chExec k (.fetch r peek) = b.modChan k fun c => { c.goesOn with e := true } := by
  refine (if_neg (by omega)).trans (Bar.modChan_congr _ _ ?_)
  dsimp only
  split
  · rfl
  · simp_all

theorem Bar.chFetch_word {b : Bar} {k : Fin 64} (r : Fin 4) (peek : Bool) {w : Word32} {rest : List Word32}
    (h : 0 < b.queueDepth k) (front : (b.chan k).cq = w :: rest) :
    b.chExec k (.fetch r peek) = b.modChan k fun c =>
      { c.goesOn with g := c.g.set r.val w, e := false, z := decide (w = 0), n := w.msb, cq := if peek then c.cq else rest } := by
  refine (if_neg (by omega)).trans (Bar.modChan_congr _ _ ?_)
  dsimp only
  split
  next none => simp [front] at none
  next w' rest' some =>
    obtain ⟨rfl, rfl⟩ := List.cons.inj (front.symm.trans some)
    rfl

theorem Bar.chSend_depth {b : Bar} {k : Fin 64} (r : Fin 4) (oldest : Bool) (h : b.queueDepth k = 0) :
    b.chExec k (.send r oldest) = b.faultChannel k .joinedQueue := if_pos h

theorem Bar.chSend_room {b : Bar} {k : Fin 64} (r : Fin 4) (oldest : Bool) (h : (b.chan k).rq.length < b.queueDepth k) :
    b.chExec k (.send r oldest) = b.modChan k fun c => { c.goesOn with rq := c.rq ++ [c.g[r]] } :=
  (if_neg (by omega)).trans (if_pos h)

theorem Bar.chSend_full {b : Bar} {k : Fin 64} (r : Fin 4) (oldest : Bool) (h : 0 < b.queueDepth k)
    (full : b.queueDepth k ≤ (b.chan k).rq.length) :
    b.chExec k (.send r oldest) = (b.logLimited 0xA023 k.val 0 1000000000).modChan k fun c =>
      { c.goesOn with rqOvf := true, rq := if oldest then c.rq.drop 1 ++ [c.g[r]] else c.rq } :=
  (if_neg (by omega)).trans (if_neg (by omega))

theorem Bar.chEvt_posts {b : Bar} {k : Fin 64} (kind : EventKind) (atNow : Bool) (none : (b.chan k).event = none) :
    b.chExec k (.evt kind atNow) = b.modChan k fun c =>
      { c.goesOn with event := some ⟨if atNow then b.now else c.ts, kind, c.evCount⟩
                      evCount := (c.evCount + 1) % 65536, evPosted := min 0xFFFFFFFF (c.evPosted + 1) } := by
  refine Bar.modChan_congr _ _ ?_
  dsimp only
  split
  next some => simp [none] at some
  next =>
    rw [← sat32_eq_min]
    rfl

theorem ChannelState.stall_of_ready {c : ChannelState} (now : Nat) (h : c.busy = .ready) :
    c.stall now = { c with busy := .waiting now } := by
  rw [ChannelState.stall, h]

theorem Bar.chEvt_stalls {b : Bar} {k : Fin 64} (kind : EventKind) (atNow : Bool) (waits : (b.chan k).event.isSome = true)
    (ready : (b.chan k).busy = .ready) :
    b.chExec k (.evt kind atNow) = b.modChan k fun c => { c with busy := .waiting b.now } := by
  obtain ⟨e, he⟩ := Option.isSome_iff_exists.mp waits
  refine Bar.modChan_congr _ _ ?_
  split
  · exact ChannelState.stall_of_ready _ ready
  next none => simp [he] at none

/-- The commands of FETCH, with and without PEEK, execute it. -/
theorem Answers.of_fetch {s : State} {t : Nat} {k : Fin 64} {lv : Word64} {r : Fin 4} {peek : Bool} (running : s.bar.alive = true)
    (h : (s.bar.stepAt t lv).executes k (.fetch r peek) = true) {x : Bar}
    (effect : ((s.bar.stepAt t lv).takeStep k).chExec k (.fetch r peek) = x) :
    Answers s (if peek then .fetchPeek t k lv else .fetch t k lv) x := by
  cases peek with
  | false => exact .of_instr _ running h rfl rfl effect
  | true => exact .of_instr _ running h rfl rfl effect

/-- The commands of EVT, one for each kind, execute it. -/
theorem Answers.of_evt {s : State} {t : Nat} {k : Fin 64} {lv : Word64} {kind : EventKind} {atNow : Bool}
    (running : s.bar.alive = true) (h : (s.bar.stepAt t lv).executes k (.evt kind atNow) = true) {x : Bar}
    (effect : ((s.bar.stepAt t lv).takeStep k).chExec k (.evt kind atNow) = x) :
    Answers s (eventCommand kind t k lv) x := by
  cases kind with
  | leading | trailing | pulse => exact .of_instr _ running h rfl rfl effect

/-- Settles O24. -/
theorem carouselQueuesAndEvents : Obligations.CarouselQueuesAndEvents := by
  constructor
  · intro s t k lv r oldest peek running b0 b fetch
    refine ⟨fun h depth empty => ?_, fun w rest h depth front => ?_, fun h room => ?_, fun h depth full => ?_, fun h depth => ?_,
      fun h depth => ?_⟩
    · exact .of_fetch running h (Bar.chFetch_empty r peek depth empty)
    · exact .of_fetch running h (Bar.chFetch_word r peek depth front)
    · exact .of_instr _ running h rfl rfl (Bar.chSend_room r oldest room)
    · exact .of_instr _ running h rfl rfl (Bar.chSend_full r oldest depth full)
    · exact .of_fetch running h (Bar.chFetch_depth r peek depth)
    · exact .of_instr _ running h rfl rfl (Bar.chSend_depth r oldest depth)
  · intro s t k lv kind atNow running b0 b h c
    exact ⟨fun none => .of_evt running h (Bar.chEvt_posts kind atNow none),
      fun waits ready => .of_evt running h (Bar.chEvt_stalls kind atNow waits ready)⟩

/-- A GET of a source without a shadow. -/
def Bar.gets (b : Bar) (k : Fin 64) (r : Fin 4) (v : Word32) (sh : Shadows → Shadows) : Bar :=
  b.modChan k fun c => { c.goesOn with g := c.g.set r.val v, z := decide (v = 0), n := v.msb, shadows := sh c.shadows }

/-- GET of source src gives v and changes the channel's shadows by sh. -/
theorem Bar.chExec_get_of {b : Bar} {k : Fin 64} {src arg : Nat} {r : Fin 4} {v : Word32} {sh : Shadows → Shadows}
    (h : b.chExec k (.get src r arg) = b.modChan k fun c => (({ c with shadows := sh (b.chan k).shadows }.setG r v).flags v).next) :
    b.chExec k (.get src r arg) = b.gets k r v sh := h.trans (Bar.modChan_congr _ _ rfl)

theorem pinAt_lt {n : Nat} (h : n < 64) : pinAt n = ⟨n, h⟩ := Fin.ext (Nat.mod_eq_of_lt h)

theorem Bar.bankLevels_lt (b : Bar) (bank : Nat) : b.bankLevels bank < 256 := sum_b2n_lt _ 8

/-- Bit i of a bank's levels is the level of its pin i. -/
theorem Bar.testBit_bankLevels (b : Bar) (bank i : Fin 8) :
    (b.bankLevels bank.val).testBit i.val = b.pinSeen ⟨8 * bank.val + i.val, by omega⟩ := by
  rw [← pinAt_lt]
  exact testBit_sum_b2n (fun i => b.pinSeen (pinAt (8 * bank.val + i))) i.isLt

theorem Bar.pairCount_eq (b : Bar) (j : Fin 8) :
    b.pairCount j = (if bit (b.rwN (0x2B10 + 2 * j.val) 1) 2 = true then (b.io.timers[(⟨2 * j.val, by omega⟩ : Fin 16)]).count
      else (b.io.timers[(⟨2 * j.val, by omega⟩ : Fin 16)]).count % 2 ^ 32
        + 2 ^ 32 * ((b.io.timers[(⟨2 * j.val + 1, by omega⟩ : Fin 16)]).count % 2 ^ 32)) := rfl

/-- The low half of a pair: its count now, and the high half to its shadow. -/
theorem Bar.chGet_pairLow (b : Bar) (k : Fin 64) (r : Fin 4) (j : Fin 8) :
    b.chExec k (.get 8 r (2 * j.val)) = b.gets k r (BitVec.ofNat 32 (b.pairCount j)) fun x =>
      { x with pairs := x.pairs.set j.val (some (BitVec.ofNat 32 (b.pairCount j / 2 ^ 32))) } := by
  have unit : (⟨2 * j.val / 2 % 8, by omega⟩ : Fin 8) = j := Fin.ext (by simp)
  refine Bar.chExec_get_of ?_
  show Bar.chGet b k 8 r (2 * j.val) = _
  simp only [Bar.chGet, unit]
  rfl

theorem Bar.chGet_pairHigh (b : Bar) (k : Fin 64) (r : Fin 4) (j : Fin 8) :
    b.chExec k (.get 9 r (2 * j.val)) = b.gets k r ((b.chan k).shadows.pairs[j].getD (BitVec.ofNat 32 (b.pairCount j / 2 ^ 32)))
      fun x => { x with pairs := x.pairs.set j.val none } := by
  have unit : (⟨2 * j.val / 2 % 8, by omega⟩ : Fin 8) = j := Fin.ext (by simp)
  refine Bar.chExec_get_of ?_
  show Bar.chGet b k 9 r (2 * j.val) = _
  simp only [Bar.chGet, unit]
  rfl

/-- Settles O25. -/
theorem carouselGetReadsShadows : Obligations.CarouselGetReadsShadows := by
  intro s t k lv r running b0 b low high got c
  have get {src arg : Nat} {x : Bar} (h : b0.executes k (.get src r arg) = true) (effect : b.chExec k (.get src r arg) = x) :
      Answers s (.get t k lv) x := .of_instr _ running h rfl rfl effect
  have same : got = b.gets k r := rfl
  clear_value got b
  subst same
  have plain {src arg : Nat} {v : Word32} {sh : Shadows → Shadows} (h : b0.executes k (.get src r arg) = true)
      (effect : b.chExec k (.get src r arg) =
        b.modChan k fun x => (({ x with shadows := sh (b.chan k).shadows }.setG r v).flags v).next) :
      Answers s (.get t k lv) (b.gets k r v sh) := get h (Bar.chExec_get_of (v := v) (sh := sh) effect)
  refine ⟨fun h => plain h rfl, fun h => plain h rfl, fun h => plain h rfl, fun h => plain h rfl, fun h => plain h rfl,
    fun h => plain h rfl, fun h => plain h rfl, fun h => plain h rfl, fun h => plain h rfl, fun h => plain h rfl,
    fun h => plain h rfl, fun j => ?_, fun bank h => ?_⟩
  · exact ⟨fun h => get h (b.chGet_pairLow k r j), fun h => get h (b.chGet_pairHigh k r j)⟩
  · have small := b.bankLevels_lt bank.val
    refine ⟨BitVec.ofNat 32 (b.bankLevels bank.val), plain h rfl, ?_, fun i => ?_⟩
    · rw [BitVec.toNat_ofNat]
      omega
    · rw [BitVec.getLsbD_ofNat, b.testBit_bankLevels bank i]
      simp
      omega

end Sys2Proof.Machine
end


section
/-! PROOFS. SET, SHIFT and the output compare of a pin (chapter 12). -/

namespace Sys2Proof.Machine

/-- The compare of pin i armed by channel k. -/
def Bar.arms (b : Bar) (k i : Fin 64) (target : Word32) (a : PinAction) (late : Bool) : Bar :=
  b.modPin i fun p => { p with compare := some ⟨target, a, late, k, b.stepFrom (engineOf k)⟩ }

theorem Bar.armPin_stalls {b : Bar} {k i : Fin 64} (target : Word32) (a : PinAction) (after : ChannelState → ChannelState)
    (armed : b.io.pins[i].compare.isSome = true) (ready : (b.chan k).busy = .ready) :
    b.armPin k i target a after = b.modChan k fun c => { c with busy := .waiting b.now } := by
  obtain ⟨oc, h⟩ := Option.isSome_iff_exists.mp armed
  simp only [Bar.armPin, h]
  exact Bar.modChan_congr _ _ (ChannelState.stall_of_ready _ ready)

theorem Bar.armPin_arms {b : Bar} {k i : Fin 64} {target : Word32} (a : PinAction) (after : ChannelState → ChannelState)
    (free : b.io.pins[i].compare = none)
    (ahead : ¬((BitVec.ofNat 32 b.now - target).msb = false ∧ BitVec.ofNat 32 b.now ≠ target)) :
    b.armPin k i target a after = (b.arms k i target a false).modChan k fun c => (after c).goesOn := by
  have early : (reached b.now target && decide (BitVec.ofNat 32 b.now ≠ target)) = false := by
    simpa [reached] using ahead
  simp only [Bar.armPin, free, early]
  rfl

theorem Bar.armPin_late {b : Bar} {k i : Fin 64} {target : Word32} (a : PinAction) (after : ChannelState → ChannelState)
    (free : b.io.pins[i].compare = none)
    (passed : (BitVec.ofNat 32 b.now - target).msb = false ∧ BitVec.ofNat 32 b.now ≠ target) :
    b.armPin k i target a after =
      ((b.arms k i target a true).logLimited 0xA022 k.val (k.val * 2 ^ 56 + i.val) 1000000000).modChan k fun c =>
        (after { c with outLate := true, lateCount := min 0xFFFFFFFF (c.lateCount + 1) }).goesOn := by
  have late : (reached b.now target && decide (BitVec.ofNat 32 b.now ≠ target)) = true := by
    simpa [reached] using passed
  simp only [Bar.armPin, free, late, if_true, Bar.modChan_modChan, sat32_eq_min]
  rfl

/-- A channel that drives a pin it does not own. -/
theorem Bar.chExec_set_notOwned {b : Bar} {k i : Fin 64} (a : PinAction) (timed : Bool) (r : Fin 4) (h : b.ownsPin k i = false) :
    b.chExec k (.set a timed r i) = b.faultChannel k .pinNotOwned := if_pos (by simp [h])

theorem Bar.chExec_setAt {b : Bar} {k i : Fin 64} (a : PinAction) (r : Fin 4) (h : b.ownsPin k i = true) :
    b.chExec k (.set a true r i) = b.armPin k i (b.chan k).g[r] a id := (if_neg (by simp [h])).trans (if_pos rfl)

theorem Bar.chExec_setNow {b : Bar} {k i : Fin 64} (a : PinAction) (r : Fin 4) (h : b.ownsPin k i = true) :
    b.chExec k (.set a false r i) = (b.actPin i a).modChan k fun c => c.goesOn := (if_neg (by simp [h])).trans (if_neg nofun)

/-- The level that an output SHIFT drives. -/
def ChannelState.bitOut (msb : Bool) (c : ChannelState) : PinAction :=
  if (if msb then c.sh.msb else c.sh.getLsbD 0) then .high else .low

theorem Bar.chExec_shiftOut_notOwned {b : Bar} {k i : Fin 64} (msb timed : Bool) (r : Fin 4) (h : b.ownsPin k i = false) :
    b.chExec k (.shift false msb timed r i) = b.faultChannel k .pinNotOwned := by
  simp [Bar.chExec, Bar.chShift, h]

theorem Bar.chExec_shiftOutAt {b : Bar} {k i : Fin 64} (msb : Bool) (r : Fin 4) (h : b.ownsPin k i = true) :
    b.chExec k (.shift false msb true r i) = b.armPin k i (b.chan k).g[r] ((b.chan k).bitOut msb) (shiftedOut msb) := by
  simp [Bar.chExec, Bar.chShift, h, ChannelState.bitOut]

theorem Bar.chExec_shiftOutNow {b : Bar} {k i : Fin 64} (msb : Bool) (r : Fin 4) (h : b.ownsPin k i = true) :
    b.chExec k (.shift false msb false r i) =
      (b.actPin i ((b.chan k).bitOut msb)).modChan k fun c => (shiftedOut msb c).goesOn := by
  simp [Bar.chExec, Bar.chShift, h, ChannelState.bitOut]
  rfl

/-- The level that an input SHIFT takes: the pin's now, or the one held since the pin changed after the step that reached Gx. -/
def Bar.bitIn (b : Bar) (k i : Fin 64) : Bool :=
  match (b.chan k).busy with | .waiting _ (some level) => level = 1 | _ => b.pinSeen i

theorem Bar.chExec_shiftIn {b : Bar} {k i : Fin 64} (msb timed : Bool) (r : Fin 4)
    (due : timed = true → (BitVec.ofNat 32 b.now - (b.chan k).g[r]).msb = false) :
    b.chExec k (.shift true msb timed r i) = b.modChan k fun c => (shiftedIn msb (b.bitIn k i) c).goesOn := by
  have go : ¬(timed && !reached b.now (b.chan k).g[r]) = true := by
    cases timed with
    | false => simp
    | true => simp only [reached, due rfl]; decide
  show b.chShift k true msb timed r i = _
  unfold Bar.chShift
  dsimp only
  rw [if_pos rfl, if_neg go]
  rfl

theorem Bar.chExec_shiftIn_stalls {b : Bar} {k i : Fin 64} (msb : Bool) (r : Fin 4)
    (early : ¬(BitVec.ofNat 32 b.now - (b.chan k).g[r]).msb = false) (ready : (b.chan k).busy = .ready) :
    b.chExec k (.shift true msb true r i) = b.modChan k fun c => { c with busy := .waiting b.now } := by
  have wait : (true && !reached b.now (b.chan k).g[r]) = true := by simpa [reached] using early
  show b.chShift k true msb true r i = _
  unfold Bar.chShift
  dsimp only
  rw [if_pos rfl, if_pos wait]
  exact b.modChan_congr k (ChannelState.stall_of_ready b.now ready)

/-- Settles O23. -/
theorem carouselShifts : Obligations.CarouselShifts := by
  intro s t k i lv r timed msb running b0 b level due out
  have shiftIn {x : Bar} {timed : Bool} (h : b0.executes k (.shift true msb timed r i) = true)
      (effect : b.chExec k (.shift true msb timed r i) = x) : Answers s (.shiftIn t k lv) x := .of_instr _ running h rfl rfl effect
  have shiftOut {x : Bar} {timed : Bool} (h : b0.executes k (.shift false msb timed r i) = true)
      (effect : b.chExec k (.shift false msb timed r i) = x) : Answers s (.shiftOut t k lv) x := .of_instr _ running h rfl rfl effect
  have levelIs : level = b2n (b.bitIn k i) := by
    simp only [level, Bar.bitIn]
    generalize (b.chan k).busy = busy
    cases busy with
    | ready => rfl
    | waiting since met =>
      cases met with
      | none => rfl
      | some l => simp [b2n]
  clear_value level b
  subst levelIs
  refine ⟨fun h reached => shiftIn h (Bar.chExec_shiftIn msb timed r reached), fun h at' early ready => ?_, ?_⟩
  · subst at'
    exact shiftIn h (Bar.chExec_shiftIn_stalls msb r early ready)
  · intro bitOut target passed armed
    refine ⟨fun h owned => shiftOut h (Bar.chExec_shiftOutNow msb r owned), fun h owned => ⟨fun busy ready => ?_, fun free ahead => ?_, fun free late => ?_⟩⟩
    · exact shiftOut h ((Bar.chExec_shiftOutAt msb r owned).trans (Bar.armPin_stalls _ _ _ busy ready))
    · exact shiftOut h ((Bar.chExec_shiftOutAt msb r owned).trans (Bar.armPin_arms _ _ free ahead))
    · exact shiftOut h ((Bar.chExec_shiftOutAt msb r owned).trans (Bar.armPin_late _ _ free late))

/-- The commands of SET, one for each action, execute it. -/
theorem Answers.of_set {s : State} {t : Nat} {k i : Fin 64} {lv : Word64} {a : PinAction} {timed : Bool} {r : Fin 4}
    (running : s.bar.alive = true) (h : (s.bar.stepAt t lv).executes k (.set a timed r i) = true) {x : Bar}
    (effect : ((s.bar.stepAt t lv).takeStep k).chExec k (.set a timed r i) = x) : Answers s (a.command t k lv) x := by
  cases a with
  | low | high | toggle | release => exact .of_instr _ running h rfl rfl effect

theorem severityOf_chFault : severityOf 0xA020 = 2 := by decide +kernel

/-- PIN_NOT_OWNED written out. -/
theorem Bar.faultChannel_notOwned (b : Bar) (k : Fin 64) :
    b.faultChannel k .pinNotOwned = ((((b.modChan k fun c => { c with fault := .pinNotOwned }).modEngine (engineOf k) fun e =>
      { e with faults := min 0xFFFFFFFF (e.faults + 1) }).logAt 0xA020 (k.val * 2 ^ 56 + 2 * 256 + (b.chan k).pc) 2).modChan k fun c =>
      { c with active := false, busy := .ready, event := none }).haltPinsOf k := by
  simp only [Bar.faultChannel, Bar.haltChannel, Bar.logEvent, severityOf_chFault, sat32_eq_min]
  rfl

theorem Bar.compareDue_iff (b : Bar) (oc : OutCompare) :
    b.compareDue oc = true ↔ (oc.late = true ∧ oc.step < b.stepFrom (engineOf oc.owner)) ∨
      (oc.late = false ∧ (BitVec.ofNat 32 (b.stepFrom (engineOf oc.owner)) - oc.target).msb = false) := by
  cases late : oc.late <;> simp [Bar.compareDue, late, reached]

theorem Bar.compareFire_due {b : Bar} {i : Fin 64} {oc : OutCompare} (armed : b.io.pins[i].compare = some oc)
    (due : b.compareDue oc = true) : b.compareFire i =
      (let x := b.modPin i fun p => { p with compare := none }
       if b.timerPin i.val then x else x.actPin i oc.action) := by
  simp only [Bar.compareFire, armed, due, if_true]
  rfl

theorem Bar.compareFire_early {b : Bar} {i : Fin 64} {oc : OutCompare} (armed : b.io.pins[i].compare = some oc)
    (early : ¬b.compareDue oc = true) : b.compareFire i = b := by
  simp only [Bar.compareFire, armed, if_neg early]

/-- Settles O22. -/
theorem carouselSetsOwnedPins : Obligations.CarouselSetsOwnedPins := by
  refine ⟨⟨?_, ?_⟩, ?_⟩
  · intro s t k i lv r timed a running b0 b h owned target passed armed
    refine ⟨fun now => ?_, fun at' busy ready => ?_, fun at' free ahead => ?_, fun at' free late => ?_⟩
    · subst now
      exact .of_set running h (Bar.chExec_setNow a r owned)
    · subst at'
      exact .of_set running h ((Bar.chExec_setAt a r owned).trans (Bar.armPin_stalls _ _ _ busy ready))
    · subst at'
      exact .of_set running h ((Bar.chExec_setAt a r owned).trans (Bar.armPin_arms _ _ free ahead))
    · subst at'
      exact .of_set running h ((Bar.chExec_setAt a r owned).trans (Bar.armPin_late _ _ free late))
  · intro s t i oc running b armed step due
    have fires : Answers s (.outputCompareFire t i) (b.compareFire i) := .of_live (fun b => b.compareFire i) running rfl
    refine ⟨fun now none => ?_, fun now timer => ?_, fun early => ?_⟩
    · rw [Bar.compareFire_due armed ((b.compareDue_iff oc).mpr now)] at fires
      simpa only [none, Bool.false_eq_true, if_false] using fires
    · rw [Bar.compareFire_due armed ((b.compareDue_iff oc).mpr now)] at fires
      simpa only [timer, if_true] using fires
    · rwa [Bar.compareFire_early armed fun x => early ((b.compareDue_iff oc).mp x)] at fires
  · intro s t k i lv r timed msb a running b0 b foreign faulted
    have same : b.faultChannel k .pinNotOwned = faulted := b.faultChannel_notOwned k
    exact ⟨fun h => .of_set running h ((Bar.chExec_set_notOwned a timed r foreign).trans same),
      fun h => .of_instr _ running h rfl rfl ((Bar.chExec_shiftOut_notOwned msb timed r foreign).trans same)⟩

end Sys2Proof.Machine
end


section
/-! PROOFS. WAIT (Table 12-3): how it begins, what meets it and how it completes. -/

namespace Sys2Proof.Machine

theorem Bar.fetched_modChan (b : Bar) (k : Fin 64) {f : ChannelState → ChannelState} (h : (f (b.chan k)).pc = (b.chan k).pc) :
    (b.modChan k f).fetched k = b.fetched k := by
  unfold Bar.fetched
  rw [Bar.modChan_chan, h]
  rfl

/-- What a WAIT looks at is the bar but for the channel's place and its state of waiting. -/
theorem Bar.waitMet_modChan (b : Bar) (k : Fin 64) {f : ChannelState → ChannelState} (kind arg since : Nat) (ev : StepEvent)
    (cq : (f (b.chan k)).cq = (b.chan k).cq) (rq : (f (b.chan k)).rq = (b.chan k).rq) (g : (f (b.chan k)).g = (b.chan k).g) :
    (b.modChan k f).waitMet k kind arg since ev = b.waitMet k kind arg since ev := by
  unfold Bar.waitMet
  rw [Bar.modChan_chan]
  dsimp only
  rw [cq, rq, g]
  rfl

/-- A condition of Table 12-3 that stands: a level, words, room, a time or a position. -/
def Bar.waitStands (b : Bar) (k : Fin 64) (kind arg : Nat) : Prop :=
  match kind with
  | 3 => b.pinSeen (pinAt arg) = true
  | 4 => b.pinSeen (pinAt arg) = false
  | 5 => arg ≤ (b.chan k).cq.length
  | 6 => (b.chan k).rq.length + arg ≤ b.queueDepth k
  | 7 => (BitVec.ofNat 32 b.now - (b.chan k).g[regAt arg 0]).msb = false
  | 8 => (BitVec.ofNat 32 (b.io.pos[(0 : Fin 2)]).toNat - (b.chan k).g[regAt arg 0]).msb = false
  | 9 => (BitVec.ofNat 32 (b.io.pos[(1 : Fin 2)]).toNat - (b.chan k).g[regAt arg 0]).msb = false
  | _ => False

/-- An edge that the pin of a WAIT has been sampled with in the WAIT's own step. -/
def Bar.edgeInStep (b : Bar) (k : Fin 64) (kind arg : Nat) : Prop :=
  0 < (b.io.pins[pinAt arg]).edgeTime ∧ b.stepFrom (engineOf k) ≤ (b.io.pins[pinAt arg]).edgeTime ∧
    (kind = 0 ∧ b.pinSeen (pinAt arg) = true ∨ kind = 1 ∧ b.pinSeen (pinAt arg) = false ∨ kind = 2)

theorem Bar.waitMet_of_stands {b : Bar} {k : Fin 64} {kind arg : Nat} (since : Nat) (ev : StepEvent)
    (h : b.waitStands k kind arg) :
    b.waitMet k kind arg since ev = some (if kind ≤ 4 then (b.io.pins[pinAt arg]).edgeTime else 0) := by
  unfold Bar.waitStands at h
  unfold Bar.waitMet
  dsimp only
  split at h <;> simp_all [reached]

/-- Without an event of its own step, a WAIT is met only by a condition that stands. -/
theorem Bar.waitMet_of_not_stands {b : Bar} {k : Fin 64} {kind arg : Nat} (since : Nat) (h : ¬b.waitStands k kind arg) :
    b.waitMet k kind arg since .none = none := by
  unfold Bar.waitStands at h
  unfold Bar.waitMet
  dsimp only
  split at h <;> simp_all [reached, Bar.edgeSeen]
  split <;> simp_all

/-- An edge of the step meets the waits for it. -/
theorem Bar.waitMet_of_edgeInStep {b : Bar} {k : Fin 64} {kind arg : Nat} (h : b.edgeInStep k kind arg) :
    b.waitMet k kind arg (b.stepFrom (engineOf k)) (b.ownStep k kind arg) = some (b.io.pins[pinAt arg]).edgeTime := by
  obtain ⟨sampled, now, which⟩ := h
  have own (early : kind ≤ 2) : b.ownStep k kind arg = .edge (pinAt arg) (b.pinPhys (pinAt arg)) (b.io.pins[pinAt arg]).edgeTime :=
    if_pos (by simp only [early, sampled, now]; decide)
  obtain ⟨rfl, level⟩ | ⟨rfl, level⟩ | rfl := which
  · rw [own (by decide)]
    rw [Bar.pinSeen] at level
    simp only [Bar.waitMet, Bar.edgeSeen, level, now]
    simp
  · rw [own (by decide)]
    rw [Bar.pinSeen] at level
    simp only [Bar.waitMet, Bar.edgeSeen, level, now]
    simp
  · rw [own (by decide)]
    simp only [Bar.waitMet, Bar.edgeSeen, now]
    simp

/-- Without an edge for it, the step brings a WAIT nothing but what stands. -/
theorem Bar.waitMet_ownStep_of_not_edge {b : Bar} {k : Fin 64} {kind arg : Nat} (h : ¬b.edgeInStep k kind arg)
    (waits : ¬b.waitStands k kind arg) :
    b.waitMet k kind arg (b.stepFrom (engineOf k)) (b.ownStep k kind arg) = none := by
  unfold Bar.ownStep
  dsimp only
  split
  next own =>
    simp only [Bool.and_eq_true, decide_eq_true_eq] at own
    obtain ⟨⟨early, sampled⟩, now⟩ := own
    simp only [Bar.edgeInStep, sampled, now, true_and, Bar.pinSeen] at h
    obtain rfl | rfl | rfl : kind = 0 ∨ kind = 1 ∨ kind = 2 := by omega
    all_goals simp_all [Bar.waitMet, Bar.edgeSeen]
  next => exact Bar.waitMet_of_not_stands _ waits

section
variable {b : Bar} {k : Fin 64} {since kind arg : Nat} {ev : StepEvent}

theorem Bar.noteWait_met {ts : Nat} (busy : (b.chan k).busy = .waiting since none)
    (word : decodeCarousel (b.fetched k) = some (.wait kind arg)) (met : b.waitMet k kind arg since ev = some ts) :
    b.noteWait ev k = b.modChan k fun c => { c with busy := .waiting since (some ts) } := by
  simp only [Bar.noteWait, busy, word, met]

theorem Bar.noteWait_unmet (busy : (b.chan k).busy = .waiting since none)
    (word : decodeCarousel (b.fetched k) = some (.wait kind arg)) (unmet : b.waitMet k kind arg since ev = none) :
    b.noteWait ev k = b := by
  simp only [Bar.noteWait, busy, word, unmet]

theorem Bar.noteWait_of_met {ts : Nat} (busy : (b.chan k).busy = .waiting since (some ts)) : b.noteWait ev k = b := by
  simp only [Bar.noteWait, busy]

end

section
variable {b : Bar} {k : Fin 64} {kind arg : Nat}

theorem Bar.chExec_wait_unqueued (queued : kind = 5 ∨ kind = 6) (depth : b.queueDepth k = 0) :
    b.chExec k (.wait kind arg) = b.faultChannel k .joinedQueue := if_pos (by simp [queued, depth])

theorem Bar.chExec_wait_illegal (queued : kind = 5 ∨ kind = 6) (depth : 0 < b.queueDepth k) (count : arg = 0 ∨ b.queueDepth k < arg) :
    b.chExec k (.wait kind arg) = b.faultChannel k .illegalOp :=
  (if_neg (by simp [queued]; omega)).trans (if_pos (by simp [queued, count]))

theorem Bar.modChan_stall (now : Nat) (ready : (b.chan k).busy = .ready) :
    (b.modChan k fun c => c.stall now) = b.modChan k fun c => { c with busy := .waiting now } :=
  b.modChan_congr k (ChannelState.stall_of_ready now ready)

variable (ready : (b.chan k).busy = .ready) (word : decodeCarousel (b.fetched k) = some (.wait kind arg))
  (legal : kind = 5 ∨ kind = 6 → 0 < arg ∧ arg ≤ b.queueDepth k)
include ready word legal

/-- A WAIT that does not fault begins to wait, and looks at its own step. -/
theorem Bar.chExec_wait_legal {met : Option Nat}
    (step : b.waitMet k kind arg (b.stepFrom (engineOf k)) (b.ownStep k kind arg) = met) :
    b.chExec k (.wait kind arg) =
      (b.modChan k fun c => { c with busy := .waiting (b.stepFrom (engineOf k)) met }).chWaitComplete k kind met := by
  show b.chWait k kind arg = _
  unfold Bar.chWait
  rw [if_neg (by simp; omega), if_neg (by simp; omega),
    Bar.modChan_stall _ ready]
  have busy := congrArg ChannelState.busy (b.modChan_chan k fun c => { c with busy := .waiting (b.stepFrom (engineOf k)) })
  have word' := (b.fetched_modChan k (f := fun c => { c with busy := .waiting (b.stepFrom (engineOf k)) }) rfl).symm ▸ word
  have step' := (b.waitMet_modChan k (f := fun c => { c with busy := .waiting (b.stepFrom (engineOf k)) }) kind arg
    (b.stepFrom (engineOf k)) (b.ownStep k kind arg) rfl rfl rfl).trans step
  cases met with
  | none =>
    rw [Bar.noteWait_unmet busy word' step']
    dsimp only
    rw [busy]
  | some ts =>
    rw [Bar.noteWait_met busy word' step', Bar.modChan_modChan]
    dsimp only
    rw [Bar.modChan_chan]

theorem Bar.chExec_wait_met {ts : Nat} 
    (step : b.waitMet k kind arg (b.stepFrom (engineOf k)) (b.ownStep k kind arg) = some ts) :
    b.chExec k (.wait kind arg) = b.modChan k fun c => { c.goesOn with ts := if kind ≤ 4 ∨ 10 ≤ kind then ts else c.ts } := by
  rw [Bar.chExec_wait_legal ready word legal step, Bar.chWaitComplete, Bar.modChan_modChan]
  refine b.modChan_congr k ?_
  by_cases loads : kind ≤ 4 ∨ 10 ≤ kind
  · simp [loads]
    rfl
  · simp [loads]
    rfl

theorem Bar.chExec_wait_waits (step : b.waitMet k kind arg (b.stepFrom (engineOf k)) (b.ownStep k kind arg) = none) :
    b.chExec k (.wait kind arg) = b.modChan k fun c => { c with busy := .waiting (b.stepFrom (engineOf k)) } :=
  Bar.chExec_wait_legal ready word legal step

end

/-- A channel that executes a WAIT is ready for it. -/
theorem Bar.executes_wait {b : Bar} {k : Fin 64} {kind arg : Nat} (h : b.executes k (.wait kind arg) = true) :
    ((b.takeStep k).chan k).busy = .ready ∧ decodeCarousel ((b.takeStep k).fetched k) = some (.wait kind arg) := by
  simp only [Bar.executes, Bool.and_eq_true, decide_eq_true_eq, Bool.not_eq_true'] at h
  obtain ⟨⟨-, word⟩, free⟩ := h
  refine ⟨?_, ?_⟩
  · rw [Bar.takeStep, Bar.modChan_chan]
    show (b.chan k).busy = .ready
    cases busy : (b.chan k).busy with
    | ready => rfl
    | waiting since met => simp [ChannelState.inWait, busy] at free
  · rwa [Bar.takeStep, Bar.fetched_modChan]
    rfl

/-- A pending WAIT at its channel's turn: it goes on as the condition has been met, now or before, or stays. -/
theorem Bar.waitCompleteStep_eq {b : Bar} {k : Fin 64} {since kind arg : Nat} {met : Option Nat} (turn : b.canStep k = true)
    (word : decodeCarousel (b.fetched k) = some (.wait kind arg)) (busy : ((b.noteWait .none k).chan k).busy = .waiting since met) :
    b.waitCompleteStep k kind = (b.takeStep k).chWaitComplete k kind met := by
  simp only [Bar.waitCompleteStep, turn, word, busy, if_true]

theorem Bar.chWaitComplete_some (b : Bar) (k : Fin 64) (kind ts : Nat) :
    b.chWaitComplete k kind (some ts) = b.modChan k fun c => { c.goesOn with ts := if kind ≤ 4 ∨ 10 ≤ kind then ts else c.ts } := by
  refine b.modChan_congr k ?_
  by_cases loads : kind ≤ 4 ∨ 10 ≤ kind
  · simp [loads]
    rfl
  · simp [loads]
    rfl

theorem Bar.takeStep_waitStands (b : Bar) (k : Fin 64) (kind arg : Nat) :
    (b.takeStep k).waitStands k kind arg ↔ b.waitStands k kind arg := by
  unfold Bar.waitStands
  rw [Bar.takeStep, Bar.modChan_chan]
  exact Iff.rfl

/-- Kinds with a condition that stands load TS only for a level. -/
theorem Bar.kind_of_waitStands {b : Bar} {k : Fin 64} {kind arg : Nat} (h : b.waitStands k kind arg) : 3 ≤ kind ∧ kind ≤ 9 := by
  unfold Bar.waitStands at h
  split at h <;> first | decide | exact h.elim

/-- Settles O21. -/
theorem carouselWaits : Obligations.CarouselWaits := by
  unfold Obligations.CarouselWaits
  intro stands
  have same : stands = Bar.waitStands := rfl
  clear_value stands
  subst same
  refine ⟨?_, ?_, ?_⟩
  · intro s t k lv kind arg running h b queued
    have wait {x : Bar} (effect : b.chExec k (.wait kind arg) = x) : Answers s (.wait t k lv) x := .of_instr _ running h rfl rfl effect
    obtain ⟨ready, word⟩ := Bar.executes_wait h
    refine ⟨fun q depth => wait (Bar.chExec_wait_unqueued q depth), fun q depth count => wait (Bar.chExec_wait_illegal q depth count), ?_⟩
    intro first te edge legal
    refine ⟨fun met => ?_, fun no unmet => ?_⟩
    · obtain ⟨ts, step, loads⟩ : ∃ ts, b.waitMet k kind arg first (b.ownStep k kind arg) = some ts ∧
          (kind ≤ 4 → ts = te) ∧ ¬10 ≤ kind := by
        rcases met with e | stands
        · have early : kind ≤ 2 := by
            obtain ⟨-, -, ⟨rfl, -⟩ | ⟨rfl, -⟩ | rfl⟩ := e <;> decide
          exact ⟨te, Bar.waitMet_of_edgeInStep e, fun _ => rfl, by omega⟩
        · have range := Bar.kind_of_waitStands stands
          exact ⟨_, Bar.waitMet_of_stands first (b.ownStep k kind arg) stands, fun low => if_pos low, by omega⟩
      refine wait ((Bar.chExec_wait_met ready word legal step).trans (b.modChan_congr k ?_))
      by_cases low : kind ≤ 4
      · simp only [low, true_or, if_true, loads.1 low]
      · simp only [low, loads.2, or_self, if_false]
    · exact wait (Bar.chExec_wait_waits ready word legal (Bar.waitMet_ownStep_of_not_edge no unmet))
  · intro b k since kind arg ev word busy event due
    have legal := (code_of_decodeCarousel word).1
    have range := lt_of_waitLegal legal
    have meets : b.waitMet k kind arg since ev = due := by
      obtain rfl | rfl | rfl | rfl | rfl : kind = 0 ∨ kind = 1 ∨ kind = 2 ∨ kind = 10 ∨ kind = 11 := by omega
      all_goals
        cases ev <;> simp only [Bar.waitMet, Bar.edgeSeen, due]
        grind
    cases h : due with
    | none => exact Bar.noteWait_unmet busy word (meets.trans h)
    | some ts => exact Bar.noteWait_met busy word (meets.trans h)
  · intro s t k lv te since kind arg met running b0 b turn word busy
    have completes {x : Bar} (effect : b0.waitCompleteStep k kind = x) : Answers s (.waitComplete t k lv te kind) x :=
      effect ▸ .of_live (fun b => (b.samplePins lv (b.counterThen te)).waitCompleteStep k kind) running rfl
    clear_value b0
    refine ⟨fun ts h => ?_, fun h stands => ?_, fun h unmet => ?_⟩
    · subst h
      have busy' : ((b0.noteWait .none k).chan k).busy = .waiting since (some ts) := by rw [Bar.noteWait_of_met busy, busy]
      exact completes ((Bar.waitCompleteStep_eq turn word busy').trans (Bar.chWaitComplete_some ..))
    · subst h
      have stands' := (b0.takeStep_waitStands k kind arg).mp stands
      have range := Bar.kind_of_waitStands stands'
      have busy' : ((b0.noteWait .none k).chan k).busy =
          .waiting since (some (if kind ≤ 4 then (b0.io.pins[pinAt arg]).edgeTime else 0)) := by
        rw [Bar.noteWait_met busy word (Bar.waitMet_of_stands since .none stands'), Bar.modChan_chan]
      refine completes ((Bar.waitCompleteStep_eq turn word busy').trans ((Bar.chWaitComplete_some ..).trans (Bar.modChan_congr _ _ ?_)))
      by_cases low : kind ≤ 4
      · simp only [low, true_or, if_true]
        rfl
      · simp only [low, show ¬10 ≤ kind by omega, or_self, if_false]
    · subst h
      have unmet' : ¬b0.waitStands k kind arg := fun x => unmet ((b0.takeStep_waitStands k kind arg).mpr x)
      have busy' : ((b0.noteWait .none k).chan k).busy = .waiting since none := by
        rw [Bar.noteWait_unmet busy word (Bar.waitMet_of_not_stands since unmet'), busy]
      exact completes (Bar.waitCompleteStep_eq turn word busy')

end Sys2Proof.Machine
end


section
/-! PROOFS. How channels and engines halt (R373). -/

namespace Sys2Proof.Machine

/-! ### What a change of pins can touch -/

/-- From b to c only pins change and whether WAITs and SHIFTs that wait have been met. -/
def Bar.PinsOnly (b c : Bar) : Prop :=
  (∃ pins chans, c = { b with io := { b.io with pins := pins, chans := chans } }) ∧
  ∀ k, ∃ x, c.chan k = { b.chan k with busy := x } ∧ ((b.chan k).busy = .ready → x = .ready)

theorem Bar.PinsOnly.refl (b : Bar) : b.PinsOnly b := ⟨⟨_, _, rfl⟩, fun _ => ⟨_, rfl, id⟩⟩

theorem Bar.PinsOnly.trans {b c d : Bar} (first : b.PinsOnly c) (second : c.PinsOnly d) : b.PinsOnly d := by
  obtain ⟨⟨_, _, rfl⟩, met⟩ := first
  obtain ⟨⟨_, _, rfl⟩, met'⟩ := second
  refine ⟨⟨_, _, rfl⟩, fun k => ?_⟩
  obtain ⟨x, hx, rx⟩ := met k
  obtain ⟨y, hy, ry⟩ := met' k
  exact ⟨y, by rw [hy, hx], fun ready => ry (by rw [hx]; exact rx ready)⟩

theorem Bar.PinsOnly.foldl {α : Type} {f : Bar → α → Bar} (each : ∀ (b : Bar) (a : α), b.PinsOnly (f b a)) (l : List α) (b : Bar) :
    b.PinsOnly (l.foldl f b) :=
  List.foldlRecOn l f (.refl b) fun c moved a _ => moved.trans (each c a)

theorem Bar.modPin_pinsOnly (b : Bar) (i : Fin 64) (f : Pin → Pin) : b.PinsOnly (b.modPin i f) :=
  ⟨⟨_, _, rfl⟩, fun _ => ⟨_, rfl, id⟩⟩

theorem Bar.modChan_chan_other (b : Bar) {k j : Fin 64} (f : ChannelState → ChannelState) (h : j ≠ k) :
    (b.modChan k f).chan j = b.chan j := vmod_other _ _ h

/-- A channel that waits is met. -/
theorem Bar.meets_pinsOnly {b : Bar} {k : Fin 64} {since : Nat} {met : Option Nat} (x : ChBusy)
    (waits : (b.chan k).busy = .waiting since met) : b.PinsOnly (b.modChan k fun c => { c with busy := x }) := by
  refine ⟨⟨_, _, rfl⟩, fun j => ?_⟩
  by_cases h : j = k
  · subst h
    exact ⟨x, b.modChan_chan j _, fun ready => by rw [waits] at ready; cases ready⟩
  · exact ⟨_, b.modChan_chan_other _ h, id⟩

theorem Bar.noteWait_pinsOnly (b : Bar) (ev : StepEvent) (k : Fin 64) : b.PinsOnly (b.noteWait ev k) := by
  unfold noteWait
  split
  next waits =>
    split
    · split
      · exact Bar.meets_pinsOnly _ waits
      · exact .refl b
    · exact .refl b
  · exact .refl b

theorem Bar.noteShift_pinsOnly (b : Bar) (i : Fin 64) (te : Nat) (k : Fin 64) : b.PinsOnly (b.noteShift i te k) := by
  unfold noteShift
  split
  next waits =>
    split
    · dsimp only
      split
      · exact Bar.meets_pinsOnly _ waits
      · exact .refl b
    · exact .refl b
  · exact .refl b

theorem Bar.noteWait_pins (b : Bar) (ev : StepEvent) (k : Fin 64) : (b.noteWait ev k).io.pins = b.io.pins := by
  obtain ⟨⟨_, h⟩, -⟩ := b.noteWait_waitsOnly ev k
  rw [h]

theorem Bar.noteWaits_pins (b : Bar) (ev : StepEvent) : (b.noteWaits ev).io.pins = b.io.pins := by
  obtain ⟨⟨_, h⟩, -⟩ := b.noteWaits_waitsOnly ev
  rw [h]

theorem Bar.noteShift_pins (b : Bar) (i : Fin 64) (te : Nat) (k : Fin 64) : (b.noteShift i te k).io.pins = b.io.pins := by
  unfold noteShift
  split
  · split
    · dsimp only
      split <;> rfl
    · rfl
  · rfl

theorem Bar.noteShifts_pins (b : Bar) (i : Fin 64) (te : Nat) (l : List (Fin 64)) :
    (l.foldl (fun b k => b.noteShift i te k) b).io.pins = b.io.pins :=
  List.foldlRecOn (motive := fun c : Bar => c.io.pins = b.io.pins) l _ rfl fun (c : Bar) same k _ => (c.noteShift_pins i te k).trans same

theorem Bar.changePin_pinsOnly (b : Bar) (i : Fin 64) (te : Nat) (f : Pin → Pin) : b.PinsOnly (b.changePin i te f) := by
  unfold changePin
  dsimp only
  split
  · exact b.modPin_pinsOnly i f
  · exact (Bar.PinsOnly.foldl (fun b k => b.noteShift_pinsOnly i te k) _ b).trans <| (Bar.modPin_pinsOnly _ _ _).trans <|
      Bar.PinsOnly.foldl (fun b k => b.noteWait_pinsOnly _ k) _ _

theorem getElem_of_eq_vmod {α : Type} {n : Nat} {v w : Vector α n} {i : Fin n} {f : α → α} (h : w = vmod v i f) :
    (∀ j, j ≠ i → w[j] = v[j]) ∧ w[i] = f v[i] := by
  subst h
  exact ⟨fun _ other => vmod_other v f other, vmod_same v i f⟩

/-- A change of pin i leaves the other pins; pin i is changed and may have an edge. -/
theorem Bar.changePin_pins (b : Bar) (i : Fin 64) (te : Nat) (f : Pin → Pin) :
    (∀ j, j ≠ i → (b.changePin i te f).io.pins[j] = b.io.pins[j]) ∧
    ((b.changePin i te f).io.pins[i] = f b.io.pins[i] ∨ (b.changePin i te f).io.pins[i] = { f b.io.pins[i] with edgeTime := te }) := by
  unfold changePin
  dsimp only
  split
  · exact ⟨fun j h => vmod_other _ _ h, .inl (vmod_same ..)⟩
  · have shifts := b.noteShifts_pins i te (List.finRange 64)
    generalize (List.finRange 64).foldl (fun b k => b.noteShift i te k) b = c at shifts
    have waits := (c.modPin i fun p => { f p with edgeTime := te }).noteWaits_pins (.edge i (!b.pinPhys i) te)
    generalize Bar.noteWaits _ _ = d at waits
    obtain ⟨others, one⟩ := getElem_of_eq_vmod (waits.trans (congrArg (fun v => vmod v i fun p => { f p with edgeTime := te }) shifts))
    exact ⟨others, .inr one⟩

/-! ### Halting the pins of channels -/

/-- The pin is an output of channel k that no timer names. -/
def Bar.drivenBy (b : Bar) (k i : Fin 64) : Prop :=
  b.pinOwner i = k.val ∧ b.timerPin i.val = false ∧ (b.pinMode i = 1 ∨ b.pinMode i = 2)

/-- The drive that a pin's HALT_LEVEL gives it, from the drive it has. -/
def Bar.haltDrive (b : Bar) (i : Fin 64) (d : Drive) : Drive :=
  match b.pinHaltLevel i with
  | 1 => .low
  | 2 => if b.pinMode i = 2 then .released else .high
  | 3 => .released
  | _ => d

theorem Bar.haltDrive_haltDrive (b : Bar) (i : Fin 64) (d : Drive) : b.haltDrive i (b.haltDrive i d) = b.haltDrive i d := by
  unfold haltDrive
  split <;> simp_all

/-- Pin i is left as the halt of the channels ks leaves it: their compares cancelled, and its HALT_LEVEL driven where one of them
owned it. -/
def Bar.PinHalted (b : Bar) (ks : List (Fin 64)) (i : Fin 64) (p q : Pin) : Prop :=
  q.compare = p.compare.filter (fun c => c.owner ∉ ks) ∧ q.level = p.level ∧
  ((∃ k ∈ ks, b.drivenBy k i) → q.drive = b.haltDrive i p.drive) ∧
  ((∀ k ∈ ks, ¬b.drivenBy k i) → q.drive = p.drive ∧ q.edgeTime = p.edgeTime)

/-- From b to c the channels ks halt their pins, and nothing else happens. -/
def Bar.HaltsPins (b : Bar) (ks : List (Fin 64)) (c : Bar) : Prop :=
  b.PinsOnly c ∧ ∀ i, b.PinHalted ks i b.io.pins[i] c.io.pins[i]

theorem Bar.PinsOnly.drivenBy_iff {b c : Bar} (h : b.PinsOnly c) (k i : Fin 64) : c.drivenBy k i ↔ b.drivenBy k i := by
  obtain ⟨⟨_, _, rfl⟩, -⟩ := h
  exact Iff.rfl

theorem Bar.PinsOnly.haltDrive_eq {b c : Bar} (h : b.PinsOnly c) (i : Fin 64) (d : Drive) : c.haltDrive i d = b.haltDrive i d := by
  obtain ⟨⟨_, _, rfl⟩, -⟩ := h
  rfl

theorem Bar.HaltsPins.refl (b : Bar) : b.HaltsPins [] b :=
  ⟨.refl b, fun i => ⟨by cases (b.io.pins[i]).compare <;> simp [Option.filter], rfl, by simp, fun _ => ⟨rfl, rfl⟩⟩⟩

theorem Bar.HaltsPins.trans {b c d : Bar} {ks ls : List (Fin 64)} (first : b.HaltsPins ks c) (second : c.HaltsPins ls d) :
    b.HaltsPins (ks ++ ls) d := by
  obtain ⟨moved, pins⟩ := first
  obtain ⟨moved', pins'⟩ := second
  refine ⟨moved.trans moved', fun i => ?_⟩
  obtain ⟨cmp, level, owned, free⟩ := pins i
  obtain ⟨cmp', level', owned', free'⟩ := pins' i
  simp only [moved.drivenBy_iff, moved.haltDrive_eq] at owned' free'
  refine ⟨?_, level'.trans level, fun some => ?_, fun none => ?_⟩
  · rw [cmp', cmp]
    cases (b.io.pins[i]).compare with
    | none => rfl
    | some oc => by_cases h : oc.owner ∈ ks <;> simp [Option.filter, h]
  · by_cases before : ∃ k ∈ ks, b.drivenBy k i
    · by_cases after : ∃ k ∈ ls, b.drivenBy k i
      · rw [owned' after, owned before, Bar.haltDrive_haltDrive]
      · rw [(free' fun k hk x => after ⟨k, hk, x⟩).1, owned before]
    · have after : ∃ k ∈ ls, b.drivenBy k i := by
        obtain ⟨k, hk, x⟩ := some
        rcases List.mem_append.mp hk with hk | hk
        · exact absurd ⟨k, hk, x⟩ before
        · exact ⟨k, hk, x⟩
      rw [owned' after, (free fun k hk x => before ⟨k, hk, x⟩).1]
  · obtain ⟨drive, edge⟩ := free fun k hk => none k (List.mem_append_left _ hk)
    obtain ⟨drive', edge'⟩ := free' fun k hk => none k (List.mem_append_right _ hk)
    exact ⟨drive'.trans drive, edge'.trans edge⟩

/-- The part of channel k's halt that falls on pin i. -/
def Bar.haltPinOf (k : Fin 64) (b : Bar) (i : Fin 64) : Bar :=
  let b := b.modPin i fun p => { p with compare := p.compare.filter fun c => c.owner ≠ k }
  if b.pinOwner i = k.val && !b.timerPin i.val && (b.pinMode i = 1 || b.pinMode i = 2) then b.haltPin i else b

theorem Bar.haltPinsOf_eq (b : Bar) (k : Fin 64) : b.haltPinsOf k = (List.finRange 64).foldl (Bar.haltPinOf k) b := rfl

/-- A HALT_LEVEL drives the pin, or holds it. -/
theorem Bar.haltPin_cases (b : Bar) (i : Fin 64) :
    (∀ d, b.haltPin i = b.drivePin i (b.haltDrive i d)) ∨ (b.haltPin i = b ∧ ∀ d, b.haltDrive i d = d) := by
  unfold haltPin haltDrive
  generalize b.pinHaltLevel i = n
  match n with
  | 0 => exact .inr ⟨rfl, fun _ => rfl⟩
  | 1 | 2 | 3 => exact .inl fun _ => rfl
  | _ + 4 => exact .inr ⟨rfl, fun _ => rfl⟩

theorem Bar.haltPin_pinsOnly (b : Bar) (i : Fin 64) : b.PinsOnly (b.haltPin i) := by
  obtain h | ⟨h, -⟩ := b.haltPin_cases i
  · rw [h .low]
    exact b.changePin_pinsOnly i _ _
  · rw [h]
    exact .refl b

theorem Bar.haltPin_pins (b : Bar) (i : Fin 64) :
    (∀ j, j ≠ i → (b.haltPin i).io.pins[j] = b.io.pins[j]) ∧
    ∃ x, (b.haltPin i).io.pins[i] = { b.io.pins[i] with drive := b.haltDrive i (b.io.pins[i]).drive, edgeTime := x } := by
  obtain h | ⟨h, holds⟩ := b.haltPin_cases i
  · obtain ⟨others, one⟩ := b.changePin_pins i b.now fun p => { p with drive := b.haltDrive i (b.io.pins[i]).drive }
    rw [h (b.io.pins[i]).drive]
    exact ⟨others, one.elim (fun h => ⟨_, h⟩) fun h => ⟨_, h⟩⟩
  · rw [h, holds]
    exact ⟨fun _ _ => rfl, _, rfl⟩

/-- A pin without the compares that a channel has armed. -/
def Pin.cancelled (k : Fin 64) (p : Pin) : Pin := { p with compare := p.compare.filter fun c => c.owner ≠ k }

/-- On its pin, the halt of a channel is that of the pin; no other pin sees it. -/
theorem Bar.haltPinOf_pins (b : Bar) (k i : Fin 64) :
    b.PinsOnly (b.haltPinOf k i) ∧ (∀ j, j ≠ i → (b.haltPinOf k i).io.pins[j] = b.io.pins[j]) ∧
    b.PinHalted [k] i b.io.pins[i] (b.haltPinOf k i).io.pins[i] := by
  unfold haltPinOf
  have moved := b.modPin_pinsOnly i (Pin.cancelled k)
  have one : (b.modPin i (Pin.cancelled k)).io.pins[i] = (b.io.pins[i]).cancelled k := vmod_same ..
  have others (j) (h : j ≠ i) : (b.modPin i (Pin.cancelled k)).io.pins[j] = b.io.pins[j] := vmod_other _ _ h
  rw [show (fun p : Pin => { p with compare := p.compare.filter fun c => c.owner ≠ k }) = Pin.cancelled k from rfl]
  generalize b.modPin i (Pin.cancelled k) = c at moved one others
  dsimp only
  have compare : ((b.io.pins[i]).cancelled k).compare = (b.io.pins[i]).compare.filter (fun c => c.owner ∉ [k]) := by
    simp [Pin.cancelled]
  split
  next owned =>
    have drives : b.drivenBy k i := (moved.drivenBy_iff k i).mp (by simpa [Bar.drivenBy, and_assoc] using owned)
    obtain ⟨others', x, one'⟩ := c.haltPin_pins i
    refine ⟨moved.trans (c.haltPin_pinsOnly i), fun j h => (others' j h).trans (others j h), ?_⟩
    rw [one', one, moved.haltDrive_eq]
    exact ⟨compare, rfl, fun _ => rfl, fun none => absurd drives (none k (by simp))⟩
  next free =>
    have idle : ¬b.drivenBy k i := fun x => free (by simpa [Bar.drivenBy, and_assoc] using (moved.drivenBy_iff k i).mpr x)
    refine ⟨moved, others, ?_⟩
    rw [one]
    refine ⟨compare, rfl, fun some => ?_, fun _ => ⟨rfl, rfl⟩⟩
    obtain ⟨j, hj, x⟩ := some
    exact absurd (List.mem_singleton.mp hj ▸ x) idle

/-- The halt of a channel, for the pins it has come to. -/
theorem Bar.foldl_haltPinOf (k : Fin 64) {l : List (Fin 64)} (each : l.Nodup) (b : Bar) :
    b.PinsOnly (l.foldl (Bar.haltPinOf k) b) ∧ (∀ i, i ∉ l → (l.foldl (Bar.haltPinOf k) b).io.pins[i] = b.io.pins[i]) ∧
    ∀ i ∈ l, b.PinHalted [k] i b.io.pins[i] (l.foldl (Bar.haltPinOf k) b).io.pins[i] := by
  induction l generalizing b with
  | nil => exact ⟨.refl b, fun _ _ => rfl, fun _ h => absurd h List.not_mem_nil⟩
  | cons a l ih =>
    obtain ⟨fresh, each⟩ := List.nodup_cons.mp each
    obtain ⟨moved, others, one⟩ := b.haltPinOf_pins k a
    obtain ⟨moved', others', ones⟩ := ih each (b.haltPinOf k a)
    rw [List.foldl_cons]
    refine ⟨moved.trans moved', fun i h => ?_, fun i h => ?_⟩
    · rw [others' i fun x => h (List.mem_cons_of_mem _ x), others i fun x => h (x ▸ List.mem_cons_self)]
    · rcases List.mem_cons.mp h with rfl | h
      · rw [others' _ fresh]
        exact one
      · have ne : i ≠ a := fun x => fresh (x ▸ h)
        have halted := ones i h
        rw [others i ne] at halted
        simpa only [Bar.PinHalted, moved.drivenBy_iff, moved.haltDrive_eq] using halted

theorem Bar.haltPinsOf_haltsPins (b : Bar) (k : Fin 64) : b.HaltsPins [k] (b.haltPinsOf k) := by
  obtain ⟨moved, -, pins⟩ := Bar.foldl_haltPinOf k (List.nodup_finRange 64) b
  exact ⟨moved, fun i => pins i (List.mem_finRange i)⟩

theorem Bar.foldl_haltPinsOf (ks : List (Fin 64)) (b : Bar) : b.HaltsPins ks (ks.foldl Bar.haltPinsOf b) := by
  induction ks generalizing b with
  | nil => exact .refl b
  | cons k ks ih => exact (b.haltPinsOf_haltsPins k).trans (ih _)

/-! ### The channels of an engine -/

theorem engineOf_chanOf (e : Fin 4) (c : Fin 16) : engineOf (chanOf e c) = e := Fin.ext (by simp only [engineOf, chanOf]; omega)

theorem chanOf_of_engineOf {k : Fin 64} {e : Fin 4} (h : engineOf k = e) : chanOf e ⟨k.val % 16, by omega⟩ = k := by
  subst h
  exact Fin.ext (by simp only [engineOf, chanOf]; omega)

theorem engineOf_eq_iff (k : Fin 64) (e : Fin 4) : engineOf k = e ↔ k ∈ (List.finRange 16).map (chanOf e) := by
  constructor
  · intro h
    exact List.mem_map.mpr ⟨_, List.mem_finRange _, chanOf_of_engineOf h⟩
  · intro h
    obtain ⟨c, -, rfl⟩ := List.mem_map.mp h
    exact engineOf_chanOf e c

theorem Bar.foldl_modChan (f : Fin 64 → ChannelState → ChannelState) {l : List (Fin 64)} (each : l.Nodup) (b : Bar) :
    (∃ chans, l.foldl (fun b k => b.modChan k (f k)) b = { b with io := { b.io with chans := chans } }) ∧
    ∀ k, (l.foldl (fun b k => b.modChan k (f k)) b).chan k = if k ∈ l then f k (b.chan k) else b.chan k := by
  induction l generalizing b with
  | nil => exact ⟨⟨_, rfl⟩, fun _ => rfl⟩
  | cons a l ih =>
    obtain ⟨fresh, each⟩ := List.nodup_cons.mp each
    obtain ⟨⟨chans, frame⟩, chan⟩ := ih each (b.modChan a (f a))
    rw [List.foldl_cons]
    refine ⟨⟨chans, frame⟩, fun k => (chan k).trans ?_⟩
    by_cases same : k = a
    · subst same
      rw [if_neg fresh, if_pos List.mem_cons_self, Bar.modChan_chan]
    · rw [b.modChan_chan_other _ same]
      simp [same]

theorem Bar.modEngineChans_eq (b : Bar) (e : Fin 4) (f : Fin 64 → ChannelState → ChannelState) :
    b.modEngineChans e f = ((List.finRange 16).map (chanOf e)).foldl (fun b k => b.modChan k (f k)) b := by
  rw [List.foldl_map]
  rfl

theorem nodup_chanOf (e : Fin 4) : ((List.finRange 16).map (chanOf e)).Nodup :=
  List.pairwise_map.mpr <| (List.nodup_finRange 16).imp fun {_ _} differ same => differ <| Fin.ext <| by
    have here := congrArg Fin.val same
    simp only [chanOf] at here
    omega

/-- A change of an engine's channels touches no other part of the bar. -/
theorem Bar.modEngineChans_frame (b : Bar) (e : Fin 4) (f : Fin 64 → ChannelState → ChannelState) :
    ∃ chans, b.modEngineChans e f = { b with io := { b.io with chans := chans } } := by
  rw [Bar.modEngineChans_eq]
  exact (Bar.foldl_modChan f (nodup_chanOf e) b).1

theorem Bar.modEngineChans_chan (b : Bar) (e : Fin 4) (f : Fin 64 → ChannelState → ChannelState) (k : Fin 64) :
    (b.modEngineChans e f).chan k = if engineOf k = e then f k (b.chan k) else b.chan k := by
  rw [Bar.modEngineChans_eq, (Bar.foldl_modChan f (nodup_chanOf e) b).2 k]
  simp only [engineOf_eq_iff]

/-- The channels and pins of an engine that has halted. -/
def Bar.engineStops (b : Bar) (e : Fin 4) : Bar :=
  ((List.finRange 16).map (chanOf e)).foldl Bar.haltPinsOf (b.modEngineChans e fun _ => haltedChannel)

theorem Bar.engineHalted_eq {b : Bar} {e : Fin 4} (halting : (b.engine e).state = .halting) :
    b.engineHalted e = ((b.engineStops e).modEngine e fun g => { g with state := .halted }).logEvent 0xA025 (e.val * 256) := by
  rw [Bar.engineStops, List.foldl_map]
  exact if_pos halting

theorem Bar.engineStops_haltsPins (b : Bar) (e : Fin 4) :
    (b.modEngineChans e fun _ => haltedChannel).HaltsPins ((List.finRange 16).map (chanOf e)) (b.engineStops e) :=
  Bar.foldl_haltPinsOf _ _

theorem Bar.engineStops_frame (b : Bar) (e : Fin 4) :
    ∃ pins chans, b.engineStops e = { b with io := { b.io with pins := pins, chans := chans } } := by
  obtain ⟨⟨⟨pins, chans, h⟩, -⟩, -⟩ := b.engineStops_haltsPins e
  obtain ⟨chans', h'⟩ := b.modEngineChans_frame e fun _ => haltedChannel
  exact ⟨pins, chans, by rw [h, h']⟩

theorem Bar.engineStops_chan_own (b : Bar) {e : Fin 4} {k : Fin 64} (own : engineOf k = e) :
    (b.engineStops e).chan k = haltedChannel (b.chan k) := by
  obtain ⟨⟨-, met⟩, -⟩ := b.engineStops_haltsPins e
  obtain ⟨x, h, ready⟩ := met k
  rw [Bar.modEngineChans_chan, if_pos own] at h ready
  rw [h, ready rfl]
  rfl

theorem Bar.engineStops_chan_other (b : Bar) {e : Fin 4} {k : Fin 64} (other : engineOf k ≠ e) :
    ∃ x, (b.engineStops e).chan k = { b.chan k with busy := x } ∧ ((b.chan k).busy = .ready → x = .ready) := by
  obtain ⟨⟨-, met⟩, -⟩ := b.engineStops_haltsPins e
  have := met k
  rwa [Bar.modEngineChans_chan, if_neg other] at this

theorem Bar.pinOwner_lt (b : Bar) (i : Fin 64) : b.pinOwner i < 64 := Nat.mod_lt _ (by decide)

/-- A channel of the engine drives the pin. -/
theorem Bar.drivenBy_engine_iff (b : Bar) (e : Fin 4) (i : Fin 64) :
    (∃ k ∈ (List.finRange 16).map (chanOf e), b.drivenBy k i) ↔
      b.pinOwner i / 16 = e.val ∧ b.timerPin i.val = false ∧ (b.pinMode i = 1 ∨ b.pinMode i = 2) := by
  constructor
  · rintro ⟨k, hk, owner, driven⟩
    refine ⟨?_, driven⟩
    rw [owner]
    exact congrArg Fin.val ((engineOf_eq_iff k e).mpr hk)
  · rintro ⟨owner, driven⟩
    exact ⟨⟨b.pinOwner i, b.pinOwner_lt i⟩, (engineOf_eq_iff _ e).mp (Fin.ext owner), rfl, driven⟩

theorem Bar.drivenBy_chans (b : Bar) (chans : Vector ChannelState 64) (k i : Fin 64) :
    ({ b with io := { b.io with chans := chans } } : Bar).drivenBy k i ↔ b.drivenBy k i := Iff.rfl

theorem Bar.haltDrive_chans (b : Bar) (chans : Vector ChannelState 64) (i : Fin 64) (d : Drive) :
    ({ b with io := { b.io with chans := chans } } : Bar).haltDrive i d = b.haltDrive i d := rfl

/-- What the pins are left as, by the bar before. -/
theorem Bar.engineStops_pin (b : Bar) (e : Fin 4) (i : Fin 64) :
    b.PinHalted ((List.finRange 16).map (chanOf e)) i b.io.pins[i] (b.engineStops e).io.pins[i] := by
  have halted := (b.engineStops_haltsPins e).2 i
  obtain ⟨chans, h⟩ := b.modEngineChans_frame e fun _ => haltedChannel
  rw [h] at halted
  simpa only [Bar.PinHalted, Bar.drivenBy_chans, Bar.haltDrive_chans] using halted

/-- What a halt of the engine e leaves a pin as. -/
theorem Bar.PinHalted.of_engine {b : Bar} {e : Fin 4} {i : Fin 64} {p q : Pin}
    (h : b.PinHalted ((List.finRange 16).map (chanOf e)) i p q) :
    q.compare = p.compare.filter (fun c => engineOf c.owner ≠ e) ∧ q.level = p.level ∧
    q.drive = (if b.pinOwner i / 16 = e.val ∧ b.timerPin i.val = false ∧ (b.pinMode i = 1 ∨ b.pinMode i = 2)
      then b.haltDrive i p.drive else p.drive) := by
  obtain ⟨compare, level, driven, idle⟩ := h
  simp only [← engineOf_eq_iff] at compare
  refine ⟨compare, level, ?_⟩
  split
  next owned => exact driven ((b.drivenBy_engine_iff e i).mpr owned)
  next other => exact (idle fun k hk x => other ((b.drivenBy_engine_iff e i).mp ⟨k, hk, x⟩)).1

/-- A pin of another engine loses its compare only. -/
theorem Bar.PinHalted.of_foreign {b : Bar} {e : Fin 4} {i : Fin 64} {p q : Pin}
    (h : b.PinHalted ((List.finRange 16).map (chanOf e)) i p q) (foreign : b.pinOwner i / 16 ≠ e.val) :
    q = { p with compare := p.compare.filter fun c => engineOf c.owner ≠ e } := by
  obtain ⟨compare, level, -, idle⟩ := h
  obtain ⟨drive, edge⟩ := idle fun k hk x => foreign ((b.drivenBy_engine_iff e i).mp ⟨k, hk, x⟩).1
  simp only [← engineOf_eq_iff] at compare
  obtain ⟨qdrive, qcompare, qlevel, qedge⟩ := q
  obtain rfl : qcompare = _ := compare
  obtain rfl : qlevel = _ := level
  obtain rfl : qdrive = _ := drive
  obtain rfl : qedge = _ := edge
  rfl

theorem Bar.chExec_halt (b : Bar) (k : Fin 64) : b.chExec k .halt =
    (b.modChan k fun c => { c with fault := .haltInstr, active := false, busy := .ready, event := none }).haltPinsOf k := by
  simp only [Bar.chExec, Bar.chHalt, Bar.haltChannel, Bar.modChan_modChan]
  exact congrArg (·.haltPinsOf k) (b.modChan_congr k rfl)

theorem Bar.illegalStep_of_illegal {b : Bar} {k : Fin 64} (turn : b.canStep k = true) (illegal : decodeCarousel (b.fetched k) = none) :
    b.illegalStep k = (b.takeStep k).faultChannel k .illegalOp := if_pos (by simp [turn, illegal])

theorem Bar.pinOwner_of_par {b c : Bar} (i : Fin 64) (h : b.par = c.par) : b.pinOwner i = c.pinOwner i := by
  unfold pinOwner pinCfg
  rw [h]

theorem Bar.modEngine_chan (b : Bar) (e : Fin 4) (f : Engine → Engine) (k : Fin 64) : (b.modEngine e f).chan k = b.chan k := rfl

theorem Bar.modEngine_pins (b : Bar) (e : Fin 4) (f : Engine → Engine) : (b.modEngine e f).io.pins = b.io.pins := rfl

theorem Bar.modEngine_timers (b : Bar) (e : Fin 4) (f : Engine → Engine) : (b.modEngine e f).io.timers = b.io.timers := rfl

theorem Bar.modEngine_pos (b : Bar) (e : Fin 4) (f : Engine → Engine) : (b.modEngine e f).io.pos = b.io.pos := rfl

theorem Bar.modEngine_par (b : Bar) (e : Fin 4) (f : Engine → Engine) : (b.modEngine e f).par = b.par := rfl

theorem Bar.modEngine_engine (b : Bar) (e : Fin 4) (f : Engine → Engine) : (b.modEngine e f).engine e = f (b.engine e) :=
  vmod_same ..

/-- The end of a halt, by what it leaves of the channels, the pins and the counters. -/
theorem Bar.engineHalted_spec {b : Bar} {e : Fin 4} (halting : (b.engine e).state = .halting) :
    ∃ c : Bar, b.engineHalted e = c.logEvent 0xA025 (e.val * 256) ∧ (c.engine e).state = .halted ∧
      (∀ k, engineOf k = e → c.chan k = haltedChannel (b.chan k)) ∧
      (∀ k, engineOf k ≠ e → ∃ x, c.chan k = { b.chan k with busy := x } ∧ ((b.chan k).busy = .ready → x = .ready)) ∧
      (∀ i, b.PinHalted ((List.finRange 16).map (chanOf e)) i b.io.pins[i] c.io.pins[i]) ∧
      c.par = b.par ∧ c.io.timers = b.io.timers ∧ c.io.pos = b.io.pos := by
  obtain ⟨_, _, frame⟩ := b.engineStops_frame e
  refine ⟨(b.engineStops e).modEngine e fun g => { g with state := .halted }, Bar.engineHalted_eq halting, ?_, fun k h => ?_, fun k h => ?_,
    fun i => ?_, ?_, ?_, ?_⟩
  · rw [Bar.modEngine_engine]
  · rw [Bar.modEngine_chan]
    exact b.engineStops_chan_own h
  · rw [Bar.modEngine_chan]
    exact b.engineStops_chan_other h
  · rw [Bar.modEngine_pins]
    exact b.engineStops_pin e i
  · rw [Bar.modEngine_par, frame]
  · rw [Bar.modEngine_timers, frame]
  · rw [Bar.modEngine_pos, frame]

/-- Settles O26. -/
theorem carouselHaltsAndFaults : Obligations.CarouselHaltsAndFaults := by
  refine ⟨?_, ?_, ?_⟩
  · intro s t k lv running b0 b
    refine ⟨fun h => .of_instr _ running h rfl rfl (Bar.chExec_halt _ k), fun turn illegal => ?_⟩
    exact Bar.illegalStep_of_illegal turn illegal ▸
      Answers.of_live (fun b => (b.samplePins lv b.now).illegalStep k) running rfl
  · intro s t e running halting
    have answers : Answers s (.engineHalted t e) ((s.bar.at t).engineHalted e) := .of_live (fun b => b.engineHalted e) running rfl
    obtain ⟨c, halts, halted, own, other, pins, params, timers, pos⟩ := Bar.engineHalted_spec halting
    rw [halts] at answers
    refine ⟨c, answers, halted, own, other, fun i => (pins i).of_engine, fun i foreign => (pins i).of_foreign ?_, timers, pos⟩
    rwa [Bar.pinOwner_of_par i params] at foreign
  · intro s t te k e lv running
    have step {c : Instr} (sel : CInstr → Bool) (runs : exec c s = s.live t fun b => (b.samplePins lv b.now).instrStep k sel) :
        ∃ b', Answers s c b' := ⟨_, .of_live (fun b => (b.samplePins lv b.now).instrStep k sel) running runs⟩
    exact ⟨step _ rfl, step _ rfl, step _ rfl, step _ rfl, step _ rfl, step _ rfl, step _ rfl, step _ rfl, step _ rfl, step _ rfl,
      step _ rfl, step _ rfl, step _ rfl, step _ rfl, step _ rfl, step _ rfl, step _ rfl, step _ rfl, step _ rfl, step _ rfl,
      step _ rfl, step _ rfl, step _ rfl, step _ rfl, step _ rfl, step _ rfl, step _ rfl, step _ rfl, step _ rfl, step _ rfl,
      step _ rfl, step _ rfl, step _ rfl,
      ⟨_, .of_live (fun b => (b.samplePins lv b.now).illegalStep k) running rfl⟩,
      fun kind => ⟨_, .of_live (fun b => (b.samplePins lv (b.counterThen te)).waitCompleteStep k kind) running rfl⟩,
      ⟨_, .of_live (fun b => b.compareFire k) running rfl⟩, ⟨_, .of_live (fun b => b.engineHalted e) running rfl⟩⟩

end Sys2Proof.Machine
end


section
/-! PROOFS. The SDO rows of the Carousel (chapter 12): engine commands, programs and queues. -/

namespace Sys2Proof.Machine

/-! ### The checks of a write over the mailbox (R497) -/

section
variable {b : Bar} {e : Entry} {index sub : Nat} {v : List Byte}

theorem Bar.benchDenied_mailbox : b.benchDenied .mailbox index sub = none := by simp [benchDenied]

theorem Bar.stateDenied_free (acc : e.acc ≠ .rwPreop) (plain : index ≠ 0x2800 ∧ index ≠ 0x2E10)
    (engine : b.engineBusy index sub v = false) (timer : b.timerBusy index sub v = false) :
    b.stateDenied .mailbox e index sub v = none := by
  simp [stateDenied, acc, plain, engine, timer]

theorem Bar.stateDenied_engine (acc : e.acc ≠ .rwPreop) (plain : index ≠ 0x2800 ∧ index ≠ 0x2E10)
    (engine : b.engineBusy index sub v = true) :
    b.stateDenied .mailbox e index sub v = some (0x08000022, 0xA003) := by
  simp [stateDenied, acc, plain, engine]

theorem Bar.writeDenied_free (state : b.stateDenied .mailbox e index sub v = none) (length : lengthDenied e index v.length = none)
    (range : b.rangeDenied e index sub v = none) : b.writeDenied .mailbox e index sub v = none := by
  simp [writeDenied, benchDenied_mailbox, state, length, range]

theorem Bar.writeDenied_state {c : Nat × Nat} (state : b.stateDenied .mailbox e index sub v = some c) :
    b.writeDenied .mailbox e index sub v = some c := by
  simp [writeDenied, benchDenied_mailbox, state]

theorem Bar.keySpent_other (b : Bar) (sub code : Nat) (plain : index ≠ 0x2E10) : b.keySpent index sub code = b := by
  simp [keySpent, plain]

theorem isArm_other {op : SdoOp} (plain : index ≠ 0x2010) : isArm (mailRequest op index sub v) = false := by
  simp [isArm, mailRequest, plain]
end

/-! ### The rows of the engines and the channels -/

section
variable {b : Bar} {r : SdoRequest} {index sub n : Nat} {v : List Byte}

/-- The commands of the Carousel's rows. -/
theorem Bar.command_carousel (low : 0x2A00 ≤ index) (high : index ≤ 0x2A4F) :
    b.command r index sub n v =
      if between 0x2A00 0x2A03 index && sub = 1 then some (b.engineCommand (engIx (index - 0x2A00)) n).accept
      else if between 0x2A04 0x2A07 index then some (b.writeProgram (engIx (index - 0x2A04)) v).accept
      else if between 0x2A10 0x2A4F index && sub = 5 then some (b.hostQueue (chanIx (index - 0x2A10)) v)
      else none := by
  unfold command
  split <;> first | omega | rfl

theorem Bar.timerBusy_carousel (high : index ≤ 0x2A4F) : b.timerBusy index sub v = false := by
  have h : between 0x2B10 0x2B1F index = false := by simp [between]; omega
  have h' : between 0x2B30 0x2B37 index = false := by simp [between]; omega
  simp [timerBusy, h, h']
end

theorem engIx_sub (e : Fin 4) (base : Nat) : engIx (base + e.val - base) = e := Fin.ext (by simp [engIx])

theorem chanIx_sub (k : Fin 64) (base : Nat) : chanIx (base + k.val - base) = k := Fin.ext (by simp [chanIx])

theorem between_add {lo hi k : Nat} (h : lo + k ≤ hi) : between lo hi (lo + k) = true := by simp [between, h]

/-- The entry of an engine's command. -/
def engineRow : Entry := recs 0x2A00 0x2A03 1 .u8 .wo 0 1 3

theorem Bar.entry?_engine (b : Bar) (e : Fin 4) : b.entry? (0x2A00 + e.val) 1 = some engineRow := by
  match e with
  | 0 | 1 | 2 | 3 => exact (b.entry?_eq_findEntry (by decide +kernel) (by decide)).trans (by decide +kernel)

theorem Bar.engineBusy_command (b : Bar) (e : Fin 4) (v : List Byte) :
    b.engineBusy (0x2A00 + e.val) 1 v = (decide ((b.engine e).state ≠ .halted) && (v = leBytes 1 1 || v = leBytes 1 2)) := by
  simp only [engineBusy, between_add (show 0x2A00 + e.val ≤ 0x2A03 by omega), if_true, engIx_sub]
  simp

/-- The checks of an engine command, but for the state of the engine. -/
theorem Bar.engineCommand_ranged (b : Bar) (e : Fin 4) {code : Nat} (h : 1 ≤ code ∧ code ≤ 3) :
    lengthDenied engineRow (0x2A00 + e.val) (leBytes 1 code).length = none ∧
    b.rangeDenied engineRow (0x2A00 + e.val) 1 (leBytes 1 code) = none := by
  obtain ⟨low, high⟩ := h
  obtain rfl | rfl | rfl : code = 1 ∨ code = 2 ∨ code = 3 := by omega
  all_goals match e with
    | 0 | 1 | 2 | 3 => exact ⟨rfl, rfl⟩

/-- An engine command that its engine's state allows. -/
theorem Bar.sdoRun_engine {b : Bar} {e : Fin 4} {code : Nat} (there : b.indexExists (0x2A00 + e.val) = true) (h : 1 ≤ code ∧ code ≤ 3)
    (free : b.engineBusy (0x2A00 + e.val) 1 (leBytes 1 code) = false) :
    b.sdoRun (mailRequest .download (0x2A00 + e.val) 1 (leBytes 1 code)) =
      (b.engineCommand e code).responds (0x2A00 + e.val) 1 0 [] := by
  obtain ⟨length, range⟩ := b.engineCommand_ranged e h
  have taken := Bar.writeDenied_free (Bar.stateDenied_free (by decide) (by omega) free (Bar.timerBusy_carousel (by omega))) length range
  have effect : b.command (mailRequest .download (0x2A00 + e.val) 1 (leBytes 1 code)) (0x2A00 + e.val) 1 (leNat (leBytes 1 code))
      (leBytes 1 code) = some (b.engineCommand e code).accept := by
    rw [Bar.command_carousel (by omega) (by omega), between_add (show 0x2A00 + e.val ≤ 0x2A03 by omega), engIx_sub,
      leNat_leBytes (by omega)]
    rfl
  rw [Bar.sdoRun_download (isArm_other (by omega)) there (b.entry?_engine e) (by decide) taken effect, Bar.finish_accept]

/-- A start of an engine that is not HALTED. -/
theorem Bar.sdoRun_engine_running {b : Bar} {e : Fin 4} {code : Nat} (there : b.indexExists (0x2A00 + e.val) = true)
    (busy : b.engineBusy (0x2A00 + e.val) 1 (leBytes 1 code) = true) :
    b.sdoRun (mailRequest .download (0x2A00 + e.val) 1 (leBytes 1 code)) = b.aborts (0x2A00 + e.val) 1 0x08000022 0xA003 :=
  Bar.sdoRun_denied (isArm_other (by omega)) there (b.entry?_engine e) (by decide)
    (Bar.writeDenied_state (Bar.stateDenied_engine (by decide) (by omega) busy)) (b.keySpent_other _ _ (by omega)) (by decide)

/-- A started engine, before its start is logged. -/
def Bar.engineStarts (b : Bar) (e : Fin 4) (clear : Bool) : Bar :=
  (b.modEngine e fun g => { g with state := .running, turnFrom := b.now + (b.now + b.cap.tb.stepPhase) % 2 }).modEngineChans e fun k =>
    startedChannel (bit (b.rwN (0x2A00 + e.val) 5) (k.val % 16)) clear (b.rwN (0x2A10 + k.val) 1)

theorem Bar.startEngine_eq (b : Bar) (e : Fin 4) (clear : Bool) :
    b.startEngine e clear = (b.engineStarts e clear).logEvent 0xA025 (e.val * 256 + 1) := rfl

theorem Bar.modEngineChans_engine (b : Bar) (e g : Fin 4) (f : Fin 64 → ChannelState → ChannelState) :
    (b.modEngineChans e f).engine g = b.engine g := by
  obtain ⟨chans, h⟩ := b.modEngineChans_frame e f
  rw [h]
  rfl

theorem Bar.engineStarts_engine (b : Bar) (e : Fin 4) (clear : Bool) :
    ((b.engineStarts e clear).engine e).state = .running ∧ ((b.engineStarts e clear).engine e).program = (b.engine e).program := by
  rw [Bar.engineStarts, Bar.modEngineChans_engine, Bar.modEngine_engine]
  exact ⟨rfl, rfl⟩

theorem Bar.engineStarts_chan (b : Bar) (e : Fin 4) (clear : Bool) (c : Fin 16) :
    (b.engineStarts e clear).chan (chanOf e c) =
      startedChannel (bit (b.rwN (0x2A00 + e.val) 5) c.val) clear (b.rwN (0x2A10 + (chanOf e c).val) 1) (b.chan (chanOf e c)) := by
  have place : (chanOf e c).val % 16 = c.val := by simp only [chanOf]; omega
  rw [Bar.engineStarts, Bar.modEngineChans_chan, if_pos (engineOf_chanOf e c), place, Bar.modEngine_chan]

theorem Bar.haltEngine_running {b : Bar} {e : Fin 4} (h : (b.engine e).state = .running) :
    b.haltEngine e = b.modEngine e fun g => { g with state := .halting } := if_pos h

theorem Bar.haltEngine_other {b : Bar} {e : Fin 4} (h : (b.engine e).state ≠ .running) : b.haltEngine e = b := if_neg h

/-- The code of RUN and of RUN_CLEAR. -/
theorem Bar.engineCommand_start (b : Bar) (e : Fin 4) (clear : Bool) :
    b.engineCommand e (if clear then 2 else 1) = b.startEngine e clear := by cases clear <;> rfl

/-- Settles O27. -/
theorem engineStartsAtEntry : Obligations.EngineStartsAtEntry := by
  refine ⟨fun s t e clear serves => ?_, fun s t running => ?_⟩
  · intro b command
    have there : b.indexExists (0x2A00 + e.val) = true := Bar.indexExists_of_serves t serves
    have start : Answers s command
        (b.sdoRun (mailRequest .download (0x2A00 + e.val) 1 (leBytes 1 (if clear then 2 else 1)))) := by
      cases clear with
      | false | true => exact .of_mailSdo serves rfl
    have halt : Answers s (.halt t e) ((b.engineCommand e 3).responds (0x2A00 + e.val) 1 0 []) := by
      rw [← Bar.sdoRun_engine there (by decide) (by rw [b.engineBusy_command]; simp [leBytes])]
      exact .of_mailSdo serves rfl
    have busy : b.engineBusy (0x2A00 + e.val) 1 (leBytes 1 (if clear then 2 else 1)) = decide ((b.engine e).state ≠ .halted) := by
      rw [b.engineBusy_command]
      cases clear <;> simp
    refine ⟨fun halted => ⟨b.engineStarts e clear, ?_, ?_⟩, fun busyEngine => ?_, fun runs => ?_, fun other => ?_⟩
    · rwa [Bar.sdoRun_engine there (by cases clear <;> decide) (by rw [busy, halted]; rfl), Bar.engineCommand_start] at start
    · obtain ⟨state, program⟩ := b.engineStarts_engine e clear
      exact ⟨state, program, fun c => b.engineStarts_chan e clear c⟩
    · rwa [Bar.sdoRun_engine_running there (by rw [busy]; simp [busyEngine])] at start
    · have same := Bar.haltEngine_running runs
      rwa [show b.engineCommand e 3 = b.haltEngine e from rfl, same] at halt
    · have same := Bar.haltEngine_other other
      rwa [show b.engineCommand e 3 = b.haltEngine e from rfl, same] at halt
  · exact ⟨fun e => ⟨_, s.mailSdo_alive t .download (0x2A00 + e.val) 1 (leBytes 1 1) running⟩,
      fun e => ⟨_, s.mailSdo_alive t .download (0x2A00 + e.val) 1 (leBytes 1 2) running⟩,
      fun e => ⟨_, s.mailSdo_alive t .download (0x2A00 + e.val) 1 (leBytes 1 3) running⟩⟩

/-- The entry of an engine's program. -/
def programRow : Entry := recs 0x2A04 0x2A07 0 (.dom 2 512) .rw

theorem Bar.entry?_program (b : Bar) (e : Fin 4) : b.entry? (0x2A04 + e.val) 0 = some programRow := by
  match e with
  | 0 | 1 | 2 | 3 => exact (b.entry?_eq_findEntry (by decide +kernel) (by decide)).trans (by decide +kernel)

theorem Bar.engineBusy_program (b : Bar) (e : Fin 4) (v : List Byte) :
    b.engineBusy (0x2A04 + e.val) 0 v = decide ((b.engine e).state ≠ .halted) := by
  have h : between 0x2A00 0x2A03 (0x2A04 + e.val) = false := by simp [between]; omega
  simp only [engineBusy, h, between_add (show 0x2A04 + e.val ≤ 0x2A07 by omega), if_true, engIx_sub]
  simp

theorem lengthDenied_program (e : Fin 4) {n : Nat} (even : n % 2 = 0) (low : 0 < n) (high : n ≤ 512) :
    lengthDenied programRow (0x2A04 + e.val) n = none := by
  simp only [lengthDenied, between_add (show 0x2A04 + e.val ≤ 0x2A07 by omega)]
  simp [programRow, recs, Ty.size]
  omega

/-- A program written to a HALTED engine. -/
theorem Bar.sdoRun_program {b : Bar} {e : Fin 4} {v : List Byte} (there : b.indexExists (0x2A04 + e.val) = true)
    (halted : (b.engine e).state = .halted) (even : v.length % 2 = 0) (low : 0 < v.length) (high : v.length ≤ 512) :
    b.sdoRun (mailRequest .download (0x2A04 + e.val) 0 v) = (b.writeProgram e v).responds (0x2A04 + e.val) 0 0 [] := by
  have free : b.engineBusy (0x2A04 + e.val) 0 v = false := by simp [b.engineBusy_program, halted]
  have taken := Bar.writeDenied_free (b := b) (e := programRow)
    (Bar.stateDenied_free (by decide) (by omega) free (Bar.timerBusy_carousel (by omega))) (lengthDenied_program e even low high) rfl
  have other : between 0x2A00 0x2A03 (0x2A04 + e.val) = false := by simp [between]; omega
  have effect : b.command (mailRequest .download (0x2A04 + e.val) 0 v) (0x2A04 + e.val) 0 (leNat v) v =
      some (b.writeProgram e v).accept := by
    rw [Bar.command_carousel (by omega) (by omega), other, between_add (show 0x2A04 + e.val ≤ 0x2A07 by omega), engIx_sub]
    rfl
  rw [Bar.sdoRun_download (isArm_other (by omega)) there (b.entry?_program e) (by decide) taken effect, Bar.finish_accept]

theorem Bar.sdoRun_program_running {b : Bar} {e : Fin 4} {v : List Byte} (there : b.indexExists (0x2A04 + e.val) = true)
    (runs : (b.engine e).state ≠ .halted) :
    b.sdoRun (mailRequest .download (0x2A04 + e.val) 0 v) = b.aborts (0x2A04 + e.val) 0 0x08000022 0xA003 :=
  Bar.sdoRun_denied (isArm_other (by omega)) there (b.entry?_program e) (by decide)
    (Bar.writeDenied_state (Bar.stateDenied_engine (by decide) (by omega) (by simp [b.engineBusy_program, runs])))
    (b.keySpent_other _ _ (by omega)) (by decide)

/-- The entries of a channel's two queues. -/
def commandQueueRow : Entry := recs 0x2A10 0x2A4F 5 .u32 .wo
def reportQueueRow : Entry := recs 0x2A10 0x2A4F 6 .u32 .ro

theorem channelRows_fixed : ∀ e ∈ dictionary, e.lo ≤ 0x2A4F → 0x2A10 ≤ e.hi → e.span = .all := by decide +kernel

theorem findEntry_queues : ∀ k : Fin 64, findEntry (0x2A10 + k.val) 5 = some commandQueueRow ∧
    findEntry (0x2A10 + k.val) 6 = some reportQueueRow := by decide +kernel

theorem Bar.entry?_channel (b : Bar) (k : Fin 64) (sub : Nat) : b.entry? (0x2A10 + k.val) sub = findEntry (0x2A10 + k.val) sub :=
  b.entry?_eq_findEntry (fun e row low high _ _ => channelRows_fixed e row (by omega) (by omega)) (by omega)

/-- A word for a command queue passes the checks of its write. -/
theorem Bar.sdoRun_commandQueue {b : Bar} {k : Fin 64} (w : Word32) (there : b.indexExists (0x2A10 + k.val) = true) :
    b.sdoRun (mailRequest .download (0x2A10 + k.val) 5 (leBytes 4 w.toNat)) =
      Bar.finish (mailRequest .download (0x2A10 + k.val) 5 (leBytes 4 w.toNat)) (b.hostQueue k (leBytes 4 w.toNat)) := by
  have small := w.isLt
  have engines : between 0x2A00 0x2A03 (0x2A10 + k.val) = false := by simp [between]; omega
  have programs : between 0x2A04 0x2A07 (0x2A10 + k.val) = false := by simp [between]; omega
  have timers : between 0x2B10 0x2B1F (0x2A10 + k.val) = false := by simp [between]; omega
  have pairs : between 0x2B30 0x2B37 (0x2A10 + k.val) = false := by simp [between]; omega
  have free : b.engineBusy (0x2A10 + k.val) 5 (leBytes 4 w.toNat) = false := by simp [engineBusy, engines, programs]
  have number : commandQueueRow.number (leBytes 4 w.toNat) = w.toNat := congrArg Nat.cast (leNat_leBytes (by omega))
  have most : (w.toNat : Int) ≤ 0xFFFFFFFFFFFFFFFF := by omega
  have ranged : b.inRange commandQueueRow (0x2A10 + k.val) 5 w.toNat = true := by
    have pins : 0x2A10 + k.val ≠ 0x2A50 ∧ 0x2A10 + k.val ≠ 0x2C02 ∧ 0x2A10 + k.val ≠ 0x2F00 := by omega
    simp [inRange, commandQueueRow, recs, most, timers, pairs, pins]
  have range : b.rangeDenied commandQueueRow (0x2A10 + k.val) 5 (leBytes 4 w.toNat) = none := by
    simp [rangeDenied, number, ranged]
  have taken := Bar.writeDenied_free (b := b) (e := commandQueueRow)
    (Bar.stateDenied_free (by decide) (by omega) free (Bar.timerBusy_carousel (by omega))) rfl range
  have effect : b.command (mailRequest .download (0x2A10 + k.val) 5 (leBytes 4 w.toNat)) (0x2A10 + k.val) 5
      (leNat (leBytes 4 w.toNat)) (leBytes 4 w.toNat) = some (b.hostQueue k (leBytes 4 w.toNat)) := by
    rw [Bar.command_carousel (by omega) (by omega), engines, programs, between_add (show 0x2A10 + k.val ≤ 0x2A4F by omega), chanIx_sub]
    rfl
  exact Bar.sdoRun_download (isArm_other (by omega)) there ((b.entry?_channel k 5).trans (findEntry_queues k).1) (by decide) taken effect

theorem Bar.hostQueue_room {b : Bar} {k : Fin 64} (w : Word32) (host : b.rwN (0x2A10 + k.val) 3 = 0)
    (room : (b.chan k).cq.length < b.queueDepth k) :
    b.hostQueue k (leBytes 4 w.toNat) = (b.modChan k fun c => { c with cq := c.cq ++ [w] }).accept := by
  have word : BitVec.ofNat 32 (leNat (leBytes 4 w.toNat)) = w := by
    rw [leNat_leBytes (by omega)]
    exact BitVec.ofNat_toNat 32 w
  have free : b.cqRoom k ≠ 0 := by
    unfold cqRoom
    omega
  rw [hostQueue, if_neg (by simp [host]), if_neg free, word]
  rfl

theorem Bar.hostQueue_full {b : Bar} {k : Fin 64} (v : List Byte) (host : b.rwN (0x2A10 + k.val) 3 = 0)
    (full : b.queueDepth k ≤ (b.chan k).cq.length) : b.hostQueue k v = b.refuse 0x08000020 0xA006 :=
  (if_neg (by simp [host])).trans (if_pos (Nat.sub_eq_zero_of_le full))

theorem Bar.hostQueue_foreign {b : Bar} {k : Fin 64} (v : List Byte) (other : b.rwN (0x2A10 + k.val) 3 ≠ 0) :
    b.hostQueue k v = b.refuse 0x08000020 0xA005 := if_pos other

/-- A read of a report queue. -/
theorem Bar.sdoRun_reportQueue {b : Bar} {k : Fin 64} (there : b.indexExists (0x2A10 + k.val) = true) :
    b.sdoRun (mailRequest .upload (0x2A10 + k.val) 6 []) =
      Bar.finish (mailRequest .upload (0x2A10 + k.val) 6 []) (b.readReport k) := by
  have row : b.readEntry .mailbox reportQueueRow (0x2A10 + k.val) 6 = b.readReport k := by
    rw [readEntry, if_neg (by simp), if_pos (by simp [between_add (show 0x2A10 + k.val ≤ 0x2A4F by omega)]), chanIx_sub]
  rw [Bar.sdoRun_upload there ((b.entry?_channel k 6).trans (findEntry_queues k).2) (by decide), row]

theorem Bar.readReport_empty {b : Bar} {k : Fin 64} (h : (b.chan k).rq = []) : b.readReport k = b.refuse 0x08000020 0xA007 := by
  simp only [readReport, h]

theorem Bar.readReport_word {b : Bar} {k : Fin 64} {w : Word32} {rest : List Word32} (h : (b.chan k).rq = w :: rest) :
    b.readReport k = (b.modChan k fun c => { c with rq := rest }).answer (leBytes 4 w.toNat) := by
  simp only [readReport, h]

/-- Settles O28. -/
theorem programsAndQueuesOverSdo : Obligations.ProgramsAndQueuesOverSdo := by
  refine ⟨⟨fun s t e bytes serves => ?_, fun s t k w serves => ?_⟩, fun s t running => ?_⟩
  · intro b
    have there : b.indexExists (0x2A04 + e.val) = true := Bar.indexExists_of_serves t serves
    have answers : Answers s (.programWrite t e bytes) (b.sdoRun (mailRequest .download (0x2A04 + e.val) 0 bytes)) :=
      .of_mailSdo serves rfl
    refine ⟨fun halted even low high => ?_, fun runs => ?_⟩
    · rwa [Bar.sdoRun_program there halted even low high] at answers
    · rwa [Bar.sdoRun_program_running there runs] at answers
  · intro b
    have there : b.indexExists (0x2A10 + k.val) = true := Bar.indexExists_of_serves t serves
    have write : Answers s (.commandQueueWrite t k w) (b.sdoRun (mailRequest .download (0x2A10 + k.val) 5 (leBytes 4 w.toNat))) :=
      .of_mailSdo serves rfl
    have read : Answers s (.reportQueueRead t k) (b.sdoRun (mailRequest .upload (0x2A10 + k.val) 6 [])) := .of_mailSdo serves rfl
    rw [Bar.sdoRun_commandQueue w there] at write
    rw [Bar.sdoRun_reportQueue there] at read
    refine ⟨fun host room => ?_, fun host full => ?_, fun other => ?_, fun empty => ?_, fun x rest front => ?_⟩
    · rw [Bar.hostQueue_room w host room, Bar.finish_accept] at write
      exact write
    · rw [Bar.hostQueue_full _ host full, Bar.finish_refuse (abort := 0x08000020) _ _ _ _ _ (by decide)] at write
      exact write
    · rw [Bar.hostQueue_foreign _ other, Bar.finish_refuse (abort := 0x08000020) _ _ _ _ _ (by decide)] at write
      exact write
    · rw [Bar.readReport_empty empty, Bar.finish_refuse_upload (abort := 0x08000020) _ _ _ _ (by decide)] at read
      exact read
    · rw [Bar.readReport_word front, Bar.finish_answer] at read
      exact read
  · exact ⟨fun e bytes => ⟨_, s.mailSdo_alive t .download (0x2A04 + e.val) 0 bytes running⟩,
      fun k w => ⟨_, s.mailSdo_alive t .download (0x2A10 + k.val) 5 (leBytes 4 w.toNat) running⟩,
      fun k => ⟨_, s.mailSdo_alive t .upload (0x2A10 + k.val) 6 [] running⟩⟩

end Sys2Proof.Machine
end


section
/-! PROOFS. Timers (chapter 13): ticks and compare matches. -/

namespace Sys2Proof.Machine

theorem Bar.modTimer_congr (b : Bar) (i : Fin 16) {f g : Timer → Timer} (h : f b.io.timers[i] = g b.io.timers[i]) :
    b.modTimer i f = b.modTimer i g := by
  unfold Bar.modTimer vmod
  rw [h]

theorem Bar.modTimer_timer (b : Bar) (i : Fin 16) (f : Timer → Timer) : (b.modTimer i f).io.timers[i] = f b.io.timers[i] :=
  vmod_same b.io.timers i f

theorem Bar.tmrCompare_idle {b : Bar} {i : Fin 16} (h : (b.io.timers[i]).settled = true ∨ (b.io.timers[i]).running = false) :
    b.tmrCompare i = b := by
  unfold tmrCompare
  dsimp only
  exact if_neg (by rcases h with h | h <;> simp only [h] <;> simp)

/-- A tick in one equation (R380). -/
theorem tmrAdvance_eq (u : Timer) (per : Nat) :
    tmrAdvance u per =
      let c := if u.down then u.count - 1 else u.count + 1
      { u with count := c, settled := false
               aheadA := u.aheadA && (!u.down || decide (c ≠ 0)), aheadB := u.aheadB && (!u.down || decide (c ≠ 0))
               down := if u.down then decide (c ≠ 0) else decide (per ≤ c)
               halfStart := if u.down then (if c = 0 then 0 else u.halfStart) else if per ≤ c then c else 0
               halfPer := if u.down && decide (c ≠ 0) then u.halfPer else per } := by
  cases down : u.down with
  | true =>
    by_cases zero : u.count - 1 = 0 <;> simp [tmrAdvance, down, zero]
  | false => simp [tmrAdvance, down]

theorem Bar.tmrTick_idle {b : Bar} {i : Fin 16}
    (h : (b.io.timers[b.tmrHead i]).running = false ∨ b.now < (b.io.timers[b.tmrHead i]).due) : b.tmrTick i = b := by
  unfold tmrTick
  dsimp only
  refine if_neg ?_
  rcases h with h | h
  · simp only [h]; simp
  · simp only [Bool.and_eq_true, decide_eq_true_eq]; omega

/-- A tick that is due, of a unit whose count has been compared. -/
theorem Bar.tmrTick_due {b : Bar} {i : Fin 16} (running : (b.io.timers[b.tmrHead i]).running = true)
    (due : (b.io.timers[b.tmrHead i]).due ≤ b.now) (settled : (b.io.timers[b.tmrHead i]).settled = true) :
    b.tmrTick i = b.modTimer (b.tmrHead i) fun u => { tmrAdvance u (b.tmrPer (b.tmrHead i).val) with
      at_ := b.tickTime u.due
      due := (if b.cap.tb.mode = .pll || decide (40 < b.tick (b.tmrHead i).val) then u.due else b.tickTime u.due)
        + b.tick (b.tmrHead i).val } := by
  unfold tmrTick
  dsimp only
  rw [if_pos (by simp only [running, due]; simp), Bar.tmrCompare_idle (.inl settled)]
  exact b.modTimer_congr _ rfl

/-- The event of a tick brings the unit's tick where one is due of a unit whose count has been compared, and else nothing. -/
theorem Bar.timerTick_due {b : Bar} {i : Fin 16} (due : (b.io.timers[b.tmrHead i]).due ≤ b.now)
    (quiet : (b.io.timers[b.tmrHead i]).settled = true ∨ (b.io.timers[b.tmrHead i]).running = false) :
    b.timerTick i = b.tmrTick i := by
  rw [timerTick, if_pos due, timerMatch, Bar.tmrCompare_idle quiet]

theorem Bar.timerTick_idle {b : Bar} {i : Fin 16}
    (h : (b.io.timers[b.tmrHead i]).running = false ∨ b.now < (b.io.timers[b.tmrHead i]).due) : b.timerTick i = b := by
  by_cases due : (b.io.timers[b.tmrHead i]).due ≤ b.now
  · rw [Bar.timerTick_due due (.inr (h.resolve_right (by omega))), Bar.tmrTick_idle h]
  · exact if_neg due

/-- The tick as the statement writes it. -/
theorem Bar.tmrTick_due_eq (b : Bar) (h : Fin 16) :
    let u := b.io.timers[h]
    let per := b.tmrPer h.val
    let moment := if b.cap.tb.mode = .pll then u.due else b.now - (b.now - u.due) / 40 * 40
    let c := if u.down then u.count - 1 else u.count + 1
    (b.modTimer h fun u => { tmrAdvance u per with
      at_ := b.tickTime u.due
      due := (if b.cap.tb.mode = .pll || decide (40 < b.tick h.val) then u.due else b.tickTime u.due) + b.tick h.val }) =
    b.modTimer h fun u =>
      { u with count := c, settled := false, at_ := moment
               due := (if b.cap.tb.mode = .pll ∨ 40 < b.tick h.val then u.due else moment) + b.tick h.val
               aheadA := u.aheadA && (!u.down || decide (c ≠ 0)), aheadB := u.aheadB && (!u.down || decide (c ≠ 0))
               down := if u.down then decide (c ≠ 0) else decide (per ≤ c)
               halfStart := if u.down then (if c = 0 then 0 else u.halfStart) else if per ≤ c then c else 0
               halfPer := if u.down && decide (c ≠ 0) then u.halfPer else per } := by
  refine b.modTimer_congr h ?_
  simp only [tmrAdvance_eq, Bool.or_eq_true, decide_eq_true_eq, tickTime]

/-- Settles O29. -/
theorem timerCountsUpAndDown : Obligations.TimerCountsUpAndDown := by
  intro s t i running b h u per
  have answers : Answers s (.timerTick t i) (b.timerTick i) := .of_live (fun b => b.timerTick i) running rfl
  refine ⟨fun runs due settled => ?_, fun idle => ?_⟩
  · rw [Bar.timerTick_due due (.inl settled), Bar.tmrTick_due runs due settled, Bar.tmrTick_due_eq] at answers
    exact answers
  · rw [Bar.timerTick_idle idle] at answers
    exact answers

/-! ### Compare matches (R382, R384) -/

theorem tmrAction_eq (a : Nat) (x : Bool) :
    tmrAction a x = if a = 0 then x else if a = 1 then false else if a = 2 then true else !x := by
  unfold tmrAction
  split <;> simp_all

/-- A match of the compare value cmp at the present count. -/
def Timer.hits (u : Timer) (cmp : Nat) (ahead : Bool) : Bool := u.count = cmp && (ahead || decide (u.count ≤ u.halfPer))

theorem Timer.hits_iff (u : Timer) (cmp : Nat) (ahead : Bool) :
    u.hits cmp ahead = true ↔ u.count = cmp ∧ (ahead = true ∨ u.count ≤ u.halfPer) := by simp [hits]

/-- The count is a turn: the half that ends acts and then the half that begins. -/
def Timer.atTurn (u : Timer) : Bool := u.count = 0 || (u.down && u.count = u.halfStart)

theorem Timer.atTurn_iff (u : Timer) : u.atTurn = true ↔ u.count = 0 ∨ (u.down = true ∧ u.count = u.halfStart) := by simp [atTurn]

/-- The unit after its count has been compared. -/
def Bar.compared (b : Bar) (i : Fin 16) : Bar :=
  b.modTimer i fun u =>
    { u with
      settled := true
      outA := if u.hits (b.tmrCmpA i.val) u.aheadA
        then tmrOutput (bits (b.tmrCtl i.val) 4 3) (bits (b.tmrCtl i.val) 6 5) u.atTurn u.down u.outA else u.outA
      outB := if u.hits (b.tmrCmpB i.val) u.aheadB
        then tmrOutput (bits (b.tmrCtl i.val) 8 7) (bits (b.tmrCtl i.val) 10 9) u.atTurn u.down u.outB else u.outB
      matchesA := if u.hits (b.tmrCmpA i.val) u.aheadA then sat32 u.matchesA else u.matchesA
      matchesB := if u.hits (b.tmrCmpB i.val) u.aheadB then sat32 u.matchesB else u.matchesB }

theorem Bar.tmrPin_unnamed {b : Bar} {i sub : Nat} (level : Bool) (te : Nat) (h : 64 ≤ b.rwN (0x2B10 + i) sub) :
    b.tmrPin i sub level te = b := if_neg (by simp; omega)

/-- A count compared, of a unit whose outputs name no pin. -/
theorem Bar.tmrCompare_pinless {b : Bar} {i : Fin 16} (running : (b.io.timers[i]).running = true)
    (fresh : (b.io.timers[i]).settled = false) (pinA : 64 ≤ b.rwN (0x2B10 + i.val) 4) (pinB : 64 ≤ b.rwN (0x2B10 + i.val) 5) :
    b.tmrCompare i =
      if (b.io.timers[i]).hits (b.tmrCmpA i.val) (b.io.timers[i]).aheadA then
        ((b.compared i).noteWaits (.tmrMatch i.val (b.io.timers[i]).at_)).routeTrigger (0x40 + i.val) (b.io.timers[i]).at_
      else b.compared i := by
  unfold tmrCompare
  extract_lets u ctl hitA hitB turn outA outB compared noted pinnedA pinnedB
  rw [if_pos (by simp only [u, running, fresh]; decide)]
  have same : compared = b.compared i := b.modTimer_congr i rfl
  have rows (sub : Nat) : noted.rwN (0x2B10 + i.val) sub = b.rwN (0x2B10 + i.val) sub := by
    unfold noted
    split
    · obtain ⟨⟨_, h⟩, -⟩ := compared.noteWaits_waitsOnly (.tmrMatch i.val u.at_)
      rw [h]
      rfl
    · rfl
  have first : pinnedA = noted := by
    unfold pinnedA
    split
    · exact Bar.tmrPin_unnamed _ _ (by rw [rows]; exact pinA)
    · rfl
  have second : pinnedB = noted := by
    unfold pinnedB
    rw [first]
    split
    · exact Bar.tmrPin_unnamed _ _ (by rw [rows]; exact pinB)
    · rfl
  rw [second]
  unfold noted
  rw [same]
  change (if hitA = true then _ else _) = if hitA = true then _ else _
  split
  · rfl
  · rfl

/-- Settles O30. -/
theorem timerMatchActs : Obligations.TimerMatchActs := by
  intro s t i running b u ctl alone pinA pinB
  have answers : Answers s (.timerMatch t i) (b.timerMatch i) := .of_live (fun b => b.timerMatch i) running rfl
  rw [Bar.timerMatch, alone] at answers
  refine ⟨fun runs fresh => ?_, fun idle => ?_⟩
  · intro hitA hitB act turn out compared
    have actions (a : Nat) (x : Bool) : tmrAction a x = act a x := tmrAction_eq a x
    have isTurn : u.atTurn = true ↔ turn := u.atTurn_iff
    have hitsA : u.hits (b.tmrCmpA i.val) u.aheadA = true ↔ hitA := u.hits_iff _ _
    have hitsB : u.hits (b.tmrCmpB i.val) u.aheadB = true ↔ hitB := u.hits_iff _ _
    have outputs (up dn : Nat) (x : Bool) : tmrOutput up dn u.atTurn u.down x = out up dn x := by
      simp only [tmrOutput, actions, isTurn, out]
    have same : b.compared i = compared := by
      refine b.modTimer_congr i ?_
      change { u with
        settled := true
        outA := if u.hits (b.tmrCmpA i.val) u.aheadA
          then tmrOutput (bits (b.tmrCtl i.val) 4 3) (bits (b.tmrCtl i.val) 6 5) u.atTurn u.down u.outA else u.outA
        outB := if u.hits (b.tmrCmpB i.val) u.aheadB
          then tmrOutput (bits (b.tmrCtl i.val) 8 7) (bits (b.tmrCtl i.val) 10 9) u.atTurn u.down u.outB else u.outB
        matchesA := if u.hits (b.tmrCmpA i.val) u.aheadA then sat32 u.matchesA else u.matchesA
        matchesB := if u.hits (b.tmrCmpB i.val) u.aheadB then sat32 u.matchesB else u.matchesB } = _
      simp only [outputs, hitsA, hitsB, sat32_eq_min]
      rfl
    rw [Bar.tmrCompare_pinless runs fresh pinA pinB, same] at answers
    simp only [u, hitsA] at answers
    exact answers
  · rw [Bar.tmrCompare_idle idle] at answers
    exact answers

end Sys2Proof.Machine
end


section
/-! PROOFS. Timers start and stop by masks (R381). -/

namespace Sys2Proof.Machine

/-! ### What the work of a timer can touch -/

/-- From b to c the settings, the time and the engines stand, and channels change only in whether their WAITs have been met. -/
def Bar.TimersWork (b c : Bar) : Prop :=
  c.now = b.now ∧ c.par = b.par ∧ c.segs = b.segs ∧ c.cap.tb = b.cap.tb ∧ c.io.engines = b.io.engines ∧
  ∀ k, ∃ x, c.chan k = { b.chan k with busy := x }

theorem Bar.TimersWork.refl (b : Bar) : b.TimersWork b := ⟨rfl, rfl, rfl, rfl, rfl, fun _ => ⟨_, rfl⟩⟩

theorem Bar.TimersWork.trans {b c d : Bar} (first : b.TimersWork c) (second : c.TimersWork d) : b.TimersWork d := by
  obtain ⟨now, par, segs, tb, engines, met⟩ := first
  obtain ⟨now', par', segs', tb', engines', met'⟩ := second
  refine ⟨now'.trans now, par'.trans par, segs'.trans segs, tb'.trans tb, engines'.trans engines, fun k => ?_⟩
  obtain ⟨x, hx⟩ := met k
  obtain ⟨y, hy⟩ := met' k
  exact ⟨y, by rw [hy, hx]⟩

theorem Bar.TimersWork.ite {b c d : Bar} {p : Prop} [Decidable p] (yes : b.TimersWork c) (no : b.TimersWork d) :
    b.TimersWork (if p then c else d) := by
  split
  · exact yes
  · exact no

theorem Bar.PinsOnly.timersWork {b c : Bar} (h : b.PinsOnly c) : b.TimersWork c := by
  obtain ⟨⟨_, _, rfl⟩, met⟩ := h
  exact ⟨rfl, rfl, rfl, rfl, rfl, fun k => (met k).imp fun _ => And.left⟩

theorem Bar.PinsOnly.timers_eq {b c : Bar} (h : b.PinsOnly c) : c.io.timers = b.io.timers := by
  obtain ⟨⟨_, _, rfl⟩, -⟩ := h
  rfl

theorem Bar.PinsOnly.ite {b c d : Bar} {p : Prop} [Decidable p] (yes : b.PinsOnly c) (no : b.PinsOnly d) :
    b.PinsOnly (if p then c else d) := by
  split
  · exact yes
  · exact no

theorem Bar.tmrPin_pinsOnly (b : Bar) (i sub : Nat) (level : Bool) (te : Nat) : b.PinsOnly (b.tmrPin i sub level te) :=
  .ite (b.changePin_pinsOnly _ _ _) (.refl b)

theorem Bar.tmrPinHalt_pinsOnly (b : Bar) (i sub : Nat) : b.PinsOnly (b.tmrPinHalt i sub) :=
  .ite (b.haltPin_pinsOnly _) (.refl b)

theorem Bar.noteWaits_pinsOnly (b : Bar) (ev : StepEvent) : b.PinsOnly (b.noteWaits ev) :=
  Bar.PinsOnly.foldl (fun b k => b.noteWait_pinsOnly ev k) _ b

theorem Bar.modTimer_timersWork (b : Bar) (i : Fin 16) (f : Timer → Timer) : b.TimersWork (b.modTimer i f) :=
  ⟨rfl, rfl, rfl, rfl, rfl, fun _ => ⟨_, rfl⟩⟩

theorem Bar.modTimer_other (b : Bar) {i j : Fin 16} (f : Timer → Timer) (h : j ≠ i) :
    (b.modTimer i f).io.timers[j] = b.io.timers[j] := vmod_other _ _ h

theorem Bar.modTimer_field (b : Bar) (i : Fin 16) {f : Timer → Timer} {field : Timer → Nat} (h : ∀ u, field (f u) = field u) :
    field (b.modTimer i f).io.timers[i] = field b.io.timers[i] := by
  rw [Bar.modTimer_timer, h]

theorem Bar.logEvent_timersWork (b : Bar) (code arg : Nat) : b.TimersWork (b.logEvent code arg) :=
  ⟨rfl, rfl, rfl, rfl, rfl, fun _ => ⟨_, rfl⟩⟩

/-- A trigger reaches the synthesiser alone. -/
theorem Bar.routeTrigger_frame (b : Bar) (src time : Nat) :
    ∃ syn, b.routeTrigger src time = { b with cap := { b.cap with syn := syn } } := by
  unfold routeTrigger
  dsimp only
  split
  · split
    · exact ⟨_, rfl⟩
    · generalize (decide (0 < b.cap.syn.burstLeft) || _) = busy
      split <;> exact ⟨_, rfl⟩
    · exact ⟨_, rfl⟩
  · exact ⟨_, rfl⟩

theorem Bar.routeTrigger_timersWork (b : Bar) (src time : Nat) : b.TimersWork (b.routeTrigger src time) := by
  obtain ⟨_, h⟩ := b.routeTrigger_frame src time
  rw [h]
  exact ⟨rfl, rfl, rfl, rfl, rfl, fun _ => ⟨_, rfl⟩⟩

theorem Bar.routeTrigger_timers (b : Bar) (src time : Nat) : (b.routeTrigger src time).io.timers = b.io.timers := by
  obtain ⟨_, h⟩ := b.routeTrigger_frame src time
  rw [h]

/-- A compare touches its own unit only, and neither its count nor its tick. -/
theorem Bar.tmrCompare_keeps (b : Bar) (i : Fin 16) :
    b.TimersWork (b.tmrCompare i) ∧ (∀ j, j ≠ i → (b.tmrCompare i).io.timers[j] = b.io.timers[j]) ∧
    ((b.tmrCompare i).io.timers[i]).count = (b.io.timers[i]).count ∧ ((b.tmrCompare i).io.timers[i]).due = (b.io.timers[i]).due := by
  unfold tmrCompare
  extract_lets u ctl hitA hitB turn outA outB compared noted pinnedA pinnedB
  split
  · have work : b.TimersWork compared := b.modTimer_timersWork i _
    have pins : compared.PinsOnly pinnedB :=
      Bar.PinsOnly.trans (.ite (compared.noteWaits_pinsOnly _) (.refl _)) <|
      Bar.PinsOnly.trans (.ite (noted.tmrPin_pinsOnly _ _ _ _) (.refl _)) (.ite (pinnedA.tmrPin_pinsOnly _ _ _ _) (.refl _))
    have timers : (if hitA = true then pinnedB.routeTrigger (0x40 + i.val) u.at_ else pinnedB).io.timers = compared.io.timers := by
      split
      · rw [Bar.routeTrigger_timers, pins.timers_eq]
      · rw [pins.timers_eq]
    refine ⟨(work.trans pins.timersWork).trans (.ite (pinnedB.routeTrigger_timersWork _ _) (.refl _)), fun j other => ?_, ?_, ?_⟩
    · exact (congrArg (·[j]) timers).trans (b.modTimer_other _ other)
    · exact (congrArg (fun v : Vector Timer 16 => v[i].count) timers).trans (b.modTimer_field i (field := Timer.count) fun _ => rfl)
    · exact (congrArg (fun v : Vector Timer 16 => v[i].due) timers).trans (b.modTimer_field i (field := Timer.due) fun _ => rfl)
  · exact ⟨.refl b, fun _ _ => rfl, rfl, rfl⟩

theorem Bar.tmrCompare_work (b : Bar) (i : Fin 16) : b.TimersWork (b.tmrCompare i) := (b.tmrCompare_keeps i).1

theorem Bar.tmrCompare_other (b : Bar) {i j : Fin 16} (h : j ≠ i) : (b.tmrCompare i).io.timers[j] = b.io.timers[j] :=
  (b.tmrCompare_keeps i).2.1 j h

section
variable {b c : Bar} (h : b.TimersWork c)
include h

theorem Bar.TimersWork.rwN_eq (index sub : Nat) : c.rwN index sub = b.rwN index sub := by
  obtain ⟨-, par, segs, -⟩ := h
  simp only [rwN, rwI, par, segs]

theorem Bar.TimersWork.tmrCtl_eq (i : Nat) : c.tmrCtl i = b.tmrCtl i := h.rwN_eq _ _

theorem Bar.TimersWork.pairHigh_eq (i base sub dflt : Nat) : c.pairHigh i base sub dflt = b.pairHigh i base sub dflt := by
  obtain ⟨-, par, -⟩ := h
  unfold pairHigh
  rw [par]

theorem Bar.TimersWork.tmrValue_eq (i base sub dflt : Nat) : c.tmrValue i base sub dflt = b.tmrValue i base sub dflt := by
  unfold tmrValue tmrLinked
  rw [h.tmrCtl_eq, h.rwN_eq, h.pairHigh_eq]

theorem Bar.TimersWork.tick_eq (i : Nat) : c.tick i = b.tick i := by simp only [tick, h.rwN_eq]
end

/-- What a start leaves of its unit (R381). -/
structure Bar.Starts (b : Bar) (i : Fin 16) (u : Timer) : Prop where
  running : u.running = true
  count : u.count = b.tmrPreset i.val
  settled : u.settled = true
  outA : u.outA = bit (b.tmrCtl i.val) 11
  outB : u.outB = bit (b.tmrCtl i.val) 12
  at_ : u.at_ = b.now + 2 - (b.now + b.cap.tb.stepPhase) % 2
  due : u.due = u.at_ + b.tick i.val
  overrun : u.overrun = false
  miss : u.miss = false
  double : u.double = false
  down : u.down = (if b.tmrPreset i.val = b.tmrPer i.val then true else if b.tmrPreset i.val = 0 then false else bit (b.tmrCtl i.val) 0)

/-- A start depends on the settings and the time alone. -/
theorem Bar.TimersWork.starts {b c : Bar} {i : Fin 16} {u : Timer} (h : b.TimersWork c) (s : c.Starts i u) : b.Starts i u := by
  have preset : c.tmrPreset i.val = b.tmrPreset i.val := h.tmrValue_eq ..
  have per : c.tmrPer i.val = b.tmrPer i.val := h.tmrValue_eq ..
  obtain ⟨now, -, -, tb, -⟩ := id h
  exact {
    running := s.running
    count := s.count.trans preset
    settled := s.settled
    outA := by rw [s.outA, h.tmrCtl_eq]
    outB := by rw [s.outB, h.tmrCtl_eq]
    at_ := by rw [s.at_, now, tb]
    due := by rw [s.due, h.tick_eq]
    overrun := s.overrun
    miss := s.miss
    double := s.double
    down := by rw [s.down, preset, per, h.tmrCtl_eq] }

theorem Bar.tmrStart_keeps (b : Bar) (i : Fin 16) :
    b.TimersWork (b.tmrStart i) ∧ (∀ j, j ≠ i → (b.tmrStart i).io.timers[j] = b.io.timers[j]) ∧
    b.Starts i (b.tmrStart i).io.timers[i] := by
  unfold tmrStart
  extract_lets compared ctl per preset down tick0 started pinned
  have first : b.TimersWork compared := b.tmrCompare_work i
  have second : compared.TimersWork started := compared.modTimer_timersWork i _
  have pins : started.PinsOnly pinned := (started.tmrPin_pinsOnly _ _ _ _).trans (Bar.tmrPin_pinsOnly _ _ _ _ _)
  have unit := compared.modTimer_timer i fun u =>
    { u with
      running := true, down := down, count := preset, halfStart := if down then per else 0, halfPer := per, settled := true
      aheadA := false, aheadB := false, at_ := tick0, due := tick0 + compared.tick i.val, outA := bit ctl 11, outB := bit ctl 12
      overrun := false, miss := false, double := false }
  refine ⟨(first.trans second).trans (pins.timersWork.trans (pinned.logEvent_timersWork _ _)), fun j other => ?_, first.starts ?_⟩
  · exact (congrArg (·[j]) pins.timers_eq).trans ((compared.modTimer_other _ other).trans (b.tmrCompare_other other))
  · have same : (pinned.logEvent 0xB023 (i.val * 256 + 1)).io.timers[i] = started.io.timers[i] := congrArg (·[i]) pins.timers_eq
    rw [same, unit]
    constructor <;> rfl

/-- What a mask leaves, of the units that the fold has come to. -/
theorem Bar.foldl_tmrStart (mask : Nat) {l : List (Fin 16)} (each : l.Nodup) (b : Bar) :
    let c := l.foldl (fun b i => if bit mask i.val then b.tmrStart i else b) b
    b.TimersWork c ∧ (∀ i : Fin 16, i ∉ l ∨ bit mask i.val = false → c.io.timers[i] = b.io.timers[i]) ∧
    ∀ i ∈ l, bit mask i.val = true → b.Starts i c.io.timers[i] := by
  induction l generalizing b with
  | nil => exact ⟨.refl b, fun _ _ => rfl, fun _ h => absurd h List.not_mem_nil⟩
  | cons a l ih =>
    obtain ⟨fresh, each⟩ := List.nodup_cons.mp each
    rw [List.foldl_cons]
    intro c
    by_cases named : bit mask a.val = true
    · obtain ⟨work, others, starts⟩ := b.tmrStart_keeps a
      obtain ⟨work', others', starts'⟩ := ih each (b.tmrStart a)
      have same : c = l.foldl (fun b i => if bit mask i.val then b.tmrStart i else b) (b.tmrStart a) := by
        simp only [c, named, if_true]
      rw [same]
      refine ⟨work.trans work', fun i h => ?_, fun i h bit => ?_⟩
      · have ne : i ≠ a := by
          rintro rfl
          rcases h with h | h
          · exact h List.mem_cons_self
          · rw [h] at named
            exact Bool.false_ne_true named
        rw [others' i (h.imp_left fun h x => h (List.mem_cons_of_mem _ x)), others i ne]
      · rcases List.mem_cons.mp h with rfl | h
        · rw [others' i (.inl fresh)]
          exact starts
        · exact work.starts (starts' i h bit)
    · obtain ⟨work', others', starts'⟩ := ih each b
      have same : c = l.foldl (fun b i => if bit mask i.val then b.tmrStart i else b) b := by
        simp only [c, named]
        rfl
      rw [same]
      refine ⟨work', fun i h => ?_, fun i h bit => ?_⟩
      · by_cases ne : i = a
        · exact others' i (.inl (ne ▸ fresh))
        · exact others' i (h.imp_left fun h x => h (List.mem_cons_of_mem _ x))
      · rcases List.mem_cons.mp h with rfl | h
        · exact absurd bit named
        · exact starts' i h bit

theorem Bar.startTimers_keeps (b : Bar) (mask : Nat) :
    b.TimersWork (b.startTimers mask) ∧
    (∀ i : Fin 16, bit mask i.val = false → (b.startTimers mask).io.timers[i] = b.io.timers[i]) ∧
    ∀ i : Fin 16, bit mask i.val = true → b.Starts i (b.startTimers mask).io.timers[i] := by
  obtain ⟨work, others, starts⟩ := Bar.foldl_tmrStart mask (List.nodup_finRange 16) b
  exact ⟨work, fun i h => others i (.inr h), fun i h => starts i (List.mem_finRange i) h⟩

theorem Bar.tmrStop_keeps (b : Bar) (i : Fin 16) :
    (b.tmrStop i).par = b.par ∧ (∀ j, j ≠ i → (b.tmrStop i).io.timers[j] = b.io.timers[j]) ∧
    ((b.tmrStop i).io.timers[i]).count = (b.io.timers[i]).count ∧ ((b.tmrStop i).io.timers[i]).due = (b.io.timers[i]).due ∧
    ((b.tmrStop i).io.timers[i]).running = false := by
  unfold tmrStop
  split
  next runs =>
    extract_lets compared stopped pinned
    obtain ⟨work, others, count, due⟩ := b.tmrCompare_keeps i
    have pins : stopped.PinsOnly pinned := (stopped.tmrPinHalt_pinsOnly _ _).trans (Bar.tmrPinHalt_pinsOnly _ _ _)
    have unit : stopped.io.timers[i] = { compared.io.timers[i] with running := false } := compared.modTimer_timer i _
    have kept (j : Fin 16) : (pinned.logEvent 0xB023 (i.val * 256)).io.timers[j] = stopped.io.timers[j] :=
      congrArg (·[j]) pins.timers_eq
    refine ⟨pins.timersWork.2.1.trans work.2.1, fun j other => (kept j).trans ((compared.modTimer_other _ other).trans (others j other)),
      ?_, ?_, ?_⟩
    · exact (congrArg Timer.count ((kept i).trans unit)).trans count
    · exact (congrArg Timer.due ((kept i).trans unit)).trans due
    · exact congrArg Timer.running ((kept i).trans unit)
  next idle => exact ⟨rfl, fun _ _ => rfl, rfl, rfl, by simpa using idle⟩

/-- What a stop mask leaves, of the units that the fold has come to. -/
theorem Bar.foldl_tmrStop (mask : Nat) {l : List (Fin 16)} (each : l.Nodup) (b : Bar) :
    let c := l.foldl (fun b i => if bit mask i.val then b.tmrStop i else b) b
    c.par = b.par ∧ (∀ i : Fin 16, i ∉ l ∨ bit mask i.val = false → c.io.timers[i] = b.io.timers[i]) ∧
    ∀ i ∈ l, (c.io.timers[i]).count = (b.io.timers[i]).count ∧ (c.io.timers[i]).due = (b.io.timers[i]).due ∧
      (bit mask i.val = true → (c.io.timers[i]).running = false) := by
  induction l generalizing b with
  | nil => exact ⟨rfl, fun _ _ => rfl, fun _ h => absurd h List.not_mem_nil⟩
  | cons a l ih =>
    obtain ⟨fresh, each⟩ := List.nodup_cons.mp each
    rw [List.foldl_cons]
    intro c
    by_cases named : bit mask a.val = true
    · obtain ⟨par, others, count, due, stops⟩ := b.tmrStop_keeps a
      obtain ⟨par', others', stops'⟩ := ih each (b.tmrStop a)
      have same : c = l.foldl (fun b i => if bit mask i.val then b.tmrStop i else b) (b.tmrStop a) := by
        simp only [c, named, if_true]
      rw [same]
      refine ⟨par'.trans par, fun i h => ?_, fun i h => ?_⟩
      · have ne : i ≠ a := by
          rintro rfl
          rcases h with h | h
          · exact h List.mem_cons_self
          · rw [h] at named
            exact Bool.false_ne_true named
        rw [others' i (h.imp_left fun h x => h (List.mem_cons_of_mem _ x)), others i ne]
      · rcases List.mem_cons.mp h with rfl | h
        · rw [others' i (.inl fresh)]
          exact ⟨count, due, fun _ => stops⟩
        · have ne : i ≠ a := fun x => fresh (x ▸ h)
          have unit := stops' i h
          rwa [others i ne] at unit
    · obtain ⟨par', others', stops'⟩ := ih each b
      have same : c = l.foldl (fun b i => if bit mask i.val then b.tmrStop i else b) b := by
        simp only [c, named]
        rfl
      rw [same]
      refine ⟨par', fun i h => ?_, fun i h => ?_⟩
      · by_cases ne : i = a
        · exact others' i (.inl (ne ▸ fresh))
        · exact others' i (h.imp_left fun h x => h (List.mem_cons_of_mem _ x))
      · rcases List.mem_cons.mp h with rfl | h
        · rw [others' i (.inl fresh)]
          exact ⟨rfl, rfl, fun x => absurd x named⟩
        · exact stops' i h

theorem Bar.stopTimers_keeps (b : Bar) (mask : Nat) :
    (b.stopTimers mask).par = b.par ∧
    (∀ i : Fin 16, bit mask i.val = false → (b.stopTimers mask).io.timers[i] = b.io.timers[i]) ∧
    ∀ i : Fin 16, ((b.stopTimers mask).io.timers[i]).count = (b.io.timers[i]).count ∧
      ((b.stopTimers mask).io.timers[i]).due = (b.io.timers[i]).due ∧
      (bit mask i.val = true → ((b.stopTimers mask).io.timers[i]).running = false) := by
  obtain ⟨par, others, stops⟩ := Bar.foldl_tmrStop mask (List.nodup_finRange 16) b
  exact ⟨par, fun i h => others i (.inr h), fun i => stops i (List.mem_finRange i)⟩

/-! ### The refusals of a mask (R381, R389) -/

/-- The mask names the odd unit of a linked pair. -/
def Bar.namesHalf (b : Bar) (mask : Nat) : Prop := ∃ j : Fin 8, bit mask (2 * j.val + 1) = true ∧ b.tmrLinked (2 * j.val + 1) = true

/-- The mask names a timer whose preset exceeds its period. -/
def Bar.namesRange (b : Bar) (mask : Nat) : Prop := ∃ i : Fin 16, bit mask i.val = true ∧ b.tmrPer i.val < b.tmrPreset i.val

/-- The mask names timers of unequal prescalers. -/
def Bar.namesUnequal (b : Bar) (mask : Nat) : Prop :=
  ∃ i j : Fin 16, bit mask i.val = true ∧ bit mask j.val = true ∧ b.rwN (0x2B10 + i.val) 2 ≠ b.rwN (0x2B10 + j.val) 2

/-- The timers that a mask names, rising. -/
def selected (mask : Nat) : List Nat := (List.range 16).filter fun i => bit mask i

theorem mem_selected {mask i : Nat} : i ∈ selected mask ↔ i < 16 ∧ bit mask i = true := by simp [selected]

theorem Bar.namesHalf_iff (b : Bar) (mask : Nat) :
    b.namesHalf mask ↔ ((selected mask).any fun i => i % 2 = 1 && b.tmrLinked i) = true := by
  simp only [namesHalf, List.any_eq_true, mem_selected, Bool.and_eq_true, decide_eq_true_eq]
  constructor
  · rintro ⟨j, named, linked⟩
    exact ⟨_, ⟨by omega, named⟩, by omega, linked⟩
  · rintro ⟨i, ⟨small, named⟩, odd, linked⟩
    have unit : 2 * (i / 2) + 1 = i := by omega
    refine ⟨⟨i / 2, by omega⟩, ?_, ?_⟩
    · rwa [unit]
    · rwa [unit]

theorem Bar.namesRange_iff (b : Bar) (mask : Nat) :
    b.namesRange mask ↔ ((selected mask).any fun i => b.tmrPer i < b.tmrPreset i) = true := by
  simp only [namesRange, List.any_eq_true, mem_selected, decide_eq_true_eq]
  exact ⟨fun ⟨i, named, exceeds⟩ => ⟨_, ⟨i.isLt, named⟩, exceeds⟩, fun ⟨i, ⟨small, named⟩, exceeds⟩ => ⟨⟨i, small⟩, named, exceeds⟩⟩

/-- Unequal prescalers show against the first timer named. -/
theorem Bar.namesUnequal_iff (b : Bar) (mask : Nat) :
    b.namesUnequal mask ↔
      ((selected mask).any fun i => b.rwN (0x2B10 + i) 2 ≠ b.rwN (0x2B10 + (selected mask).headD 0) 2) = true := by
  simp only [namesUnequal, List.any_eq_true, decide_eq_true_eq]
  constructor
  · rintro ⟨i, j, hi, hj, unequal⟩
    refine Classical.byContradiction fun same => ?_
    have equal (k : Fin 16) (named : bit mask k.val = true) :
        b.rwN (0x2B10 + k.val) 2 = b.rwN (0x2B10 + (selected mask).headD 0) 2 := by
      exact Classical.byContradiction fun x => same ⟨k.val, mem_selected.mpr ⟨k.isLt, named⟩, x⟩
    exact unequal ((equal i hi).trans (equal j hj).symm)
  · rintro ⟨i, hi, unequal⟩
    have first : (selected mask).headD 0 ∈ selected mask := by
      cases h : selected mask with
      | nil => rw [h] at hi; exact absurd hi List.not_mem_nil
      | cons a l => exact List.mem_cons_self
    obtain ⟨small, named⟩ := mem_selected.mp hi
    obtain ⟨small', named'⟩ := mem_selected.mp first
    exact ⟨⟨i, small⟩, ⟨_, small'⟩, named, named', unequal⟩

section
variable {b : Bar} {mask : Nat}

theorem Bar.startRefused_half (h : b.namesHalf mask) : b.startRefused mask = some 0xB007 := if_pos ((b.namesHalf_iff mask).mp h)

theorem Bar.startRefused_range (half : ¬b.namesHalf mask) (h : b.namesRange mask) : b.startRefused mask = some 0xB005 :=
  (if_neg (mt (b.namesHalf_iff mask).mpr half)).trans (if_pos ((b.namesRange_iff mask).mp h))

theorem Bar.startRefused_unequal (half : ¬b.namesHalf mask) (range : ¬b.namesRange mask) (h : b.namesUnequal mask) :
    b.startRefused mask = some 0xB006 :=
  (if_neg (mt (b.namesHalf_iff mask).mpr half)).trans <| (if_neg (mt (b.namesRange_iff mask).mpr range)).trans <|
    if_pos ((b.namesUnequal_iff mask).mp h)

theorem Bar.startRefused_none (half : ¬b.namesHalf mask) (range : ¬b.namesRange mask) (h : ¬b.namesUnequal mask) :
    b.startRefused mask = none :=
  (if_neg (mt (b.namesHalf_iff mask).mpr half)).trans <| (if_neg (mt (b.namesRange_iff mask).mpr range)).trans <|
    if_neg (mt (b.namesUnequal_iff mask).mpr h)

theorem any_selected (mask : Nat) (p : Nat → Bool) :
    ((List.range 16).any fun i => bit mask i && p i) = (selected mask).any p := by
  rw [selected, List.any_filter]

theorem Bar.stopRefused_half (h : b.namesHalf mask) : b.stopRefused mask = some 0xB007 := by
  refine if_pos ?_
  simp only [Bool.and_assoc]
  exact (any_selected mask _).trans ((b.namesHalf_iff mask).mp h)

theorem Bar.stopRefused_none (half : ¬b.namesHalf mask) : b.stopRefused mask = none := by
  refine if_neg fun h => half ((b.namesHalf_iff mask).mpr ?_)
  simp only [Bool.and_assoc] at h
  exact (any_selected mask _).symm.trans h
end

/-! ### The two masks over SDO -/

/-- The entry of the start mask, and that of the stop mask. -/
def maskRow (sub : Nat) : Entry := ent 0x2B48 sub .u16 .wo

theorem Bar.entry?_mask (b : Bar) {sub : Nat} (h : sub = 1 ∨ sub = 2) : b.entry? 0x2B48 sub = some (maskRow sub) := by
  obtain rfl | rfl := h <;> exact (b.entry?_eq_findEntry (by decide +kernel) (by decide)).trans (by decide +kernel)

theorem Bar.writeDenied_mask (b : Bar) {sub : Nat} (mask : Word16) :
    b.writeDenied .mailbox (maskRow sub) 0x2B48 sub (leBytes 2 mask.toNat) = none := by
  have small := mask.isLt
  have number : (maskRow sub).number (leBytes 2 mask.toNat) = mask.toNat := congrArg Nat.cast (leNat_leBytes (by omega))
  have most : (mask.toNat : Int) ≤ 0xFFFFFFFFFFFFFFFF := by omega
  have ranged : b.inRange (maskRow sub) 0x2B48 sub mask.toNat = true := by simp [inRange, maskRow, ent, between, most]
  have range : b.rangeDenied (maskRow sub) 0x2B48 sub (leBytes 2 mask.toNat) = none := by simp [rangeDenied, number, ranged]
  exact Bar.writeDenied_free (Bar.stateDenied_free (by simp [maskRow, ent]) (by decide) rfl rfl) rfl range

theorem Bar.sdoRun_start {b : Bar} (mask : Word16) (there : b.indexExists 0x2B48 = true) :
    b.sdoRun (mailRequest .download 0x2B48 1 (leBytes 2 mask.toNat)) =
      Bar.finish (mailRequest .download 0x2B48 1 (leBytes 2 mask.toNat))
        (match b.startRefused mask.toNat with | some c => b.refuse 0x08000020 c | none => (b.startTimers mask.toNat).accept) := by
  refine Bar.sdoRun_download rfl there (b.entry?_mask (.inl rfl)) (by decide) (b.writeDenied_mask mask) ?_
  rw [leNat_leBytes (by omega)]
  rfl

theorem Bar.sdoRun_stop {b : Bar} (mask : Word16) (there : b.indexExists 0x2B48 = true) :
    b.sdoRun (mailRequest .download 0x2B48 2 (leBytes 2 mask.toNat)) =
      Bar.finish (mailRequest .download 0x2B48 2 (leBytes 2 mask.toNat))
        (match b.stopRefused mask.toNat with | some c => b.refuse 0x08000020 c | none => (b.stopTimers mask.toNat).accept) := by
  refine Bar.sdoRun_download rfl there (b.entry?_mask (.inr rfl)) (by decide) (b.writeDenied_mask mask) ?_
  rw [leNat_leBytes (by omega)]
  rfl

/-- Settles O31. -/
theorem timersStartAndStopTogether : Obligations.TimersStartAndStopTogether := by
  refine ⟨fun s t mask serves => ?_, fun s t running => ?_⟩
  · intro b named half range unequal
    have there : b.indexExists 0x2B48 = true := Bar.indexExists_of_serves t serves
    have start : Answers s (.timerStart t mask) (b.sdoRun (mailRequest .download 0x2B48 1 (leBytes 2 mask.toNat))) :=
      .of_mailSdo serves rfl
    have stop : Answers s (.timerStop t mask) (b.sdoRun (mailRequest .download 0x2B48 2 (leBytes 2 mask.toNat))) :=
      .of_mailSdo serves rfl
    rw [Bar.sdoRun_start mask there] at start
    rw [Bar.sdoRun_stop mask there] at stop
    refine ⟨fun whole fits equal => ?_, fun h => ?_, fun whole h => ?_, fun whole fits h => ?_, fun whole => ?_, fun h => ?_⟩
    · rw [Bar.startRefused_none whole fits equal] at start
      obtain ⟨work, others, starts⟩ := b.startTimers_keeps mask.toNat
      generalize b.startTimers mask.toNat = c at start work others starts
      refine ⟨c, start, others, fun i h => ?_, work.2.2.2.2.2, work.2.2.2.2.1, work.2.1⟩
      have u := starts i h
      exact ⟨u.running, u.count, u.settled, u.outA, u.outB, u.at_, u.due, u.overrun, u.miss, u.double, u.down⟩
    · rw [Bar.startRefused_half h] at start
      exact start
    · rw [Bar.startRefused_range whole h] at start
      exact start
    · rw [Bar.startRefused_unequal whole fits h] at start
      exact start
    · rw [Bar.stopRefused_none whole] at stop
      obtain ⟨par, others, stops⟩ := b.stopTimers_keeps mask.toNat
      generalize b.stopTimers mask.toNat = c at stop par others stops
      exact ⟨c, stop, fun i => ⟨(stops i).1, (stops i).2.1⟩, fun i => (stops i).2.2, others, par⟩
    · rw [Bar.stopRefused_half h] at stop
      exact stop
  · exact ⟨fun mask => ⟨_, s.mailSdo_alive t .download 0x2B48 1 (leBytes 2 mask.toNat) running⟩,
      fun mask => ⟨_, s.mailSdo_alive t .download 0x2B48 2 (leBytes 2 mask.toNat) running⟩,
      fun i => ⟨_, .of_live (fun b => b.timerMatch i) running rfl⟩, fun i => ⟨_, .of_live (fun b => b.timerTick i) running rfl⟩,
      fun i cmpB v => ⟨_, s.mailSdo_alive t .download (0x2B00 + i.val) (if cmpB then 3 else 2) (leBytes 4 v.toNat) running⟩,
      fun i v => ⟨_, s.mailSdo_alive t .download (0x2B00 + i.val) 1 (leBytes 4 v.toNat) running⟩,
      fun j sub v => ⟨_, s.mailSdo_alive t .download (0x2B30 + j.val) (sub.val + 2) (leBytes 8 v.toNat) running⟩,
      fun p v => ⟨_, s.mailSdo_alive t .download 0x2B40 (5 + p.val) (leBytes 8 v.toNat) running⟩⟩

end Sys2Proof.Machine
end


section
/-! PROOFS. Timer values and position presets over SDO (R385 to R391), and the landing flags of a compare write (R386). -/

namespace Sys2Proof.Machine

/-! ### Landing flags -/

/-- Where a value lies ahead of the count, in the half in progress. -/
theorem liesAt_ahead_iff (down : Bool) (x h per v : Nat) :
    liesAt down x h per v = .ahead ↔ (if down then v < x else x < v ∧ v ≤ per) := by
  unfold liesAt
  cases down <;> simp only [if_true, if_false, Bool.false_eq_true] <;> split <;> (try split) <;> simp <;> omega

theorem liesAt_behind_iff (down : Bool) (x h per v : Nat) :
    liesAt down x h per v = .behind ↔ (if down then x ≤ v ∧ v ≤ h else v ≤ x ∧ v ≤ per) := by
  unfold liesAt
  cases down <;> simp only [if_true, if_false, Bool.false_eq_true] <;> split <;> (try split) <;> simp <;> omega

/-- An old value that can still match lies where it is; one that cannot lies nowhere in the half. -/
theorem Timer.oldLies_iff (u : Timer) (arm : Bool) (h per old : Nat) {l : Lies} (inside : l ≠ .above) :
    u.oldLies arm h per old = l ↔ (u.down = true → old ≤ u.halfPer ∨ arm = true) ∧ liesAt u.down u.count h per old = l := by
  unfold oldLies
  split
  next out =>
    simp only [Bool.and_eq_true, decide_eq_true_eq, Bool.not_eq_true'] at out
    obtain ⟨⟨down, high⟩, unarmed⟩ := out
    refine ⟨fun x => absurd x.symm inside, fun ⟨x, _⟩ => ?_⟩
    rcases x down with x | x
    · omega
    · simp [unarmed] at x
  next inHalf =>
    refine ⟨fun x => ⟨fun down => ?_, x⟩, And.right⟩
    refine Classical.byContradiction fun x => ?_
    simp only [not_or, Nat.not_le, Bool.not_eq_true] at x
    exact inHalf (by simp [down, x])

theorem landingFlags_missed_iff (old new : Lies) : (landingFlags old new).1 = true ↔ old = .ahead ∧ new ≠ .ahead := by
  cases old <;> cases new <;> decide

theorem landingFlags_doubled_iff (old new : Lies) : (landingFlags old new).2 = true ↔ old = .behind ∧ new = .ahead := by
  cases old <;> cases new <;> decide

/-! ### Settings written over the mailbox -/

/-- A write of a setting that passes the checks. -/
theorem Bar.sdoRun_setting {b : Bar} {index sub : Nat} {v : List Byte} {e : Entry} {d : Done}
    (other : isArm (mailRequest .download index sub v) = false) (there : b.indexExists index = true)
    (entry : b.entry? index sub = some e) (writable : e.acc ≠ .ro) (taken : b.writeDenied .mailbox e index sub v = none)
    (plain : b.command (mailRequest .download index sub v) index sub (leNat v) v = none)
    (effect : b.setting .mailbox e index sub v = d) :
    b.sdoRun (mailRequest .download index sub v) = Bar.finish (mailRequest .download index sub v) d := by
  have run : b.sdoDo (mailRequest .download index sub v) = d := by
    simp only [mailRequest] at plain
    simp only [sdoDo, mailRequest, locate_of_entry there entry, if_neg writable, taken, writeEntry, plain, effect]
  simp only [sdoRun]
  rw [if_neg (by simp [mailRequest]), if_neg (by simp [other]), run]

section
variable {b : Bar} {r : SdoRequest} {index sub n : Nat} {v : List Byte}

/-- The rows of the timers hold no command, but for the two masks. -/
theorem Bar.command_timers (low : 0x2B00 ≤ index) (high : index ≤ 0x2B47) : b.command r index sub n v = none := by
  have engines : between 0x2A00 0x2A03 index = false := by simp [between]; omega
  have programs : between 0x2A04 0x2A07 index = false := by simp [between]; omega
  have channels : between 0x2A10 0x2A4F index = false := by simp [between]; omega
  unfold command
  split <;> first | omega | simp [engines, programs, channels]

theorem Bar.engineBusy_timers (low : 0x2B00 ≤ index) : b.engineBusy index sub v = false := by
  have engines : between 0x2A00 0x2A03 index = false := by simp [between]; omega
  have programs : between 0x2A04 0x2A07 index = false := by simp [between]; omega
  have channels : between 0x2A10 0x2A4F index = false := by simp [between]; omega
  simp [engineBusy, engines, programs, channels]

/-- A value of the timers' rows is stored as it is written. -/
theorem Bar.storeValue_timers {e : Entry} (acc : e.acc ≠ .staged) (number : e.ty.size.isSome = true) (low : 0x2B00 ≤ index)
    (high : index ≤ 0x2B47) : b.storeValue e index sub v = b.putRw index sub (.num (e.number v)) := by
  obtain ⟨w, size⟩ := Option.isSome_iff_exists.mp number
  have admission : admissionInput index sub = false := by
    simp only [admissionInput, between, Bool.or_eq_false_iff, Bool.and_eq_false_iff, decide_eq_false_iff_not]
    omega
  have plain : storedIndex index = index := if_neg (by omega)
  have sync : ¬((index = 0x2300 && sub = 1 && e.number v = 3) || (index = 0x2300 && sub = 2 && e.number v = 1)) = true := by
    simp only [Bool.or_eq_true, Bool.and_eq_true, decide_eq_true_eq]
    omega
  simp only [storeValue, size, if_neg acc, admission, plain, if_neg sync, if_neg (show ¬index = 0x2803 by omega)]
  rfl
end

/-! ### The values of a unit -/

theorem tmrIx_of_lt {n : Nat} (h : n < 16) : tmrIx n = ⟨n, h⟩ := Fin.ext (Nat.mod_eq_of_lt h)

/-- The entries of a unit's period and of its compares. -/
def periodRow : Entry := recs 0x2B00 0x2B0F 1 .u32 .rw 1 1 0xFFFFFFFF
def compareRow (sub : Nat) : Entry := recs 0x2B00 0x2B0F sub .u32 .rw 0xFFFFFFFF

theorem timerRows_fixed : ∀ e ∈ dictionary, e.lo ≤ 0x2B47 → 0x2B00 ≤ e.hi → e.span = .all := by decide +kernel

theorem Bar.entry?_timers (b : Bar) {index : Nat} (sub : Nat) (low : 0x2B00 ≤ index) (high : index ≤ 0x2B47) :
    b.entry? index sub = findEntry index sub :=
  b.entry?_eq_findEntry (fun e row l h _ _ => timerRows_fixed e row (by omega) (by omega)) (by omega)

theorem findEntry_unit : ∀ i : Fin 16, findEntry (0x2B00 + i.val) 1 = some periodRow ∧
    findEntry (0x2B00 + i.val) 2 = some (compareRow 2) ∧ findEntry (0x2B00 + i.val) 3 = some (compareRow 3) := by decide +kernel

theorem Bar.entry?_period (b : Bar) (i : Fin 16) : b.entry? (0x2B00 + i.val) 1 = some periodRow :=
  (b.entry?_timers 1 (by omega) (by omega)).trans (findEntry_unit i).1

theorem Bar.entry?_compare (b : Bar) (i : Fin 16) (cmpB : Bool) :
    b.entry? (0x2B00 + i.val) (if cmpB then 3 else 2) = some (compareRow (if cmpB then 3 else 2)) := by
  cases cmpB with
  | false => exact (b.entry?_timers 2 (by omega) (by omega)).trans (findEntry_unit i).2.1
  | true => exact (b.entry?_timers 3 (by omega) (by omega)).trans (findEntry_unit i).2.2

/-- The rows 0x2B00 to 0x2B0F have no range beyond their bounds. -/
theorem Bar.inRange_unit (b : Bar) {e : Entry} (i : Fin 16) (sub : Nat) {n : Int} (low : e.min ≤ n) (high : n ≤ e.max)
    (free : e.allowed = []) : b.inRange e (0x2B00 + i.val) sub n = true := by
  have ctl : between 0x2B10 0x2B1F (0x2B00 + i.val) = false := by simp [between]; omega
  have pairs : between 0x2B30 0x2B37 (0x2B00 + i.val) = false := by simp [between]; omega
  have others : 0x2B00 + i.val ≠ 0x2A50 ∧ 0x2B00 + i.val ≠ 0x2C02 ∧ 0x2B00 + i.val ≠ 0x2F00 := by omega
  simp [inRange, low, high, free, ctl, pairs, others]

theorem Bar.timerBusy_unit (b : Bar) (i : Fin 16) (sub : Nat) (v : List Byte) : b.timerBusy (0x2B00 + i.val) sub v = false := by
  have ctl : between 0x2B10 0x2B1F (0x2B00 + i.val) = false := by simp [between]; omega
  have pairs : between 0x2B30 0x2B37 (0x2B00 + i.val) = false := by simp [between]; omega
  simp [timerBusy, ctl, pairs]

theorem number_word {e : Entry} (size : e.ty = .u32) (v : Word32) : e.number (leBytes 4 v.toNat) = v.toNat := by
  have small := v.isLt
  have value := congrArg (Nat.cast (R := Int)) (leNat_leBytes (n := 4) (x := v.toNat) (by omega))
  rw [Entry.number, size]
  exact value

/-- A value of a unit that its row takes is written by the rules of R385. -/
theorem Bar.sdoRun_unit {b : Bar} {i : Fin 16} {sub : Nat} {e : Entry} (v : Word32) (there : b.indexExists (0x2B00 + i.val) = true)
    (entry : b.entry? (0x2B00 + i.val) sub = some e) (word : e.ty = .u32) (acc : e.acc = .rw) (low : e.min ≤ v.toNat)
    (high : (v.toNat : Int) ≤ e.max) (free : e.allowed = []) :
    b.sdoRun (mailRequest .download (0x2B00 + i.val) sub (leBytes 4 v.toNat)) =
      (b.tmrWrite i fun b => b.putRw (0x2B00 + i.val) sub (.num v.toNat)).responds (0x2B00 + i.val) sub 0 [] := by
  have number := number_word word v
  have range : b.rangeDenied e (0x2B00 + i.val) sub (leBytes 4 v.toNat) = none := by
    simp [rangeDenied, number, b.inRange_unit i sub low high free]
  have length : lengthDenied e (0x2B00 + i.val) (leBytes 4 v.toNat).length = none := by
    rw [lengthDenied, word]
    rfl
  have taken := Bar.writeDenied_free (Bar.stateDenied_free (by rw [acc]; decide) (by omega) (Bar.engineBusy_timers (by omega))
    (b.timerBusy_unit i sub _)) length range
  have unit : tmrIx (0x2B00 + i.val - 0x2B00) = i := Fin.ext (by simp only [tmrIx]; omega)
  have stored (b : Bar) : b.storeValue e (0x2B00 + i.val) sub (leBytes 4 v.toNat) = b.putRw (0x2B00 + i.val) sub (.num v.toNat) := by
    rw [Bar.storeValue_timers (by rw [acc]; decide) (by rw [word]; rfl) (by omega) (by omega), number]
  have effect : b.setting .mailbox e (0x2B00 + i.val) sub (leBytes 4 v.toNat) =
      (b.tmrWrite i fun b => b.putRw (0x2B00 + i.val) sub (.num v.toNat)).accept := by
    unfold setting
    dsimp only
    rw [if_neg (by simp; omega), if_neg (by omega), if_neg (by simp [between]; omega), if_neg (by omega), if_neg (by omega),
      if_pos (between_add (by omega)), unit]
    simp only [stored]
  rw [Bar.sdoRun_setting (isArm_other (by omega)) there entry (by rw [acc]; decide) taken (Bar.command_timers (by omega) (by omega)) effect,
    Bar.finish_accept]

/-- A stopped unit that stands alone takes a value at once. -/
theorem Bar.tmrWrite_stopped {b : Bar} {unit : Fin 16} (store : Bar → Bar) (stopped : (b.io.timers[b.tmrHead unit]).running = false) :
    b.tmrWrite unit store = (store b).modTimer unit fun u => { u with landing := 2 ^ 38 } := by
  unfold tmrWrite
  dsimp only
  exact if_pos (by simp only [stopped]; decide)

/-- A value out of its row's range. -/
theorem Bar.sdoRun_outOfRange {b : Bar} {index sub : Nat} {v : List Byte} {e : Entry} (there : b.indexExists index = true)
    (entry : b.entry? index sub = some e) (acc : e.acc = .rw) (low : 0x2B00 ≤ index) (high : index ≤ 0x2B47)
    (timer : b.timerBusy index sub v = false) (length : lengthDenied e index v.length = none) (number : e.ty.size.isSome = true)
    (out : b.inRange e index sub (e.number v) = false) :
    b.sdoRun (mailRequest .download index sub v) = b.aborts index sub 0x06090030 0xB001 := by
  have code : rangeCode index = 0xB001 := by
    have : index / 256 = 0x2B := by omega
    simp [rangeCode, this]
  have range : b.rangeDenied e index sub v = some (0x06090030, 0xB001) := by
    have plain : ¬index = 0x1010 ∧ ¬index = 0x1011 := by omega
    simp [rangeDenied, number, out, code, plain]
  have denied : b.writeDenied .mailbox e index sub v = some (0x06090030, 0xB001) := by
    simp [writeDenied, Bar.benchDenied_mailbox, length, range,
      Bar.stateDenied_free (b := b) (e := e) (index := index) (sub := sub) (v := v) (by simp [acc]) (by omega)
        (Bar.engineBusy_timers low) timer]
  exact Bar.sdoRun_denied (isArm_other (by omega)) there entry (by simp [acc]) denied (b.keySpent_other _ _ (by omega)) (by decide)

/-! ### The values of a pair (R389) -/

/-- The entries of a pair's period, compares and preset. -/
def pairRow (sub : Fin 4) : Entry :=
  match sub with
  | 0 => recs 0x2B30 0x2B37 2 .u64 .rw 1 1
  | 1 => recs 0x2B30 0x2B37 3 .u64 .rw 0xFFFFFFFFFFFFFFFF
  | 2 => recs 0x2B30 0x2B37 4 .u64 .rw 0xFFFFFFFFFFFFFFFF
  | 3 => recs 0x2B30 0x2B37 5 .u64 .rw

theorem findEntry_pair : ∀ (j : Fin 8) (sub : Fin 4), findEntry (0x2B30 + j.val) (sub.val + 2) = some (pairRow sub) := by decide +kernel

theorem Bar.entry?_pair (b : Bar) (j : Fin 8) (sub : Fin 4) : b.entry? (0x2B30 + j.val) (sub.val + 2) = some (pairRow sub) :=
  (b.entry?_timers _ (by omega) (by omega)).trans (findEntry_pair j sub)

theorem pairRow_fields (sub : Fin 4) :
    (pairRow sub).ty = .u64 ∧ (pairRow sub).acc = .rw ∧ (pairRow sub).allowed = [] ∧ (pairRow sub).min = (if sub.val = 0 then 1 else 0) ∧
    (pairRow sub).max = 0xFFFFFFFFFFFFFFFF := by
  match sub with
  | 0 | 1 | 2 | 3 => exact ⟨rfl, rfl, rfl, rfl, rfl⟩

theorem pairRow_number (sub : Fin 4) (v : Word64) : (pairRow sub).number (leBytes 8 v.toNat) = v.toNat := by
  have small := v.isLt
  have value := congrArg (Nat.cast (R := Int)) (leNat_leBytes (n := 8) (x := v.toNat) (by omega))
  rw [Entry.number, (pairRow_fields sub).1]
  exact value

/-- The period of a pair, both halves. -/
def Bar.pairPeriod (b : Bar) (j : Fin 8) : Nat := b.rwN (0x2B00 + 2 * j.val) 1 + 2 ^ 32 * b.pairHigh (2 * j.val) 0x2B00 1 0

theorem Bar.inRange_pair (b : Bar) (j : Fin 8) (sub : Fin 4) (v : Word64) :
    b.inRange (pairRow sub) (0x2B30 + j.val) (sub.val + 2) v.toNat = true ↔
      (sub.val = 0 → v ≠ 0) ∧ (sub.val = 3 → v.toNat ≤ b.pairPeriod j) := by
  obtain ⟨-, -, free, low, high⟩ := pairRow_fields sub
  have small := v.isLt
  have ctl : between 0x2B10 0x2B1F (0x2B30 + j.val) = false := by simp [between]; omega
  have pairs := between_add (show 0x2B30 + j.val ≤ 0x2B37 by omega)
  have others : 0x2B30 + j.val ≠ 0x2A50 ∧ 0x2B30 + j.val ≠ 0x2C02 ∧ 0x2B30 + j.val ≠ 0x2F00 := by omega
  have place : 0x2B30 + j.val - 0x2B30 = j.val := by omega
  have most : (v.toNat : Int) ≤ 0xFFFFFFFFFFFFFFFF := by omega
  have zero : v = 0 ↔ v.toNat = 0 := ⟨fun h => by rw [h]; rfl, fun h => BitVec.eq_of_toNat_eq h⟩
  simp only [inRange, free, low, high, ctl, pairs, place, pairPeriod, others, Bool.and_eq_true, decide_eq_true_eq, Int.toNat_natCast]
  by_cases first : sub.val = 0
  · have positive : (1 : Int) ≤ v.toNat ↔ ¬v = 0 := by
      rw [zero]
      omega
    simp [first, most, positive]
  · by_cases last : sub.val = 3
    · simp [last, most]
    · simp [first, last, most]

/-- A write through a pair's object that passes the checks. -/
theorem Bar.sdoRun_pair {b : Bar} {j : Fin 8} {sub : Fin 4} (v : Word64) (there : b.indexExists (0x2B30 + j.val) = true)
    (idle : sub.val = 3 → b.timerBusy (0x2B30 + j.val) 5 (leBytes 8 v.toNat) = false) (nonzero : sub.val = 0 → v ≠ 0)
    (fits : sub.val = 3 → v.toNat ≤ b.pairPeriod j) :
    b.sdoRun (mailRequest .download (0x2B30 + j.val) (sub.val + 2) (leBytes 8 v.toNat)) =
      (b.writePair j.val (sub.val + 2) v.toNat).responds (0x2B30 + j.val) (sub.val + 2) 0 [] := by
  obtain ⟨word, acc, -⟩ := pairRow_fields sub
  have number := pairRow_number sub v
  have range : b.rangeDenied (pairRow sub) (0x2B30 + j.val) (sub.val + 2) (leBytes 8 v.toNat) = none := by
    simp [rangeDenied, number, (b.inRange_pair j sub v).mpr ⟨nonzero, fits⟩]
  have length : lengthDenied (pairRow sub) (0x2B30 + j.val) (leBytes 8 v.toNat).length = none := by
    rw [lengthDenied, word]
    rfl
  have timer : b.timerBusy (0x2B30 + j.val) (sub.val + 2) (leBytes 8 v.toNat) = false := by
    by_cases last : sub.val = 3
    · rw [last]
      exact idle last
    · have ctl : between 0x2B10 0x2B1F (0x2B30 + j.val) = false := by simp [between]; omega
      simp [timerBusy, ctl, last]
  have taken := Bar.writeDenied_free (Bar.stateDenied_free (by rw [acc]; decide) (by omega) (Bar.engineBusy_timers (by omega)) timer)
    length range
  have place : 0x2B30 + j.val - 0x2B30 = j.val := by omega
  have effect : b.setting .mailbox (pairRow sub) (0x2B30 + j.val) (sub.val + 2) (leBytes 8 v.toNat) =
      (b.writePair j.val (sub.val + 2) v.toNat).accept := by
    unfold setting
    dsimp only
    have ctl : between 0x2B10 0x2B1F (0x2B30 + j.val) = false := by simp [between]; omega
    have group : between 0x2910 0x2913 (0x2B30 + j.val) = false := by simp [between]; omega
    have unit : between 0x2B00 0x2B0F (0x2B30 + j.val) = false := by simp [between]; omega
    rw [if_neg (by simp; omega), if_neg (by omega), if_neg (by simp [group]), if_neg (by omega), if_neg (by omega),
      if_neg (by simp [unit]), if_neg (by simp [ctl]), if_pos (between_add (by omega)), place, number, Int.toNat_natCast]
  rw [Bar.sdoRun_setting (isArm_other (by omega)) there (b.entry?_pair j sub) (by rw [acc]; decide) taken
    (Bar.command_timers (by omega) (by omega)) effect, Bar.finish_accept]

/-- The preset of a pair whose two units stand still is not refused for a running timer. -/
theorem Bar.timerBusy_preset {b : Bar} {j : Fin 8} (v : List Byte)
    (even : (b.io.timers[(⟨2 * j.val, by omega⟩ : Fin 16)]).running = false)
    (odd : (b.io.timers[(⟨2 * j.val + 1, by omega⟩ : Fin 16)]).running = false) :
    b.timerBusy (0x2B30 + j.val) 5 v = false := by
  have ctl : between 0x2B10 0x2B1F (0x2B30 + j.val) = false := by simp [between]; omega
  have place : 0x2B30 + j.val - 0x2B30 = j.val := by omega
  have evenHead : b.tmrHead ⟨2 * j.val, by omega⟩ = ⟨2 * j.val, by omega⟩ := by
    unfold tmrHead
    split
    · exact Fin.ext (by simp only; omega)
    · rfl
  have oddHead : b.tmrHead ⟨2 * j.val + 1, by omega⟩ = ⟨2 * j.val, by omega⟩ ∨
      b.tmrHead ⟨2 * j.val + 1, by omega⟩ = ⟨2 * j.val + 1, by omega⟩ := by
    unfold tmrHead
    split
    · exact .inl (Fin.ext (by simp only; omega))
    · exact .inr rfl
  have evenRuns : b.tmrRuns ⟨2 * j.val, by omega⟩ = false := by simp only [tmrRuns, evenHead, even]; rfl
  have oddRuns : b.tmrRuns ⟨2 * j.val + 1, by omega⟩ = false := by
    rcases oddHead with h | h <;> simp only [tmrRuns, h, even, odd] <;> rfl
  simp [timerBusy, ctl, place, tmrIx_of_lt (show 2 * j.val < 16 by omega), tmrIx_of_lt (show 2 * j.val + 1 < 16 by omega), evenRuns,
    oddRuns]

/-! ### Position presets (R391) -/

/-- The entry of a position counter's preset. -/
def positionRow : Entry := arr 0x2B40 5 6 .i64 .rwPreop 0 (-0x8000000000000000) 0x7FFFFFFFFFFFFFFF

theorem Bar.entry?_position (b : Bar) (p : Fin 2) : b.entry? 0x2B40 (5 + p.val) = some positionRow := by
  match p with
  | 0 | 1 => exact (b.entry?_timers _ (by decide) (by decide)).trans (by decide +kernel)

theorem positionRow_number (v : Word64) : positionRow.number (leBytes 8 v.toNat) = v.toInt := by
  have small := v.isLt
  have value : leNat (leBytes 8 v.toNat) = v.toNat := leNat_leBytes (by omega)
  simp only [Entry.number, positionRow, arr, Ty.size, Ty.isSigned, if_true]
  rw [value, signed, BitVec.toInt_eq_toNat_cond]
  have whole : v.toNat % 2 ^ 64 = v.toNat := Nat.mod_eq_of_lt small
  simp only [whole]
  split <;> split <;> omega

theorem Bar.sdoRun_position {b : Bar} {p : Fin 2} (v : Word64) (there : b.indexExists 0x2B40 = true) (preop : b.ecat.al = .preop) :
    b.sdoRun (mailRequest .download 0x2B40 (5 + p.val) (leBytes 8 v.toNat)) =
      ((b.putRw 0x2B40 (5 + p.val) (.num v.toInt)).loadPos p v.toInt).responds 0x2B40 (5 + p.val) 0 [] := by
  have number := positionRow_number v
  have low := v.le_toInt
  have high := v.toInt_lt
  have bounds : -0x8000000000000000 ≤ v.toInt ∧ v.toInt ≤ 0x7FFFFFFFFFFFFFFF := by omega
  have ranged : b.inRange positionRow 0x2B40 (5 + p.val) v.toInt = true := by
    simp [inRange, positionRow, arr, between, bounds]
  have range : b.rangeDenied positionRow 0x2B40 (5 + p.val) (leBytes 8 v.toNat) = none := by simp [rangeDenied, number, ranged]
  have state : b.stateDenied .mailbox positionRow 0x2B40 (5 + p.val) (leBytes 8 v.toNat) = none := by
    simp [stateDenied, preop, engineBusy, timerBusy, between]
  have taken := Bar.writeDenied_free state rfl range
  have place : (⟨(5 + p.val - 5) % 2, Nat.mod_lt _ (by omega)⟩ : Fin 2) = p := Fin.ext (by simp only; omega)
  have effect : b.setting .mailbox positionRow 0x2B40 (5 + p.val) (leBytes 8 v.toNat) =
      ((b.putRw 0x2B40 (5 + p.val) (.num v.toInt)).loadPos p v.toInt).accept := by
    unfold setting
    dsimp only
    rw [if_neg (by simp), if_neg (by decide), if_neg (by simp [between]), if_neg (by decide), if_neg (by decide),
      if_neg (by simp [between]), if_neg (by simp [between]), if_neg (by simp [between]), if_pos rfl, place, number,
      Bar.storeValue_timers (by decide) rfl (by decide) (by decide), number]
  rw [Bar.sdoRun_setting rfl there (b.entry?_position p) (by decide) taken (Bar.command_timers (by decide) (by decide)) effect,
    Bar.finish_accept]

theorem Bar.sdoRun_position_denied {b : Bar} {p : Fin 2} (v : List Byte) (there : b.indexExists 0x2B40 = true)
    (al : b.ecat.al ≠ .preop) :
    b.sdoRun (mailRequest .download 0x2B40 (5 + p.val) v) = b.aborts 0x2B40 (5 + p.val) 0x08000022 0xB002 := by
  have state : b.stateDenied .mailbox positionRow 0x2B40 (5 + p.val) v = some (0x08000022, 0xB002) := by
    simp [stateDenied, positionRow, arr, al, preopCode]
  exact Bar.sdoRun_denied rfl there (b.entry?_position p) (by decide) (Bar.writeDenied_state state) rfl (by decide)

/-- A pair's value other than its preset goes to its even unit, by the rules of R385. -/
theorem Bar.writePair_value {b : Bar} {j : Fin 8} {sub : Fin 4} (n : Nat) (value : sub.val ≠ 3) :
    b.writePair j.val (sub.val + 2) n = b.tmrWrite ⟨2 * j.val, by omega⟩ fun b =>
      (b.putRw (0x2B00 + 2 * j.val) (sub.val + 1) (.num (n % 2 ^ 32 : Nat))).putRw (0x2B00 + 2 * j.val + 1) (sub.val + 1)
        (.num (n / 2 ^ 32 : Nat)) := by
  unfold writePair
  dsimp only
  rw [if_neg (by omega), tmrIx_of_lt (show 2 * j.val < 16 by omega)]
  rfl

theorem Bar.writePair_preset (b : Bar) (j : Fin 8) (n : Nat) :
    b.writePair j.val 5 n =
      (b.putRw (0x2B10 + 2 * j.val) 3 (.num (n % 2 ^ 32 : Nat))).putRw (0x2B10 + 2 * j.val + 1) 3 (.num (n / 2 ^ 32 : Nat)) := by
  unfold writePair
  dsimp only
  rw [if_pos rfl]

/-- Settles O32. -/
theorem timerValuesOverSdo : Obligations.TimerValuesOverSdo := by
  refine ⟨⟨fun s t i cmpB v serves => ?_, fun s t j sub v serves => ?_, fun s t j v serves => ?_, fun s t p v serves => ?_⟩,
    fun u arm h per old new => ?_⟩
  · intro b alone stopped landed
    have there : b.indexExists (0x2B00 + i.val) = true := Bar.indexExists_of_serves t serves
    have small := v.isLt
    have still : (b.io.timers[b.tmrHead i]).running = false :=
      (congrArg (fun x : Fin 16 => (b.io.timers[x]).running) alone).trans stopped
    have compare : Answers s (.compareWrite t i cmpB v)
        (b.sdoRun (mailRequest .download (0x2B00 + i.val) (if cmpB then 3 else 2) (leBytes 4 v.toNat))) := .of_mailSdo serves rfl
    have period : Answers s (.periodWrite t i v) (b.sdoRun (mailRequest .download (0x2B00 + i.val) 1 (leBytes 4 v.toNat))) :=
      .of_mailSdo serves rfl
    refine ⟨?_, fun nonzero => ?_, fun zero => ?_⟩
    · rw [Bar.sdoRun_unit v there (b.entry?_compare i cmpB) rfl rfl (by simp [compareRow, recs]) (by simp [compareRow, recs]; omega) rfl,
        Bar.tmrWrite_stopped _ still] at compare
      exact compare
    · have positive : v.toNat ≠ 0 := fun x => nonzero (BitVec.eq_of_toNat_eq x)
      rw [Bar.sdoRun_unit v there (b.entry?_period i) rfl rfl (by simp [periodRow, recs]; omega) (by simp [periodRow, recs]; omega) rfl,
        Bar.tmrWrite_stopped _ still] at period
      exact period
    · subst zero
      have out : b.inRange periodRow (0x2B00 + i.val) 1 (periodRow.number (leBytes 4 (0 : Word32).toNat)) = false := by
        rw [number_word rfl]
        simp [Bar.inRange, periodRow, recs]
      rw [Bar.sdoRun_outOfRange there (b.entry?_period i) rfl (by omega) (by omega) (b.timerBusy_unit i 1 _) rfl rfl out] at period
      exact period
  · intro b even alone stopped value nonzero
    have there : b.indexExists (0x2B30 + j.val) = true := Bar.indexExists_of_serves t serves
    have write : Answers s (.pairWrite t j sub v)
        (b.sdoRun (mailRequest .download (0x2B30 + j.val) (sub.val + 2) (leBytes 8 v.toNat))) := .of_mailSdo serves rfl
    have still : (b.io.timers[b.tmrHead even]).running = false :=
      (congrArg (fun x : Fin 16 => (b.io.timers[x]).running) alone).trans stopped
    rw [Bar.sdoRun_pair v there (fun x => absurd x value) nonzero (fun x => absurd x value), Bar.writePair_value _ value,
      Bar.tmrWrite_stopped _ still] at write
    exact write
  · intro b even odd period evenStill oddStill
    have there : b.indexExists (0x2B30 + j.val) = true := Bar.indexExists_of_serves t serves
    have write : Answers s (.pairWrite t j 3 v) (b.sdoRun (mailRequest .download (0x2B30 + j.val) 5 (leBytes 8 v.toNat))) :=
      .of_mailSdo serves rfl
    have busy := Bar.timerBusy_preset (leBytes 8 v.toNat) evenStill oddStill
    refine ⟨fun fits => ?_, fun exceeds => ?_⟩
    · have run := Bar.sdoRun_pair (sub := 3) v there (fun _ => busy) (fun x => absurd x (by decide)) (fun _ => fits)
      rw [show (3 : Fin 4).val + 2 = 5 from rfl, Bar.writePair_preset] at run
      rw [run] at write
      exact write
    · have out : b.inRange (pairRow 3) (0x2B30 + j.val) 5 ((pairRow 3).number (leBytes 8 v.toNat)) = false := by
        rw [pairRow_number, ← Bool.not_eq_true]
        exact fun x => Nat.not_le.mpr exceeds (((b.inRange_pair j 3 v).mp x).2 rfl)
      rw [Bar.sdoRun_outOfRange (sub := 5) there (b.entry?_pair j 3) rfl (by omega) (by omega) busy rfl rfl out] at write
      exact write
  · intro b
    have there : b.indexExists 0x2B40 = true := Bar.indexExists_of_serves t serves
    have write : Answers s (.positionPreset t p v) (b.sdoRun (mailRequest .download 0x2B40 (5 + p.val) (leBytes 8 v.toNat))) :=
      .of_mailSdo serves rfl
    refine ⟨fun preop => ?_, fun al => ?_⟩
    · rw [Bar.sdoRun_position v there preop] at write
      exact write
    · rw [Bar.sdoRun_position_denied _ there al] at write
      exact write
  · intro x ahead passed matched f
    have oldAhead : u.oldLies arm h per old = .ahead ↔ matched ∧ ahead old := by
      rw [u.oldLies_iff arm h per old (by decide), liesAt_ahead_iff]
    have oldPassed : u.oldLies arm h per old = .behind ↔ matched ∧ passed old := by
      rw [u.oldLies_iff arm h per old (by decide), liesAt_behind_iff]
    have newAhead : liesAt u.down x h per new = .ahead ↔ ahead new := liesAt_ahead_iff ..
    refine ⟨?_, ?_⟩
    · rw [landingFlags_missed_iff, oldAhead, ne_eq, newAhead, and_assoc]
    · rw [landingFlags_doubled_iff, oldPassed, newAhead, and_assoc]

end Sys2Proof.Machine
end

section
/-! FAULT_N (R421, R424, R437): the entry of a decided reset can leave the log's ring before the command ends. -/

namespace Sys2Proof.Machine

/-! ### What follows a command logs no code of a sealing (R284, R352) -/

/-- The codes that forming the items at the start of a sealing logs. -/
def sealCodes : List Nat := [0x8028, 0x8030, 0x8031]

/-- From b to c the mailbox gains messages only, and the log either stands, has a newest entry that is none of a sealing's, or an
FoE transfer has ended with its ERROR. -/
def Bar.Aside (b c : Bar) : Prop :=
  b.sm1 <+: c.sm1 ∧ (c.log.entries = b.log.entries ∨ (∃ e ∈ c.log.entries.head?, e.code ∉ sealCodes) ∨
    ∃ error text, MailItem.foeError error text ∈ c.sm1)

section
variable {b c d : Bar}

theorem Bar.Aside.of_eq (entries : c.log.entries = b.log.entries) (mail : c.sm1 = b.sm1) : b.Aside c :=
  ⟨mail ▸ List.prefix_rfl, .inl entries⟩

theorem Bar.Aside.refl (b : Bar) : b.Aside b := .of_eq rfl rfl

theorem Bar.Aside.trans (first : b.Aside c) (second : c.Aside d) : b.Aside d := by
  obtain ⟨more, case1⟩ := first
  obtain ⟨then_, case2⟩ := second
  refine ⟨more.trans then_, ?_⟩
  rcases case2 with stands | newest
  · rcases case1 with same | newest | ⟨error, text, ends⟩
    · exact .inl (stands.trans same)
    · exact .inr (.inl (stands ▸ newest))
    · exact .inr (.inr ⟨error, text, then_.subset ends⟩)
  · exact .inr newest

theorem Bar.Aside.ite {p : Prop} [Decidable p] (yes : b.Aside c) (no : b.Aside d) : b.Aside (if p then c else d) := by
  split
  · exact yes
  · exact no

theorem Bar.Aside.foldl {α : Type} (l : List α) (f : Bar → α → Bar) (step : ∀ (c : Bar) (a : α), c.Aside (f c a)) :
    b.Aside (l.foldl f b) :=
  List.foldlRecOn l f (.refl b) fun c kept a _ => kept.trans (step c a)

end

section
variable (b : Bar)

theorem Bar.logEvent_mail (code arg : Nat) : b.sm1 <+: (b.logEvent code arg).sm1 := by
  unfold logEvent logWith
  dsimp only
  split
  · exact List.prefix_append ..
  · exact List.prefix_rfl

theorem Bar.logEvent_aside {code : Nat} (arg : Nat) (other : code ∉ sealCodes) : b.Aside (b.logEvent code arg) :=
  ⟨b.logEvent_mail code arg, .inr (.inl ⟨_, rfl, other⟩)⟩

theorem Bar.logLimited_aside {code : Nat} (unit arg period : Nat) (other : code ∉ sealCodes) :
    b.Aside (b.logLimited code unit arg period) := by
  unfold logLimited
  exact .ite (.refl b) ((b.logEvent_aside arg other).trans (.of_eq rfl rfl))

theorem Bar.lateDatagrams_aside (n : Nat) : b.Aside (b.lateDatagrams n) := by
  refine .trans ?_ (logLimited_aside _ 0 0 _ (by decide))
  exact .of_eq rfl rfl

theorem Bar.lateEvents_aside (n : Nat) (windows : List (Nat × Nat)) : b.Aside (b.lateEvents n windows) := by
  unfold lateEvents
  refine .trans ?_ (.foldl _ _ fun c x => .ite (.refl c) (.trans ?_ (logEvent_aside _ _ (by decide))))
  · exact .of_eq rfl rfl
  · exact .of_eq rfl rfl

theorem Bar.frameLeaves_aside (p : Fin 4) (f : Frame) (rest : List Frame) : b.Aside (b.frameLeaves p f rest) := by
  unfold frameLeaves
  extract_lets late
  split
  next g events _ =>
    extract_lets sent copied marked
    have copies : sent.Aside copied := .ite (.of_eq rfl rfl) (.refl _)
    have marks : copied.Aside marked :=
      .ite (.trans (c := copied.renewHeld f g.bytes) (.of_eq rfl rfl) <|
        .trans (lateEvents_aside ..) (lateDatagrams_aside ..)) (.refl _)
    refine .trans (c := sent) (.of_eq rfl rfl) <| copies.trans <| marks.trans ?_
    split
    · exact .of_eq rfl rfl
    · exact .refl _

theorem Bar.portFrames_aside (p : Fin 4) (fuel : Nat) : b.Aside (b.portFrames p fuel) := by
  induction fuel generalizing b with
  | zero => exact .refl b
  | succ fuel ih =>
    unfold portFrames
    extract_lets q asks
    refine .ite (.refl b) ?_
    have draws : b.Aside (if asks then b.draw 8 else (7, b)).2 := by
      split
      · exact .of_eq rfl rfl
      · exact .refl b
    split
    next drawn =>
      rw [drawn] at draws
      split
      · exact draws
      · exact draws.trans <| (frameLeaves_aside ..).trans (ih _)

theorem Bar.portRun_aside (p : Fin 4) : b.Aside (b.portRun p) := by
  unfold portRun
  exact .ite ((b.portFrames_aside ..).trans (.of_eq rfl rfl)) (.refl b)

theorem Bar.portsRun_aside : b.Aside b.portsRun := .foldl _ _ fun c p => c.portRun_aside p

theorem Bar.enqueue_aside (p : Fin 4) (f : Frame) : b.Aside (b.enqueue p f) := by
  unfold enqueue
  extract_lets vlan tagged
  refine .ite ((b.portRun_aside p).trans ?_) (.of_eq rfl rfl)
  exact .trans (c := (b.portRun p).modPort p _) (.of_eq rfl rfl) (portRun_aside ..)

theorem Bar.sendPiece_aside (k : Nat) (u : KspUnit) (stamp frag : Nat) (last : Bool) (payload : List Byte) :
    b.Aside (b.sendPiece k u stamp frag last payload) := by
  unfold sendPiece
  split
  · exact .refl b
  · extract_lets st gap flags d bytes replica port frame keep own held counted queued
    have queues : b.Aside queued := .trans (c := counted) (.of_eq rfl rfl) (enqueue_aside _ port frame)
    cases replica with
    | none => exact queues
    | some p => exact queues.trans (enqueue_aside ..)

theorem Bar.sendPieces_aside (k : Nat) (u : KspUnit) (stamp frag : Nat) (ps : List (List Byte)) :
    b.Aside (b.sendPieces k u stamp frag ps) := by
  induction ps generalizing b frag with
  | nil => exact .refl b
  | cons p rest ih =>
    cases rest with
    | nil => exact b.sendPiece_aside ..
    | cons p' rest => exact (b.sendPiece_aside ..).trans (ih _ _)

theorem Bar.dropUnit_aside (k stream : Nat) : b.Aside (b.dropUnit k stream) := by
  unfold dropUnit
  extract_lets marked dlv counted
  have counts : marked.Aside counted := by
    unfold counted
    split
    · exact .of_eq rfl rfl
    · exact .refl _
  exact .trans (c := marked) (.of_eq rfl rfl) <| counts.trans (logLimited_aside _ 0 0 _ (by decide))

theorem Bar.sendUnit_aside (k : Nat) (u : KspUnit) : b.Aside (b.sendUnit k u) := by
  unfold sendUnit
  split
  · exact .ite (.of_eq rfl rfl) (.refl b)
  · refine .ite ?_ (.refl b)
    extract_lets ps room
    exact .ite (b.dropUnit_aside ..) <| .ite (.of_eq rfl rfl) <|
      .trans (.ite (b.lateDatagrams_aside _) (.refl b)) (sendPieces_aside ..)

/-! #### Containers that end (R173) -/

theorem Bar.foeError_aside (error detail : Nat) (logIt : Bool) : b.Aside (b.foeError error detail logIt) := by
  have ends (c : Bar) (mail : b.sm1 ++ [.foeError error (foeText detail)] <+: c.sm1) : b.Aside c :=
    ⟨(List.prefix_append ..).trans mail, .inr (.inr ⟨_, _, mail.subset (List.mem_append_right _ (List.mem_singleton_self _))⟩)⟩
  unfold foeError
  dsimp only
  split
  · exact ends _ (logEvent_mail { b with sm1 := b.sm1 ++ [.foeError error (foeText detail)], foeDetail := detail } ..)
  · exact ends _ List.prefix_rfl

theorem Bar.failRun_aside (v : Bool) (k code : Nat) : b.Aside (b.failRun v k code) := by
  unfold failRun
  split
  · exact .refl b
  · extract_lets marked
    split
    · exact .of_eq rfl rfl
    · extract_lets noted
      have notes : b.Aside noted := by
        unfold noted
        split
        · exact .of_eq rfl rfl
        · exact .of_eq rfl rfl
      exact notes.trans (logEvent_aside _ _ (by decide))

theorem Bar.containerInvalid_aside (v : Bool) (k : Nat) : b.Aside (b.containerInvalid v k) := by
  unfold containerInvalid
  split
  · exact .refl b
  next i _ =>
    exact .trans (c := b.modIngest v k fun i => i.fault 0x5040) (.of_eq rfl rfl) (logEvent_aside _ _ (by decide))

theorem Bar.ingestAnswer_aside (i : Ingest) : b.Aside (b.ingestAnswer i) := by
  unfold ingestAnswer
  extract_lets status last freed
  refine .ite (.ite ?_ ?_) ?_
  · exact ⟨List.prefix_append .., .inl rfl⟩
  · exact .trans (c := freed) (.of_eq rfl rfl) (foeError_aside ..)
  · split
    · exact .refl b
    next p _ =>
      exact .trans (c := b.modSession p fun s => { s with upload := none }) (.of_eq rfl rfl) (sendUnit_aside ..)

theorem Bar.cutIngest_aside (v : Bool) (k code : Nat) : b.Aside (b.cutIngest v k code) := by
  unfold cutIngest
  split
  · exact .refl b
  · extract_lets freed failed cut
    have fails : freed.Aside failed := .ite (failRun_aside ..) (.refl _)
    have cuts : failed.Aside cut := .ite (.refl _) (containerInvalid_aside ..)
    have all : b.Aside cut := .trans (c := freed) (.of_eq rfl rfl) (fails.trans cuts)
    split
    · exact all.trans <| .trans (c := cut.modCap _) (.of_eq rfl rfl) (ingestAnswer_aside ..)
    · exact all

theorem Bar.ingestGuard_aside (sealing : b.sto.state = .sealing) : b.Aside b.ingestGuard := by
  unfold ingestGuard
  simp only [sealing, reduceCtorEq, if_false]
  exact .ite (.refl b) (.foldl _ _ fun c i => c.cutIngest_aside ..)

theorem Bar.foeBusy_aside : b.Aside b.foeBusy := by
  unfold foeBusy
  split
  · split
    · exact .ite ⟨List.prefix_append .., .inl rfl⟩ (.refl b)
    · exact .refl b
  · exact .refl b

theorem Bar.snapLine_aside : b.Aside b.snapLine := .ite (.of_eq rfl rfl) (.refl b)

theorem Bar.noteFault_aside : b.Aside b.noteFault := .ite (.refl b) (.of_eq rfl rfl)

/-- While storage seals, it only notes that its staging is not in operation (R285). -/
theorem Bar.storageDue_sealing (sealing : b.sto.state = .sealing) :
    ∃ u, b.storageDue = b.modSto fun s => { s with uncovered := u } := by
  have judged : ∃ u, b.judgeCover = b.modSto fun s => { s with uncovered := u } := by
    unfold judgeCover
    simp only [sealing, reduceCtorEq, decide_false, Bool.false_and, Bool.false_eq_true, if_false]
    split
    · exact ⟨b.sto.uncovered, rfl⟩
    · exact ⟨false, rfl⟩
  obtain ⟨u, judged⟩ := judged
  refine ⟨u, ?_⟩
  unfold storageDue
  rw [judged]
  exact if_pos (by simp [sealing])

theorem Bar.after_aside (sealing : b.sto.state = .sealing) : b.Aside b.after := by
  obtain ⟨u, due⟩ := b.storageDue_sealing sealing
  have noted : b.Aside b.storageDue := due ▸ .of_eq rfl rfl
  have stays : b.storageDue.sto.state = .sealing := due ▸ sealing
  exact noted.trans <| (ingestGuard_aside _ stays).trans <| (foeBusy_aside _).trans <| (portsRun_aside _).trans <|
    (snapLine_aside _).trans (noteFault_aside _)

end

/-! ### Items whose pins exceed the pin share push the log's ring on (R273, R290) -/

/-- From b to c only storage and the log change, and the mailbox gains Emergencies alone. -/
def Bar.Files (b c : Bar) : Prop :=
  c = { b with sto := c.sto, log := c.log, sm1 := c.sm1 } ∧ ∀ m ∈ c.sm1, m ∈ b.sm1 ∨ ∃ bytes, m = .emergency bytes

section
variable {b c d : Bar}

theorem Bar.Files.of_mail (same : c = { b with sto := c.sto, log := c.log, sm1 := b.sm1 }) : b.Files c := by
  have mail : c.sm1 = b.sm1 := Eq.trans (congrArg Bar.sm1 same) rfl
  refine ⟨?_, fun m member => .inl (mail ▸ member)⟩
  rw [mail]
  exact same

theorem Bar.Files.refl (b : Bar) : b.Files b := .of_mail rfl

theorem Bar.Files.trans (first : b.Files c) (second : c.Files d) : b.Files d := by
  obtain ⟨same, mail⟩ := first
  obtain ⟨same', mail'⟩ := second
  refine ⟨?_, fun m member => ?_⟩
  · rw [same] at same'
    exact same'
  · rcases mail' m member with old | new
    · exact mail m old
    · exact .inr new

theorem Bar.logEvent_files (b : Bar) (code arg : Nat) : b.Files (b.logEvent code arg) := by
  refine ⟨rfl, fun m member => ?_⟩
  unfold logEvent logWith at member
  dsimp only at member
  split at member
  · rcases List.mem_append.mp member with old | new
    · exact .inl old
    · exact .inr ⟨_, List.mem_singleton.mp new⟩
  · exact .inl member

theorem Bar.modSto_files (b : Bar) (f : Storage → Storage) : b.Files (b.modSto f) := .of_mail rfl

end

/-- The ring holds its size at most, and the n newest entries are a sealing's. -/
def Bar.Buried (b : Bar) (n : Nat) : Prop :=
  b.log.entries.length ≤ logSize ∧ ∀ i < n, ∃ e, b.log.entries[i]? = some e ∧ e.code ∈ sealCodes

section
variable {b c : Bar} {n : Nat}

theorem Bar.Buried.of_log (h : b.Buried n) (same : c.log = b.log) : c.Buried n := by
  unfold Buried
  rw [same]
  exact h

theorem Bar.Buried.mono {m : Nat} (h : b.Buried n) (less : m ≤ n) : b.Buried m :=
  ⟨h.1, fun i below => h.2 i (Nat.lt_of_lt_of_le below less)⟩

/-- A code of a sealing is logged: one entry more of the newest is a sealing's, as far as the ring goes. -/
theorem Bar.Buried.logged (h : b.Buried n) {code : Nat} (arg : Nat) (known : code ∈ sealCodes) :
    (b.logEvent code arg).Buried (min (n + 1) logSize) := by
  obtain ⟨length, old⟩ := h
  have entries : ∃ e : LogEntry, e.code = code ∧ (b.logEvent code arg).log.entries = e :: b.log.entries.take (logSize - 1) :=
    ⟨_, rfl, rfl⟩
  obtain ⟨e, named, entries⟩ := entries
  refine ⟨?_, fun i below => ?_⟩
  · rw [entries, List.length_cons, List.length_take]
    unfold logSize at length ⊢
    omega
  · rw [entries]
    cases i with
    | zero => exact ⟨e, rfl, named ▸ known⟩
    | succ i =>
      obtain ⟨x, at_, code⟩ := old i (by omega)
      exact ⟨x, (List.getElem?_take_of_lt (by omega)).trans at_, code⟩

theorem Bar.Buried.logged' (h : b.Buried n) (within : n ≤ logSize) {code : Nat} (arg : Nat) (known : code ∈ sealCodes) :
    (b.logEvent code arg).Buried n :=
  (h.logged arg known).mono (by omega)

theorem Bar.Buried.all (h : b.Buried logSize) : ∀ e ∈ b.log.entries, e.code ∈ sealCodes := by
  intro e member
  obtain ⟨i, below, rfl⟩ := List.getElem_of_mem member
  obtain ⟨x, at_, code⟩ := h.2 i (Nat.lt_of_lt_of_le below h.1)
  rw [List.getElem?_eq_getElem below] at at_
  exact Option.some.inj at_ ▸ code

end

/-- The pinned evidence of item 5 of session 1 alone exceeds the pin share. -/
def Storage.OverShare (s : Storage) : Prop :=
  s.pins = [(1, 5)] ∧ s.quotaEvidence = 0 ∧ ∃ x ∈ s.stored, x.data.key = .object 1 5 0 ∧ x.data.bytes ≠ []

theorem mem_le_sum {l : List Nat} {n : Nat} (member : n ∈ l) : n ≤ l.sum := by
  induction member with
  | head l => exact Nat.le_add_right ..
  | tail m _ ih => exact Nat.le_trans ih (Nat.le_add_left ..)

theorem Storage.OverShare.misses {s : Storage} (h : s.OverShare) (frames : List ((Nat × Nat) × List Nat)) (share : Nat) :
    s.shareFits frames share = false := by
  obtain ⟨pins, quota, x, stored, key, bytes⟩ := h
  have held : x.data.bytes.length ≤ s.pinnedOf frames true := by
    unfold pinnedOf bytesOf
    refine mem_le_sum (List.mem_map_of_mem (List.mem_filter.mpr ⟨?_, ?_⟩))
    · exact List.mem_append_right _ (List.mem_map_of_mem stored)
    · simp [isPinned, key, pins, StKey.isObject]
  have some_ : 0 < x.data.bytes.length := List.length_pos_iff.mpr bytes
  unfold shareFits
  rw [quota, Bool.and_eq_false_iff]
  exact .inr (decide_eq_false (by omega))

section
variable {b : Bar} {n : Nat}

theorem Bar.settlePin_over (over_ : b.sto.OverShare) {e : ItemEntry} (pinned : e.pinned = true) (other : e.seq ≠ 5) :
    b.settlePin e = (b.logEvent 0x8030 0, false) := by
  have free : (b.sto.session, e.seq) ∉ b.sto.pins := by
    rw [over_.1]
    simp [other]
  unfold settlePin unpinItem
  rw [if_pos free, over_.misses, pinned]
  rfl

theorem Bar.appendEntry_buried (h : b.Buried n) (within : n ≤ logSize) (over_ : b.sto.OverShare) (type : Nat) (body : List Byte) :
    (b.appendEntry type body).Buried n ∧ (b.appendEntry type body).sto.OverShare ∧ b.Files (b.appendEntry type body) := by
  unfold appendEntry appendBody
  extract_lets s head entry index room mark appended due
  have stands : appended.Buried n := h.of_log rfl
  have still : appended.sto.OverShare := over_
  have files : b.Files appended := b.modSto_files _
  split
  · exact ⟨(stands.logged' within 0 (by decide)).of_log rfl, still,
      files.trans <| (appended.logEvent_files ..).trans (modSto_files ..)⟩
  · split
    · exact ⟨stands, still, files⟩
    · exact ⟨stands.of_log rfl, still, files.trans (modSto_files ..)⟩

/-- An item whose pin exceeds the share: PIN_REFUSED is logged as its entry is formed (R273). -/
theorem Bar.formItem_buried (h : b.Buried n) (over_ : b.sto.OverShare) {e : ItemEntry} (pinned : e.pinned = true)
    (other : e.seq ≠ 5) :
    (b.formItem e).Buried (min (n + 1) logSize) ∧ (b.formItem e).sto.OverShare ∧ b.Files (b.formItem e) := by
  obtain ⟨buried, still, files⟩ := (b.logEvent 0x8030 0).appendEntry_buried (h.logged 0 (by decide)) (by omega) over_ 1 _
  unfold formItem
  rw [settlePin_over over_ pinned other]
  exact ⟨buried, still, (b.logEvent_files ..).trans files⟩

theorem Bar.foldl_formItem_buried (l : List ItemEntry) (all : ∀ e ∈ l, e.pinned = true ∧ e.seq ≠ 5) (h : b.Buried n)
    (within : n ≤ logSize) (over_ : b.sto.OverShare) :
    (l.foldl (fun b e => b.formItem e) b).Buried (min (n + l.length) logSize) ∧
      b.Files (l.foldl (fun b e => b.formItem e) b) := by
  induction l generalizing b n with
  | nil => exact ⟨h.mono (Nat.min_le_left ..), .refl b⟩
  | cons e l ih =>
    obtain ⟨pinned, other⟩ := all e List.mem_cons_self
    obtain ⟨buried, still, files⟩ := formItem_buried h over_ pinned other
    obtain ⟨rest, filed⟩ := ih (fun x member => all x (List.mem_cons_of_mem _ member)) buried (by omega) still
    exact ⟨rest.mono (by simp only [List.length_cons]; omega), files.trans filed⟩

theorem Bar.stageAll_buried (h : b.Buried n) (count : Nat) : (b.stageAll count).Buried n ∧ b.Files (b.stageAll count) := by
  induction count generalizing b with
  | zero => exact ⟨h, .refl b⟩
  | succ count ih =>
    have one : b.stagingWrite.log = b.log ∧ b.Files b.stagingWrite := by
      unfold stagingWrite
      split
      · exact ⟨rfl, .refl b⟩
      · extract_lets taken
        split
        · exact ⟨rfl, .of_mail rfl⟩
        · exact ⟨rfl, .of_mail rfl⟩
    obtain ⟨rest, files⟩ := ih (h.of_log one.1)
    exact ⟨rest, one.2.trans files⟩

/-- A sealing that begins with as many refused pins as the log has places leaves none of the entries before it. -/
theorem Bar.sealStart_buries (empty : b.Buried 0) (mounted : b.sto.state = .mounted) (over_ : b.sto.OverShare)
    (all : ∀ e ∈ b.sto.items, e.pinned = true ∧ e.seq ≠ 5) (many : logSize ≤ b.sto.items.length) (line : Nat) :
    (b.sealStart line).Buried logSize ∧ (b.sealStart line).sto.state = .sealing ∧ b.Files (b.sealStart line) := by
  obtain ⟨buried, files⟩ := foldl_formItem_buried b.sto.items all empty (Nat.zero_le _) over_
  unfold sealStart
  rw [if_pos mounted]
  extract_lets formed staged told
  have formedBuried : formed.Buried logSize := (buried.mono (by omega)).of_log rfl
  have formedFiles : b.Files formed := files.trans (modSto_files ..)
  obtain ⟨stagedBuried, stagedFiles⟩ := stageAll_buried formedBuried formed.sto.outbox.length
  have tells : told.Buried logSize ∧ staged.Files told := by
    unfold told
    split
    · exact ⟨stagedBuried.logged' (Nat.le_refl _) 0 (by decide), staged.logEvent_files ..⟩
    · exact ⟨stagedBuried, .refl _⟩
  exact ⟨tells.1.of_log rfl, rfl, formedFiles.trans <| stagedFiles.trans <| tells.2.trans (modSto_files ..)⟩

end

/-! ### The counterexample -/

/-- An item of the session that is pinned and waits for its ITEM entry. -/
def waitingItem : ItemEntry :=
  { seq := 0, verdict := [], published := 0, frame := none, defects := 0, cropsDue := [], crops := [], set := [], pinned := true
    lost := false, refOffset := 0 }

/-- Storage in operation: one pinned object stored, no pin share, and pinned items enough to fill the event log. -/
def crowdedStorage : Storage :=
  { Storage.reset with
    state := .mounted, pins := [(1, 5)], stored := [⟨⟨.object 1 5 0, [0], 0, 0⟩, 0, false, false, 0, 0⟩]
    items := List.replicate logSize waitingItem }

/-- A bar that runs, with that storage. -/
def crowdedBar : Bar := { Bar.reset with sto := crowdedStorage, saf := { Safety.reset with power := .running } }

theorem crowdedStorage_overShare : crowdedStorage.OverShare := ⟨rfl, rfl, _, List.mem_singleton_self _, rfl, by decide⟩

/-- What follows a command adds nothing to the log of the sealing bar without sessions, transfers and ports. -/
theorem Bar.after_quiet {b : Bar} (sealing : b.sto.state = .sealing) (ingests : b.cap.ingests = []) (foe : b.foe = none)
    (session : b.ecat.session = false) (ports : ∀ p, b.portUp p = false) :
    b.after.log = b.log ∧ b.after.sm1 = b.sm1 := by
  obtain ⟨u, due⟩ := b.storageDue_sealing sealing
  have guard : b.storageDue.ingestGuard = b.storageDue := by
    unfold ingestGuard
    rw [due, if_pos (by simp [ingests])]
  have busy : b.storageDue.foeBusy = b.storageDue := by
    unfold foeBusy
    rw [due, modSto_foe, foe]
  have runs : b.storageDue.portsRun = b.storageDue := by
    have idle (p : Fin 4) : b.storageDue.portRun p = b.storageDue := by
      have down : b.storageDue.portUp p = false := due ▸ ports p
      unfold portRun
      rw [down]
      rfl
    exact List.foldlRecOn (motive := fun c => c = b.storageDue) _ _ rfl fun c same p _ => by rw [same, idle]
  have snap : b.storageDue.snapLine = b.storageDue := by
    unfold snapLine
    rw [due, modSto_ecat, session]
    rfl
  have whole : b.after = b.storageDue.noteFault := by
    unfold after
    rw [guard, busy, runs, snap]
  rw [whole]
  unfold noteFault
  split <;> rw [due] <;> exact ⟨rfl, rfl⟩

theorem Bar.endRows_none {b : Bar} (none_ : b.cap.codRows = []) : b.endRows = b :=
  List.foldlRecOn (motive := fun c => c = b) _ _ rfl fun c same k _ => by
    rw [same, endRow, none_]
    rfl

/-- The bar in which the readback's reset has just been decided, before its sealing: the entry is the log's newest. -/
theorem crowdedBar_decided : ∃ c : Bar, (crowdedBar.at 2000).faultReadback true 2000 = c.startSealing ∧
    c.Buried 0 ∧ c.sto = crowdedStorage ∧ c.cap = Bar.reset.cap ∧ c.foe = none ∧ c.ecat = Bar.reset.ecat ∧
    c.dlv = Bar.reset.dlv ∧ c.sec = Bar.reset.sec ∧ c.par = Bar.reset.par ∧ ∀ error text, MailItem.foeError error text ∉ c.sm1 := by
  have time : (crowdedBar.at 2000).now = 2000 := by decide
  have differs : ¬(true = (crowdedBar.at 2000).faultHigh) := by decide
  unfold Bar.faultReadback
  rw [if_neg (by decide)]
  unfold Bar.decideReset
  rw [if_neg (by decide)]
  obtain ⟨r, cause, -⟩ := (((crowdedBar.at 2000).modSaf fun s => { s with faultMismatch := true }).logEvent 0xD02D 0).recordCause_eq 0xD02D
  rw [cause]
  refine ⟨_, rfl, ⟨?_, by simp⟩, rfl, rfl, rfl, rfl, rfl, rfl, rfl, fun error text member => ?_⟩
  · exact (by decide : 1 ≤ logSize)
  · obtain ⟨-, mail⟩ := ((crowdedBar.at 2000).modSaf fun s => { s with faultMismatch := true }).logEvent_files 0xD02D 0
    rcases mail _ member with old | ⟨bytes, new⟩
    · exact absurd old List.not_mem_nil
    · exact absurd new (by simp)

/-- The sealing that the readback decides in the crowded bar leaves the entry of the reset nowhere in the log. -/
theorem crowdedBar_readback :
    let b := (crowdedBar.at 2000).faultReadback true 2000
    b.Buried logSize ∧ b.after.log = b.log ∧ ∀ error text, MailItem.foeError error text ∉ b.after.sm1 := by
  obtain ⟨c, sealing, empty, sto, cap, foe, ecat, dlv, sec, par, mail⟩ := crowdedBar_decided
  dsimp only
  rw [sealing, Bar.startSealing, Bar.endRows_none (by rw [cap]; rfl)]
  have waits : ∀ e ∈ c.sto.items, e.pinned = true ∧ e.seq ≠ 5 := by
    intro e member
    rw [sto] at member
    rw [List.eq_of_mem_replicate member]
    exact ⟨rfl, by decide⟩
  have many : logSize ≤ c.sto.items.length := by
    rw [sto]
    exact Nat.le_of_eq List.length_replicate.symm
  obtain ⟨buried, seals, same, mails⟩ := Bar.sealStart_buries empty (by rw [sto]; rfl) (by rw [sto]; exact crowdedStorage_overShare)
    waits many c.firstUncoded
  generalize c.sealStart c.firstUncoded = x at *
  have down (p : Fin 4) : x.portUp p = false := by
    rw [same]
    unfold Bar.portUp
    dsimp only
    rw [dlv]
    simp only [Bar.reset, Delivery.reset, Fin.getElem_fin, Vector.getElem_replicate]
    exact Bool.and_false _
  obtain ⟨log, sm1⟩ := Bar.after_quiet seals (by rw [same]; simp only [cap]; rfl) (by rw [same]; exact foe)
    (by rw [same]; simp only [ecat]; rfl) down
  refine ⟨buried, log, fun error text member => ?_⟩
  rw [sm1] at member
  rcases mails _ member with old | ⟨bytes, new⟩
  · exact mail error text old
  · exact absurd new (by simp)

/-- A sealing bar that is followed by what follows a bar with a log of a sealing's codes alone has no others in its own log. -/
theorem Bar.buried_of_after {b x : Bar} (same : b.after = x.after) (sealing : b.sto.state = .sealing)
    (h : x.Buried logSize ∧ x.after.log = x.log ∧ ∀ error text, MailItem.foeError error text ∉ x.after.sm1) :
    ∀ e ∈ b.log.entries, e.code ∈ sealCodes := by
  obtain ⟨buried, log, mail⟩ := h
  obtain ⟨-, aside⟩ := b.after_aside sealing
  rw [same, log] at aside
  rcases aside with stands | ⟨e, newest, other⟩ | ⟨error, text, ends⟩
  · exact stands ▸ buried.all
  · exact absurd (buried.all e (List.mem_of_mem_head? newest)) other
  · exact absurd ends (mail error text)

theorem State.bar_unique {s : State} {x : Host.Outcome State Fault Refusal} {b c : Bar} (one : x = .next { s with bar := b })
    (other : x = .next { s with bar := c }) : b = c := by
  rw [one] at other
  exact congrArg State.bar (Host.Outcome.next.inj other)

/-- Two answers to one command are followed by the same. -/
theorem Answers.after_unique {s : State} {c : Instr} {b d : Bar} (one : Answers s c b) (other : Answers s c d) :
    b.after = d.after :=
  State.bar_unique one other

/-- Refutes O56: R437's reset is logged, but a statement about the log after the command cannot hold in every state: the sealing
that it starts forms the ITEM entries, and 16,384 refused pins among them push the entry of the reset out of the ring. The bar of the
counterexample runs, with storage mounted, and FAULT_N read back high for 2 µs while it is requested low. -/
theorem not_faultRequestFollowsTheState : ¬ Obligations.FaultRequestFollowsTheState := by
  unfold Obligations.FaultRequestFollowsTheState
  intro h
  obtain ⟨s, bar⟩ : ∃ s : State, s.bar = crowdedBar := ⟨{ State.reset with bar := crowdedBar }, rfl⟩
  have running : s.bar.alive = true := bar ▸ (by decide : crowdedBar.alive = true)
  obtain ⟨-, -, readback⟩ := h.2 s 2000 true 2000 running
  rw [bar] at readback
  obtain ⟨b, answers, -, -, -, -, -, ⟨e, logged, code, -⟩, seals⟩ := readback (by decide) (by decide) (by decide) rfl
  have acts : Answers s (.faultnReadback ⟨2000, true, 2000⟩) ((s.bar.at 2000).faultReadback true 2000) :=
    .of_live (·.faultReadback true 2000) running rfl
  have same := answers.after_unique acts
  rw [bar] at same
  have known := Bar.buried_of_after same (seals rfl) crowdedBar_readback e logged
  rw [code] at known
  exact absurd known (by decide)

end Sys2Proof.Machine
end

section
/-! The process data of the slave (R328, R342 to R346): the verdict queue at a latch, the sampled RxPDO and its announcements. -/

namespace Sys2Proof.Machine

/-! ### The verdict queue (R345) -/

section
variable (e : Ecat)

theorem Ecat.takeVack_near (on : e.vackEn = true)
    (near : (e.vack + 65536 - e.vqBase) % 65536 ≤ (e.vqP + 65536 - e.vqBase) % 65536) :
    e.takeVack = { e with vqBase := e.vack, vq := e.vq.filter (fun s =>
      decide ((e.vack + 65536 - e.vqBase) % 65536 ≤ (s.1 + 65536 - e.vqBase) % 65536)) } := by
  unfold takeVack
  rw [if_pos on]
  exact if_pos near

theorem Ecat.takeVack_far (on : e.vackEn = true)
    (far : (e.vqP + 65536 - e.vqBase) % 65536 < (e.vack + 65536 - e.vqBase) % 65536) :
    e.takeVack = { e with vackIgnored := min 0xFFFFFFFF (e.vackIgnored + 1) } := by
  rw [← sat32_eq_min]
  unfold takeVack
  rw [if_pos on]
  exact if_neg (by omega)

theorem Ecat.presented_le : e.presented.length ≤ 8 := List.length_take_le ..

theorem Ecat.present_vqP : e.present.vqP = (e.vqP + e.presented.length) % 65536 := by
  unfold present
  split
  · simp
  · simp

theorem Ecat.present_vq_held (on : e.vackEn = true) :
    e.present.vq = e.vq.map fun x => if x.1 ∈ e.presented.map (·.1) then (x.1, x.2.1, some e.latches) else x := by
  unfold present
  rw [if_pos on]

/-- Without VACK_EN what is presented from P on in order is retired at once (R345, step 4). -/
theorem Ecat.present_retires (off : e.vackEn = false)
    (inOrder : e.presented.map (fun x => e.ahead x.1) = List.range e.presented.length) :
    ∀ x ∈ e.presented, x.1 ∉ e.present.vq.map (·.1) := by
  intro x shown queued
  have near : e.ahead x.1 < e.presented.length :=
    List.mem_range.mp (inOrder ▸ List.mem_map_of_mem (f := fun x => e.ahead x.1) shown)
  obtain ⟨y, kept, same⟩ := List.mem_map.mp queued
  unfold present at kept
  rw [if_neg (by simp [off])] at kept
  obtain ⟨-, kept⟩ := List.mem_filter.mp kept
  rw [decide_eq_true_eq, List.length_map, same] at kept
  omega

end

/-! ### The latch (R342) -/

theorem Bar.statusWord_repeat (b : Bar) (again : Bool) : (b.statusWord again).testBit 6 = again := by
  simp [statusWord, testBit_maskOf]

/-- The slave at a latch, before it presents: the next latch, with the echo that is due, and its acknowledgement taken (step 1). -/
def Ecat.acknowledged (e : Ecat) : Ecat :=
  ({ e with latches := e.latches + 1, applyEcho := e.applyEchoNext, applyRefused := e.applyRefusedNext } : Ecat).takeVack

/-- Where the slots are presented from at this latch (step 2). -/
def Ecat.placed (e : Ecat) : Ecat := if e.repeatDue then { e with vqP := e.vqBase } else e

theorem Ecat.acknowledged_kept (e : Ecat) : e.acknowledged.al = e.al ∧ e.acknowledged.latches = e.latches + 1 := by
  unfold acknowledged takeVack
  split
  · dsimp only
    split
    · exact ⟨rfl, rfl⟩
    · exact ⟨rfl, rfl⟩
  · exact ⟨rfl, rfl⟩

theorem Ecat.placed_kept (e : Ecat) : e.placed.al = e.al ∧ e.placed.latches = e.latches := by
  unfold placed
  split
  · exact ⟨rfl, rfl⟩
  · exact ⟨rfl, rfl⟩

theorem Ecat.present_kept (e : Ecat) : e.present.al = e.al ∧ e.present.latches = e.latches := by
  unfold present
  dsimp only
  split
  · exact ⟨rfl, rfl⟩
  · exact ⟨rfl, rfl⟩

/-- The fields of a TxPDO latched with the slave placed (Table 11-7). -/
def Bar.txFields (b : Bar) (again : Bool) (p : Ecat) : List Nat :=
  let c : Bar := { b with ecat := p.present }
  [c.statusWord again, p.vqP, (p.presented.map fun s => s.2.1).length, p.vqLost, c.liveLine, c.now, c.saf.sn.since, c.thm.advice,
    c.cap.pstep, c.withheld, c.dlv.admState, c.dlv.admNamed, c.par.liveGen, p.annTaken, c.inFlight, c.par.armedState.code]
    ++ Bar.txLatch.padZero 8 (p.presented.map fun s => s.2.1)

theorem Bar.txLatch_cyclic {b : Bar} (cyclic : b.cyclic = true) :
    let p := b.ecat.acknowledged.placed
    let tx := b.txFields b.ecat.acknowledged.repeatDue p
    b.txLatch = { b with ecat := { p.present with tx := tx, txImage := txBytes tx } } := by
  intro p tx
  unfold txLatch
  rw [if_pos cyclic]
  extract_lets latched again repeated e slots vseq presented fields
  have placed : repeated = { b with ecat := b.ecat.acknowledged.placed } := by
    unfold repeated
    split
    next due => rw [Ecat.placed, if_pos (show b.ecat.acknowledged.repeatDue = true from due)]; rfl
    next once => rw [Ecat.placed, if_neg (show ¬b.ecat.acknowledged.repeatDue = true from once)]; rfl
  clear_value repeated
  subst placed
  rfl

theorem Bar.txFields_slot (b : Bar) (again : Bool) (p : Ecat) {j : Nat} (place : j < 8) :
    (b.txFields again p).getD (16 + j) 0 = (p.presented.map fun y => y.2.1).getD j 0 := by
  unfold txFields Bar.txLatch.padZero
  simp only [List.cons_append, List.nil_append]
  rw [Nat.add_comm]
  simp only [List.getD_cons_succ]
  rw [List.getD_eq_getElem?_getD, List.getElem?_take_of_lt place, List.getD_eq_getElem?_getD]
  by_cases within : j < (p.presented.map fun y => y.2.1).length
  · rw [List.getElem?_append_left within]
  · rw [List.getElem?_append_right (by omega), List.getElem?_replicate, List.getElem?_eq_none (by omega)]
    split
    · rfl
    · rfl

theorem Bar.txFields_length (b : Bar) (again : Bool) (p : Ecat) : (b.txFields again p).length = 24 := by
  simp [txFields, Bar.txLatch.padZero]

theorem Bar.txLatch_still {b : Bar} (idle : b.ecat.al = .init ∨ b.ecat.al = .preop) : b.txLatch = b := by
  unfold txLatch cyclic
  rcases idle with al | al <;> rw [al] <;> rfl

/-! ### What the last cycle brought, when nothing of it is left (R343 to R346) -/

section
variable {b : Bar}

theorem Bar.snRelease_none (taken : b.ecat.releasePend = false) : b.snRelease = b := if_neg (by simp [taken])

theorem Bar.requestRelease_ecat (b : Bar) : b.requestRelease.ecat = b.ecat := by
  unfold requestRelease
  split
  · rfl
  · extract_lets active
    split
    · rfl
    · rfl

/-- The slave after a release request: it has been taken, and nothing else of the cycle. -/
theorem Bar.snRelease_ecat (b : Bar) : b.snRelease.ecat = { b.ecat with releasePend := false } := by
  unfold snRelease
  split
  · exact requestRelease_ecat _
  next taken => rw [← Bool.eq_false_iff.mpr taken]

theorem Bar.scanAnnouncement_spent (spent : 4 ≤ b.ecat.annSlot) (fuel : Nat) : b.scanAnnouncement fuel = b := by
  cases fuel with
  | zero => rfl
  | succ fuel => exact if_pos spent

/-- Four slots need four steps, and no more. -/
theorem Bar.scanAnnouncement_fuel {n m : Nat} (enough : 4 ≤ b.ecat.annSlot + n) (more : n ≤ m) :
    b.scanAnnouncement m = b.scanAnnouncement n := by
  induction n generalizing b m with
  | zero => rw [scanAnnouncement_spent enough, scanAnnouncement_spent enough]
  | succ n ih =>
    obtain ⟨m, rfl⟩ : ∃ k, m = k + 1 := ⟨m - 1, by omega⟩
    unfold scanAnnouncement
    extract_lets e slot d
    rw [ih (b := b.modEcat fun e => { e with annSlot := e.annSlot + 1 }) (by simp [Bar.modEcat]; omega) (by omega)]

theorem Bar.hostCheckin_none {seven : Bool} (none_ : (if seven then b.ecat.checkin7 else b.ecat.checkin6) = false) :
    b.hostCheckin seven = b := if_neg (by simp [none_])

theorem Bar.settleCycle_none (slots : b.ecat.annSlot = 4) (six : b.ecat.checkin6 = false) (seven : b.ecat.checkin7 = false)
    (apply_ : b.ecat.applyPend = false) (release : b.ecat.releasePend = false) : b.settleCycle = b := by
  have announced : b.announcement = b := by
    unfold announcement
    rw [snRelease_none release, scanAnnouncement_spent (Nat.le_of_eq slots.symm)]
  unfold settleCycle
  rw [announced, announced, announced, announced, hostCheckin_none (seven := false) six, hostCheckin_none (seven := true) seven, applyLineCommand_idle apply_]

end

/-! ### The sampled RxPDO (R328, R342) -/

/-- The fields of an image at their places (Table 11-5). -/
theorem pdoFields_rx (image : Nat) : pdoFields rxFieldBits image =
    [image / 2 ^ 0 % 2 ^ 16, image / 2 ^ 16 % 2 ^ 16, image / 2 ^ 32 % 2 ^ 8, image / 2 ^ 40 % 2 ^ 8, image / 2 ^ 48 % 2 ^ 16,
      image / 2 ^ 64 % 2 ^ 64, image / 2 ^ 128 % 2 ^ 128, image / 2 ^ 256 % 2 ^ 128, image / 2 ^ 384 % 2 ^ 128,
      image / 2 ^ 512 % 2 ^ 128] := by
  simp only [pdoFields, rxFieldBits, Nat.div_div_eq_div_mul, ← Nat.pow_add, Nat.reduceAdd, Nat.pow_zero, Nat.div_one]

/-- The length of the announcement in slot k of an image. -/
theorem annLength_slot (image k : Nat) : annLength (image / 2 ^ (128 + 128 * k) % 2 ^ 128) = image / 2 ^ (192 + 128 * k) % 2 ^ 24 := by
  have place : 2 ^ (192 + 128 * k) = 2 ^ (128 + 128 * k) * 2 ^ 64 := by rw [← Nat.pow_add]; congr 1; omega
  unfold annLength bits
  rw [Nat.shiftRight_eq_div_pow, show 2 ^ 128 = 2 ^ 64 * 2 ^ 64 from Nat.pow_add 2 64 64, Nat.mod_mul_right_div_self, Nat.div_div_eq_div_mul,
    ← place, Nat.mod_mod_of_dvd _ (Nat.pow_dvd_pow 2 (by decide))]

/-- The scan at one slot: ANN_TAKEN so far, has it stopped, at a slot ahead? -/
def scanStep (annNo : Nat) (length : Nat → Nat) (x : Nat × Bool × Bool) (k : Nat) : Nat × Bool × Bool :=
  let d := (x.1 + 65536 - (annNo + k) % 65536) % 65536
  if x.2.1 then x else if length k = 0 then (x.1, true, false)
  else if d = 0 then ((x.1 + 1) % 65536, false, false) else if d ≤ 32768 then x else (x.1, true, true)

theorem scanStep_stopped (annNo : Nat) (length : Nat → Nat) (l : List Nat) (taken : Nat) (gap : Bool) :
    l.foldl (scanStep annNo length) (taken, true, gap) = (taken, true, gap) := by
  induction l with
  | nil => rfl
  | cons k l ih => exact ih

theorem scanGap_eq (annNo : Nat) (slot : Nat → Nat) (n k taken : Nat) : scanGap annNo k ((List.range' k n).map slot) taken =
    ((List.range' k n).foldl (scanStep annNo fun i => annLength (slot i)) (taken, false, false)).2.2 := by
  induction n generalizing k taken with
  | zero => rfl
  | succ n ih =>
    rw [List.range'_succ, List.map_cons, List.foldl_cons]
    unfold scanGap
    simp only [scanStep, behind, Nat.mod_mod, Bool.false_eq_true, if_false]
    split
    · rw [scanStep_stopped]
    · split
      · exact ih ..
      · split
        · exact ih ..
        · rw [scanStep_stopped]


/-- The scan of an image's four slots, by the lengths of their announcements. -/
theorem scanGap_image (image taken : Nat) :
    scanGap ((pdoFields rxFieldBits image).getD 1 0) 0 ((pdoFields rxFieldBits image).drop 6) taken =
      ((List.range 4).foldl (scanStep (image / 2 ^ 16 % 2 ^ 16) fun k => image / 2 ^ (192 + 128 * k) % 2 ^ 24)
        (taken, false, false)).2.2 := by
  have scan := scanGap_eq (image / 2 ^ 16 % 2 ^ 16) (fun k => image / 2 ^ (128 + 128 * k) % 2 ^ 128) 4 0 taken
  simp only [annLength_slot] at scan
  rw [pdoFields_rx]
  exact scan

theorem Bar.rxSample_still {b : Bar} (idle : b.ecat.al = .init ∨ b.ecat.al = .preop) (bytes : List Byte) (written : Nat) :
    b.rxSample bytes written = b := by
  unfold rxSample cyclic
  rcases idle with al | al <;> rw [al] <;> rfl

theorem Bar.cyclic_of {b : Bar} (h : b.ecat.al = .safeop ∨ b.ecat.al = .op) : b.cyclic = true := by
  unfold cyclic
  rcases h with al | al <;> rw [al] <;> rfl

/-! ### Announcements (R343) -/

/-- What the next announcement of the cycle does, by its slot: the scan ends, goes on, or takes it. -/
theorem Bar.scanAnnouncement_slot {b : Bar} (left : b.ecat.annSlot < 4) :
    let e := b.ecat
    let slot := e.rx.getD (6 + e.annSlot) 0
    let number := (e.rx.getD 1 0 + e.annSlot) % 65536
    let behind := (e.annTaken + 65536 - number) % 65536
    (slot / 2 ^ 64 % 2 ^ 24 = 0 ∨ 32768 < behind → b.scanAnnouncement 4 = { b with ecat := { e with annSlot := 4 } }) ∧
    (slot / 2 ^ 64 % 2 ^ 24 ≠ 0 → 0 < behind → behind ≤ 32768 →
      b.scanAnnouncement 4 = ({ b with ecat := { e with annSlot := e.annSlot + 1 } } : Bar).scanAnnouncement 4) ∧
    (slot / 2 ^ 64 % 2 ^ 24 ≠ 0 → behind = 0 → b.scanAnnouncement 4 = ({ b with ecat := { e with
        annSlot := e.annSlot + 1, annTaken := (e.annTaken + 1) % 65536, annCount := (e.annCount + 1) % 2 ^ 32 } } : Bar).takeAnnouncement
          slot e.sampleTime) := by
  intro e slot number behind_
  have length : annLength slot = slot / 2 ^ 64 % 2 ^ 24 := by
    unfold annLength
    exact bits_eq ..
  have distance : behind ((e.rxField 1 + e.annSlot) % 65536) e.annTaken = behind_ := by
    unfold behind
    rw [Nat.mod_mod]
    rfl
  have scan : b.scanAnnouncement 4 =
      (if annLength slot = 0 || decide (32768 < behind_) then b.modEcat fun e => { e with annSlot := 4 }
      else if behind_ = 0 then
        (b.modEcat fun e => { e with annSlot := e.annSlot + 1, annTaken := (e.annTaken + 1) % 65536, annCount := (e.annCount + 1) % 2 ^ 32 }).takeAnnouncement
          slot e.sampleTime
      else (b.modEcat fun e => { e with annSlot := e.annSlot + 1 }).scanAnnouncement 3) := by
    rw [← distance]
    exact if_neg (by omega)
  rw [length] at scan
  refine ⟨fun stops => ?_, fun some_ ahead within => ?_, fun some_ new => ?_⟩
  · rw [scan, if_pos (by simpa only [Bool.or_eq_true, decide_eq_true_eq] using stops)]
    rfl
  · rw [scan, if_neg (by simp only [Bool.or_eq_true, decide_eq_true_eq]; omega), if_neg (by omega)]
    exact (scanAnnouncement_fuel (by change 4 ≤ b.ecat.annSlot + 1 + 3; omega) (by omega)).symm
  · rw [scan, if_neg (by simp only [Bool.or_eq_true, decide_eq_true_eq]; omega), if_pos new]
    rfl

/-! ### The obligation -/

/-- What a TxPDO holds that is latched in SAFE-OP or OP, and what else the latch changes. -/
theorem Bar.txLatch_fields {b : Bar} (cyclic : b.ecat.al = .safeop ∨ b.ecat.al = .op) :
    let q := b.ecat.acknowledged
    let p := q.placed
    ∃ e : Ecat, b.txLatch = { b with ecat := e } ∧ e.txImage = txBytes e.tx ∧
      e = { p.present with tx := e.tx, txImage := e.txImage } ∧ e.tx.length = 24 ∧ (e.tx.getD 0 0).testBit 6 = q.repeatDue ∧
      e.tx.getD 1 0 = p.vqP ∧ e.tx.getD 2 0 = p.presented.length ∧
      (∀ j : Nat, j < 8 → e.tx.getD (16 + j) 0 = (p.presented.map fun y => y.2.1).getD j 0) ∧
      e.al = b.ecat.al ∧ e.latches = b.ecat.latches + 1 ∧
      e.tx.getD 5 0 = b.now ∧ e.tx.getD 4 0 = b.liveLine ∧ e.tx.getD 12 0 = b.par.liveGen := by
  intro q p
  refine ⟨_, txLatch_cyclic (cyclic_of cyclic), rfl, rfl, txFields_length .., statusWord_repeat .., rfl, List.length_map .., fun j place =>
    txFields_slot _ _ _ place, ?_, ?_, rfl, rfl, rfl⟩
  · exact (p.present_kept.1.trans q.placed_kept.1).trans b.ecat.acknowledged_kept.1
  · exact (p.present_kept.2.trans q.placed_kept.2).trans b.ecat.acknowledged_kept.2

/-- What a sample leaves when nothing of the previous cycle is left to be taken. -/
theorem Bar.rxSample_fields {b : Bar} (cyclic : b.ecat.al = .safeop ∨ b.ecat.al = .op) (settled : b.settleCycle = b)
    (bytes : List Byte) (written : Nat) :
    let b' := b.rxSample bytes written
    let image := leNat (bytes.take 80)
    let field (lo w : Nat) : Nat := image / 2 ^ lo % 2 ^ w
    b'.par = b.par ∧ b'.cap = b.cap ∧ b'.io = b.io ∧
      b'.ecat.rx = [field 0 16, field 16 16, field 32 8, field 40 8, field 48 16, field 64 64, field 128 128, field 256 128,
        field 384 128, field 512 128] ∧
      b'.ecat.rxSeen = true ∧ b'.ecat.sampleTime = b.now ∧ b'.ecat.pdAt = max b.ecat.pdAt (min written b.now) ∧
      b'.ecat.sampleLine = b.liveLine ∧ b'.ecat.vack = field 48 16 ∧
      b'.ecat.vackEn = image.testBit 0 ∧ b'.ecat.cycles = (b.ecat.cycles + 1) % 2 ^ 32 ∧
      (let scan := (List.range 4).foldl (scanStep (field 16 16) fun k => field (192 + 128 * k) 24) (b.ecat.annTaken, false, false)
       b'.ecat.annGap = scan.2.2 ∧ b'.ecat.annGaps = if scan.2.2 then min 0xFFFFFFFF (b.ecat.annGaps + 1) else b.ecat.annGaps) ∧
      b'.ecat.ctrlReserved = decide (8 ≤ field 0 16) ∧
      b'.ecat.ctrlCycles = (if 8 ≤ field 0 16 then min 0xFFFFFFFF (b.ecat.ctrlCycles + 1) else b.ecat.ctrlCycles) := by
  intro b' image field
  have rx : pdoFields rxFieldBits image = [field 0 16, field 16 16, field 32 8, field 40 8, field 48 16, field 64 64, field 128 128,
      field 256 128, field 384 128, field 512 128] := pdoFields_rx image
  have ctrl : (pdoFields rxFieldBits image).getD 0 0 = field 0 16 := by
    rw [rx]
    rfl
  have gap := scanGap_image image b.ecat.annTaken
  have vackEn : bit (field 0 16) 0 = image.testBit 0 := by
    unfold bit field
    rw [Nat.pow_zero, Nat.div_one, Nat.testBit_mod_two_pow]
    rfl
  unfold b' rxSample
  rw [if_pos (cyclic_of cyclic), settled]
  refine ⟨rfl, rfl, rfl, rx, rfl, rfl, rfl, rfl, ?_, ?_, rfl, ⟨gap, ?_⟩, ?_, ?_⟩
  · change (pdoFields rxFieldBits image).getD 4 0 = _
    rw [rx]
    rfl
  · change bit ((pdoFields rxFieldBits image).getD 0 0) 0 = _
    rw [ctrl, vackEn]
  · change (if scanGap _ 0 _ _ then sat32 b.ecat.annGaps else b.ecat.annGaps) = _
    rw [gap, sat32_eq_min]
  · change decide (8 ≤ (pdoFields rxFieldBits image).getD 0 0) = _
    rw [ctrl]
  · change (if decide (8 ≤ (pdoFields rxFieldBits image).getD 0 0) then sat32 b.ecat.ctrlCycles else b.ecat.ctrlCycles) = _
    rw [ctrl, sat32_eq_min]
    simp only [decide_eq_true_eq]

/-- Settles O12: the steps of R345 on the queue, the latch by its fields, the sample by its image, and the scan slot by slot. -/
theorem processDataAtLatchAndSample : Obligations.ProcessDataAtLatchAndSample := by
  unfold Obligations.ProcessDataAtLatchAndSample
  have latches (s : State) (t : Nat) (running : s.bar.alive = true) :
      exec (.txpdoLatch t) s = .next { s with bar := (s.bar.at t).txLatch.after } := s.live_alive t (·.txLatch) running
  have samples (s : State) (t written : Nat) (bytes : List Byte) (running : s.bar.alive = true) :
      Answers s (.rxpdoSample t ⟨bytes, written⟩) ((s.bar.at t).rxSample bytes written) :=
    .of_live (·.rxSample bytes written) running rfl
  have announces (s : State) (t : Nat) (running : s.bar.alive = true) :
      Answers s (.announcement t) ((s.bar.at t).snRelease.scanAnnouncement 4) := .of_live (·.announcement) running rfl
  refine ⟨⟨fun e off => if_neg (by simp [off]), fun e on => ⟨fun far => e.takeVack_far on far, fun near => ?_⟩,
    fun e => ⟨rfl, e.present_vq_held⟩, fun e => ⟨e.presented_le, e.present_vqP, e.present_retires⟩, latches,
    fun s t running cyclic => ?_, fun s t running idle => ?_⟩, fun s t written bytes running idle => ?_,
    fun s t written bytes running cyclic slots six seven apply_ release => ?_, fun s t running spent => ?_,
    fun s t running left => ?_⟩
  · rw [e.takeVack_near on near]
    exact ⟨rfl, rfl, fun x => by simp [List.mem_filter]⟩
  · obtain ⟨e, latch, rest⟩ := Bar.txLatch_fields (b := s.bar.at t) cyclic
    exact ⟨e, latch ▸ latches s t running, rest⟩
  · rw [latches s t running, Bar.txLatch_still (b := s.bar.at t) idle]
  · have sample := samples s t written bytes running
    rw [Bar.rxSample_still (b := s.bar.at t) idle] at sample
    exact sample
  · have settled : (s.bar.at t).settleCycle = s.bar.at t :=
      Bar.settleCycle_none (b := s.bar.at t) slots six seven apply_ release
    exact ⟨_, samples s t written bytes running, Bar.rxSample_fields (b := s.bar.at t) cyclic settled bytes written⟩
  · have answer := announces s t running
    rw [Bar.scanAnnouncement_spent (by rw [Bar.snRelease_ecat]; exact spent)] at answer
    exact answer
  · intro b e slot number behind_
    obtain ⟨stops, passes, takes⟩ := Bar.scanAnnouncement_slot (b := b) (by unfold b; rw [Bar.snRelease_ecat]; exact left)
    have answer := announces s t running
    refine ⟨fun empty => ?_, fun ahead => ?_, fun some_ ahead within release => ?_, fun some_ new below => ?_⟩
    · exact stops (.inl empty) ▸ answer
    · exact stops (.inr ahead) ▸ answer
    · have same : b = s.bar.at t := Bar.snRelease_none (b := s.bar.at t) release
      have next := announces { s with bar := { s.bar with ecat := { s.bar.ecat with annSlot := e.annSlot + 1 } } } t running
      rw [passes some_ ahead within] at answer
      rw [Bar.snRelease_none (by exact release)] at next
      refine answer.trans (Eq.trans ?_ next.symm)
      unfold e
      rw [same]
      rfl
    · exact takes some_ (show behind_ = 0 by unfold behind_; rw [new]; omega) ▸ answer

end Sys2Proof.Machine
end

section
/-! The state machine of the slave (R26, R327 to R332, Table 11-2). -/

namespace Sys2Proof.Machine

/-- A request for a state of the slave is answered with its effect by a running bar, and by one in reset (R329). -/
theorem Answers.of_request {s : State} {c : Instr} {t : Nat} (f : Bar → Bar) (powered : s.bar.alive = true ∨ s.bar.saf.power = .reset)
    (runs : exec c s = s.request t f) : Answers s c (f (s.bar.at t)) := by
  refine runs.trans ?_
  have acts : (((s.bar.at t).alive || decide ((s.bar.at t).saf.power = .reset)) = true) := by
    rw [Bool.or_eq_true, decide_eq_true_eq]
    exact powered
  unfold State.request State.occur
  dsimp only
  rw [if_pos acts]

/-! ### What the engines and timers do of their own (R375, R393) -/

/-- From b to c nothing changes but the engines' domain, the trigger synthesiser and the log with its Emergencies. -/
def Bar.IoWork (b c : Bar) : Prop :=
  c = { b with io := c.io, log := c.log, sm1 := c.sm1, cap := { b.cap with syn := c.cap.syn } }

section
variable {b c d : Bar}

theorem Bar.IoWork.refl (b : Bar) : b.IoWork b := rfl

theorem Bar.IoWork.trans (first : b.IoWork c) (second : c.IoWork d) : b.IoWork d := by
  unfold IoWork at first second ⊢
  rw [first] at second
  exact second

theorem Bar.IoWork.ite {p : Prop} [Decidable p] (yes : b.IoWork c) (no : b.IoWork d) : b.IoWork (if p then c else d) := by
  split
  · exact yes
  · exact no

theorem Bar.PinsOnly.ioWork (h : b.PinsOnly c) : b.IoWork c := by
  obtain ⟨⟨_, _, rfl⟩, -⟩ := h
  rfl

theorem Bar.IoWork.par_eq (h : b.IoWork c) : c.par = b.par := Eq.trans (congrArg Bar.par h) rfl
theorem Bar.IoWork.segs_eq (h : b.IoWork c) : c.segs = b.segs := Eq.trans (congrArg Bar.segs h) rfl
theorem Bar.IoWork.ecat_eq (h : b.IoWork c) : c.ecat = b.ecat := Eq.trans (congrArg Bar.ecat h) rfl
theorem Bar.IoWork.saf_eq (h : b.IoWork c) : c.saf = b.saf := Eq.trans (congrArg Bar.saf h) rfl

theorem Bar.IoWork.rwN_eq (h : b.IoWork c) (index sub : Nat) : c.rwN index sub = b.rwN index sub := by
  simp only [rwN, rwI, h.par_eq, h.segs_eq]

end

theorem Bar.routeTrigger_ioWork (b : Bar) (src time : Nat) : b.IoWork (b.routeTrigger src time) := by
  obtain ⟨syn, h⟩ := b.routeTrigger_frame src time
  rw [h]
  rfl

theorem Bar.tmrCompare_ioWork (b : Bar) (i : Fin 16) : b.IoWork (b.tmrCompare i) := by
  unfold tmrCompare
  extract_lets u ctl hitA hitB turn outA outB compared noted pinnedA pinnedB
  split
  · have pins : compared.PinsOnly pinnedB :=
      Bar.PinsOnly.trans (.ite (compared.noteWaits_pinsOnly _) (.refl _)) <|
      Bar.PinsOnly.trans (.ite (noted.tmrPin_pinsOnly _ _ _ _) (.refl _)) (.ite (pinnedA.tmrPin_pinsOnly _ _ _ _) (.refl _))
    exact .trans (c := compared) rfl <| pins.ioWork.trans (.ite (routeTrigger_ioWork ..) (.refl _))
  · exact .refl b

theorem Bar.tmrStart_ioWork (b : Bar) (i : Fin 16) : b.IoWork (b.tmrStart i) := by
  unfold tmrStart
  extract_lets compared ctl per preset down tick0 started pinned
  have pins : started.PinsOnly pinned := (started.tmrPin_pinsOnly _ _ _ _).trans (Bar.tmrPin_pinsOnly _ _ _ _ _)
  exact (b.tmrCompare_ioWork i).trans <| .trans (c := started) rfl <| pins.ioWork.trans rfl

/-- Does a unit start by itself, as its settings say? -/
def Bar.tmrAuto (b : Bar) (i : Fin 16) : Prop :=
  bit (b.tmrCtl i.val) 1 = true ∧ b.tmrHead i = i ∧ b.tmrPreset i.val ≤ b.tmrPer i.val

theorem Bar.IoWork.tmrAuto_iff {b c : Bar} (h : b.IoWork c) (i : Fin 16) : c.tmrAuto i ↔ b.tmrAuto i := by
  unfold tmrAuto tmrHead tmrLinked tmrPreset tmrPer tmrValue tmrLinked pairHigh tmrCtl
  simp only [h.rwN_eq, h.par_eq]

/-- One unit is looked at for a start of its own. -/
def Bar.autostartTimer (b : Bar) (i : Fin 16) : Bar :=
  if bit (b.tmrCtl i.val) 1 && b.tmrHead i = i && !(b.io.timers[i]).running && decide (b.tmrPreset i.val ≤ b.tmrPer i.val)
  then b.tmrStart i else b

theorem Bar.autostartTimer_keeps (b : Bar) (i : Fin 16) :
    b.IoWork (b.autostartTimer i) ∧ b.TimersWork (b.autostartTimer i) ∧
    (∀ j : Fin 16, (b.io.timers[j]).running = true → ((b.autostartTimer i).io.timers[j]).running = true) ∧
    (b.tmrAuto i → ((b.autostartTimer i).io.timers[i]).running = true) := by
  unfold autostartTimer
  split
  · obtain ⟨work, others, starts⟩ := b.tmrStart_keeps i
    refine ⟨b.tmrStart_ioWork i, work, fun j runs => ?_, fun _ => starts.running⟩
    by_cases same : j = i
    · rw [same]
      exact starts.running
    · rw [others j same]
      exact runs
  next none_ =>
    refine ⟨.refl b, .refl b, fun _ => id, fun ⟨auto, head, fits⟩ => ?_⟩
    simpa [auto, head, fits] using none_

theorem Bar.foldl_autostartTimer (l : List (Fin 16)) (b : Bar) :
    b.IoWork (l.foldl autostartTimer b) ∧ b.TimersWork (l.foldl autostartTimer b) ∧
    (∀ j : Fin 16, (b.io.timers[j]).running = true → ((l.foldl autostartTimer b).io.timers[j]).running = true) ∧
    ∀ i ∈ l, b.tmrAuto i → ((l.foldl autostartTimer b).io.timers[i]).running = true := by
  induction l generalizing b with
  | nil => exact ⟨.refl b, .refl b, fun _ => id, fun _ member => absurd member List.not_mem_nil⟩
  | cons a l ih =>
    obtain ⟨io, work, stay, starts⟩ := b.autostartTimer_keeps a
    obtain ⟨io', work', stay', starts'⟩ := ih (b.autostartTimer a)
    rw [List.foldl_cons]
    generalize l.foldl autostartTimer (b.autostartTimer a) = c at *
    refine ⟨io.trans io', work.trans work', fun j runs => stay' j (stay j runs), fun i member auto => ?_⟩
    rcases List.mem_cons.mp member with rfl | later
    · exact stay' i (starts auto)
    · exact starts' i later ((io.tmrAuto_iff i).mpr auto)

theorem Bar.startEngine_keeps (b : Bar) (e : Fin 4) (clear : Bool) :
    b.IoWork (b.startEngine e clear) ∧ (b.startEngine e clear).io.timers = b.io.timers ∧
    ((b.startEngine e clear).engine e).state = .running ∧ ∀ g, g ≠ e → (b.startEngine e clear).engine g = b.engine g := by
  have same (g : Fin 4) : (b.startEngine e clear).engine g = (b.engineStarts e clear).engine g := by
    unfold Bar.engine
    rw [startEngine_eq, logEvent_io]
  have others (g : Fin 4) (other : g ≠ e) : (b.startEngine e clear).engine g = b.engine g := by
    rw [same, engineStarts, modEngineChans_engine]
    exact vmod_other _ _ other
  obtain ⟨chans, frame⟩ := (b.modEngine e fun g =>
    { g with state := .running, turnFrom := b.now + (b.now + b.cap.tb.stepPhase) % 2 }).modEngineChans_frame e fun k =>
      startedChannel (bit (b.rwN (0x2A00 + e.val) 5) (k.val % 16)) clear (b.rwN (0x2A10 + k.val) 1)
  have eq : b.engineStarts e clear = _ := frame
  refine ⟨?_, ?_, (congrArg Engine.state (same e)).trans (b.engineStarts_engine e clear).1, others⟩
  · rw [startEngine_eq, eq]
    rfl
  · rw [startEngine_eq, eq]
    rfl

/-- One engine is looked at for a start of its own. -/
def Bar.autostartEngine (b : Bar) (e : Fin 4) : Bar :=
  if b.rwN (0x2A00 + e.val) 3 = 1 && (b.engine e).state = .halted then b.startEngine e false else b

theorem Bar.autostartEngine_keeps (b : Bar) (e : Fin 4) :
    b.IoWork (b.autostartEngine e) ∧ (b.autostartEngine e).io.timers = b.io.timers ∧
    (∀ g, g ≠ e → (b.autostartEngine e).engine g = b.engine g) ∧
    ((b.engine e).state = .halted →
      ((b.autostartEngine e).engine e).state = if b.rwN (0x2A00 + e.val) 3 = 1 then .running else .halted) := by
  unfold autostartEngine
  split
  next starts =>
    obtain ⟨io, timers, state, others⟩ := b.startEngine_keeps e false
    rw [Bool.and_eq_true, decide_eq_true_eq] at starts
    exact ⟨io, timers, others, fun _ => by rw [if_pos starts.1, state]⟩
  next stays =>
    refine ⟨.refl b, rfl, fun _ _ => rfl, fun halted => ?_⟩
    rw [Bool.and_eq_true, decide_eq_true_eq, decide_eq_true_eq] at stays
    rw [if_neg fun auto => stays ⟨auto, halted⟩, halted]

theorem Bar.foldl_autostartEngine {l : List (Fin 4)} (each : l.Nodup) (b : Bar) :
    let c := l.foldl (fun b e => b.autostartEngine e) b
    b.IoWork c ∧ c.io.timers = b.io.timers ∧ (∀ e, e ∉ l → c.engine e = b.engine e) ∧
    ∀ e ∈ l, (b.engine e).state = .halted → (c.engine e).state = if b.rwN (0x2A00 + e.val) 3 = 1 then .running else .halted := by
  induction l generalizing b with
  | nil => exact ⟨.refl b, rfl, fun _ _ => rfl, fun _ member => absurd member List.not_mem_nil⟩
  | cons a l ih =>
    obtain ⟨fresh, each⟩ := List.nodup_cons.mp each
    obtain ⟨io, timers, others, state⟩ := b.autostartEngine_keeps a
    obtain ⟨io', timers', others', states⟩ := ih each (b.autostartEngine a)
    refine ⟨io.trans io', timers'.trans timers, fun e out => ?_, fun e member halted => ?_⟩
    · exact (others' e fun h => out (List.mem_cons_of_mem _ h)).trans (others e fun h => out (h ▸ List.mem_cons_self))
    · rcases List.mem_cons.mp member with rfl | later
      · exact (congrArg Engine.state (others' e fresh)).trans (state halted)
      · have ne : e ≠ a := fun h => fresh (h ▸ later)
        have same := states e later ((congrArg Engine.state (others e ne)).trans halted)
        rw [io.rwN_eq] at same
        exact same

/-- What starts by itself when PRE-OP is first reached. -/
theorem Bar.autostart_keeps (b : Bar) :
    let c := b.autostartEngines.autostartTimers
    b.IoWork c ∧
    (∀ e : Fin 4, (b.engine e).state = .halted → (c.engine e).state = if b.rwN (0x2A00 + e.val) 3 = 1 then .running else .halted) ∧
    ∀ i : Fin 16, b.tmrAuto i → (c.io.timers[i]).running = true := by
  intro c
  obtain ⟨io, timers, -, states⟩ := b.foldl_autostartEngine (List.nodup_finRange 4)
  obtain ⟨io', work, -, starts⟩ := Bar.foldl_autostartTimer (List.finRange 16) b.autostartEngines
  have engines : c.io.engines = b.autostartEngines.io.engines := by
    obtain ⟨-, -, -, -, engines, -⟩ := work
    exact engines
  refine ⟨io.trans io', fun e halted => ?_, fun i auto => starts i (List.mem_finRange i) ?_⟩
  · exact (congrArg (fun v : Vector Engine 4 => v[e].state) engines).trans (states e (List.mem_finRange e) halted)
  · exact (io.tmrAuto_iff i).mpr auto

/-! ### A change of state (R329) -/

/-- The slave in a state it has come to, its entry not logged yet. -/
def Bar.alIn (b : Bar) (dest : AlState) : Bar :=
  b.modEcat fun e => { e with al := dest, alError := false, alCode := 0, safeopWaiting := none
                              rxSeen := e.rxSeen && (dest ≠ .safeop || b.ecat.al = .safeop) }

theorem Bar.alEnter_change {b : Bar} {dest : AlState} (change_ : b.ecat.al ≠ dest) :
    b.alEnter dest = (b.alIn dest).logEvent 0x0046 (b.ecat.al.code * 256 + dest.code) := if_neg change_

theorem Bar.alEnter_same {b : Bar} {dest : AlState} (same : b.ecat.al = dest) : b.alEnter dest = b.alIn dest := if_pos same

/-- An entry other than into SAFE-OP leaves whether an RxPDO has been received. -/
theorem Bar.alIn_other {b : Bar} {dest : AlState} (other : dest ≠ .safeop) :
    b.alIn dest = { b with ecat := { b.ecat with al := dest, alError := false, alCode := 0, safeopWaiting := none } } := by
  unfold alIn modEcat
  simp [other]

/-- An entry into SAFE-OP awaits its first RxPDO anew. -/
theorem Bar.alIn_safeop {b : Bar} (other : b.ecat.al ≠ .safeop) : b.alIn .safeop =
    { b with ecat := { b.ecat with al := .safeop, alError := false, alCode := 0, safeopWaiting := none, rxSeen := false } } := by
  unfold alIn modEcat
  simp [other]

theorem Bar.firstPreop_again {b : Bar} (reached : b.ecat.preopReached = true) : b.firstPreop = b := if_pos reached

theorem Bar.startWatchdog_saf (b : Bar) : ∃ w, b.startWatchdog = b.modWdg (fun _ => w) ∧
    (b.saf.wdg.started = false → w.started = true ∧ w.k = 0 ∧ w.tk = b.now ∧ w.inForce = b.wdgSettings) := by
  unfold startWatchdog
  split
  next started => exact ⟨b.saf.wdg, rfl, fun h => absurd (started.symm.trans h) (by decide)⟩
  · exact ⟨_, rfl, fun _ => ⟨rfl, rfl, rfl, rfl⟩⟩

/-- PRE-OP is reached for the first time since reset by a bar that is not in recovery mode. -/
theorem Bar.firstPreop_first {b : Bar} (first : b.ecat.preopReached = false) (normal : b.sec.recovery = false) :
    let c := b.firstPreop
    c.ecat = { b.ecat with preopReached := true } ∧ c.saf.ret.running = true ∧ c.par = b.par ∧
    (b.saf.wdg.started = false → c.saf.wdg.started = true ∧ c.saf.wdg.k = 0 ∧ c.saf.wdg.tk = b.now ∧
      c.saf.wdg.inForce = b.wdgSettings) ∧
    (∀ e : Fin 4, (b.engine e).state = .halted → (c.engine e).state = if b.rwN (0x2A00 + e.val) 3 = 1 then .running else .halted) ∧
    ∀ i : Fin 16, b.tmrAuto i → (c.io.timers[i]).running = true := by
  obtain ⟨w, watched, start⟩ := ((b.modEcat fun e => { e with preopReached := true }).modRet fun r => { r with running := true }).startWatchdog_saf
  unfold firstPreop
  rw [if_neg (by simp [first])]
  dsimp only
  rw [watched, if_neg (by rw [modWdg_sec]; simp [normal])]
  obtain ⟨io, engines, timers⟩ := (((b.modEcat fun e => { e with preopReached := true }).modRet fun r =>
    { r with running := true }).modWdg fun _ => w).autostart_keeps
  refine ⟨io.ecat_eq, ?_, io.par_eq, fun stopped => ?_, engines, timers⟩
  · rw [io.saf_eq]
    rfl
  · rw [io.saf_eq]
    exact start stopped

section
variable {b : Bar}

theorem Bar.requestOp_seen (al : b.ecat.al = .safeop) (seen : b.ecat.rxSeen = true) : b.requestOp =
    ({ b with ecat := { b.ecat with al := .op, alError := false, alCode := 0, safeopWaiting := none } } : Bar).logEvent
      0x0046 0x0408 := by
  unfold requestOp
  rw [al]
  dsimp only
  rw [if_pos seen, alEnter_change (by rw [al]; decide), al, alIn_other (by decide)]
  rfl

theorem Bar.requestOp_unseen (al : b.ecat.al = .safeop) (unseen : b.ecat.rxSeen = false) : b.requestOp = b.alRefuse 0x1B := by
  unfold requestOp
  rw [al]
  exact if_neg (by simp [unseen])

theorem Bar.requestOp_low (al : b.ecat.al = .init ∨ b.ecat.al = .preop) : b.requestOp = b.alRefuse 0x11 := by
  unfold requestOp
  rcases al with al | al
  · rw [al]
  · rw [al]

theorem Bar.requestSafeop_op (sm : Nat) (sync0 : Bool) (pdTime : Option Nat) (al : b.ecat.al = .op) :
    b.requestSafeop sm sync0 pdTime =
      ({ b with ecat := { b.ecat with pdTime := pdTime.getD b.ecat.pdTime, al := .safeop, alError := false, alCode := 0
                                      safeopWaiting := none, rxSeen := false } } : Bar).logEvent 0x0046 0x0804 := by
  have still : (b.modEcat fun e => { e with pdTime := pdTime.getD e.pdTime }).ecat.al = .op := al
  unfold requestSafeop
  dsimp only
  rw [still]
  dsimp only
  rw [alEnter_change (by rw [still]; decide), still, alIn_safeop (by rw [still]; decide)]
  rfl

end

/-! ### The obligation -/

/-- Settles O9, request by request. -/
theorem slaveStateChanges : Obligations.SlaveStateChanges := by
  unfold Obligations.SlaveStateChanges
  intro s t powered b refusal entered
  have preop (mail : Bool) : Answers s (.alRequestPreop t mail) (b.requestPreop mail) :=
    .of_request (fun b => b.requestPreop mail) powered rfl
  have op : Answers s (.alRequestOp t) b.requestOp := .of_request (fun b => b.requestOp) powered rfl
  have fromInit {mail : Bool} (al : b.ecat.al = .init) : b.requestPreop mail =
      if !mail then b.alRefuse 0x16 else if b.saf.power = .reset then b.alRefuse 0x8002 else (b.alEnter .preop).firstPreop := by
    unfold Bar.requestPreop
    rw [al]
  have entry (al : b.ecat.al = .init) : b.alEnter .preop = (entered .preop).logEvent 0x0046 0x0102 := by
    rw [Bar.alEnter_change (by rw [al]; decide), al, Bar.alIn_other (by decide)]
    rfl
  refine ⟨fun al => ?_, fun al starting => ?_, fun al started reached => ?_, fun al started first normal => ?_,
    fun al sm2 sm3 sync0 pdTime => ?_, fun al seen => ?_, fun al unseen => ?_, fun al => ?_, ?_, ?_⟩
  · have answer := preop false
    rw [fromInit al] at answer
    exact answer
  · have answer := preop true
    rw [fromInit al, if_neg (by decide), if_pos starting] at answer
    exact answer
  · have answer := preop true
    rw [fromInit al, if_neg (by decide), if_neg started, entry al,
      Bar.firstPreop_again (b := (entered .preop).logEvent 0x0046 0x0102) reached] at answer
    exact answer
  · have answer := preop true
    rw [fromInit al, if_neg (by decide), if_neg started, entry al] at answer
    obtain ⟨ecat, running, par, watchdog, engines, timers⟩ :=
      Bar.firstPreop_first (b := (entered .preop).logEvent 0x0046 0x0102) first normal
    refine ⟨_, answer, ?_, ?_, running, par, watchdog, engines, fun i auto head fits => timers i ⟨auto, head, fits⟩⟩
    · rw [ecat]
      rfl
    · rw [ecat]
  · have answer : Answers s (.alRequestSafeop t sm2 sm3 ⟨sync0, pdTime⟩) (b.requestSafeop (smCode sm2 sm3) sync0 pdTime) :=
      .of_request (fun b => b.requestSafeop (smCode sm2 sm3) sync0 pdTime) powered rfl
    rw [Bar.requestSafeop_op _ _ _ al] at answer
    exact answer
  · rw [Bar.requestOp_seen al seen] at op
    exact op
  · rw [Bar.requestOp_unseen al unseen] at op
    exact op
  · rw [Bar.requestOp_low al] at op
    exact op
  · exact .of_request (fun b => b.requestBoot true) powered rfl
  · exact .of_request (fun b => b.requestBoot false) powered rfl

end Sys2Proof.Machine
end

section
/-! Sessions of the slave begin and end (R26, R43, R329, R331). -/

namespace Sys2Proof.Machine

/-! ### PRE-OP to SAFE-OP (R329, Table 11-2) -/

/-- The code of the first check of PRE-OP to SAFE-OP that fails; 0 if none does. -/
def Bar.safeopCode (b : Bar) (sm2 sm3 : Nat) : Nat :=
  if sm2 ≠ 80 then 0x1D else if sm3 ≠ 168 then 0x1E else if b.rwN 0x1C32 1 = 2 ∧ b.cap.tb.sync0 = false then 0x30
  else if b.rwN 0x1C32 2 < 62500 ∨ 4000000 < b.rwN 0x1C32 2 then 0x35 else if b.sec.recovery = true then 0x8004
  else if b.dlv.admState ≠ 1 then 0x8001 else if b.wdgSettings.hc - b.wdgSettings.ho < 2 * b.rwN 0x1C32 2 then 0x8003 else 0

/-- A chain of checks refuses with a code, and with none where the code is 0. -/
def Denies (code : Nat) (denied : Option (Nat × Nat)) : Prop :=
  (code ≠ 0 → ∃ detail, denied = some (code, detail)) ∧ (code = 0 → denied = none)

theorem Denies.nothing : Denies 0 none := ⟨fun some_ => absurd rfl some_, fun _ => rfl⟩

/-- The first check that fails refuses; else the next ones do. -/
theorem Denies.first {p : Prop} [Decidable p] {code detail rest : Nat} {denied : Option (Nat × Nat)} (fails : code ≠ 0)
    (next : Denies rest denied) : Denies (if p then code else rest) (if p then some (code, detail) else denied) := by
  by_cases here : p
  · rw [if_pos here, if_pos here]
    exact ⟨fun _ => ⟨detail, rfl⟩, fun zero => absurd zero fails⟩
  · rw [if_neg here, if_neg here]
    exact next

theorem Bar.safeopDenied_code (b : Bar) (sm2 sm3 : Nat) :
    (b.safeopCode sm2 sm3 ≠ 0 → ∃ detail, b.safeopDenied (smCode sm2 sm3) = some (b.safeopCode sm2 sm3, detail)) ∧
    (b.safeopCode sm2 sm3 = 0 → b.safeopDenied (smCode sm2 sm3) = none) := by
  unfold safeopCode safeopDenied smCode
  dsimp only
  generalize b.rwN 0x1C32 2 = cycle
  generalize b.rwN 0x1C32 1 = mode
  generalize b.wdgSettings.hc - b.wdgSettings.ho = window
  by_cases length2 : sm2 ≠ 80
  · rw [if_pos length2, if_pos length2]
    exact ⟨fun _ => ⟨0, if_pos (by decide)⟩, fun zero => absurd zero (by decide)⟩
  rw [if_neg length2, if_neg length2]
  by_cases length3 : sm3 ≠ 168
  · rw [if_pos length3, if_pos length3]
    exact ⟨fun _ => ⟨0, if_pos (by decide)⟩, fun zero => absurd zero (by decide)⟩
  rw [if_neg length3, if_neg length3, if_neg (by decide : ¬(0 ≠ 0))]
  simp only [Bool.and_eq_true, decide_eq_true_eq, Bool.not_eq_true', Bool.or_eq_true]
  exact Denies.first (by decide) <| .first (by decide) <| .first (by decide) <| .first (by decide) <| .first (by decide) .nothing

/-- A request that a check refuses leaves the parameters, capture and storage as they are. -/
theorem Bar.enterSafeop_denied {b : Bar} {sm code detail : Nat} (denied : b.safeopDenied sm = some (code, detail)) :
    let c := b.enterSafeop sm
    c.ecat = { b.ecat with alError := true, alCode := code, safeopWaiting := none } ∧ c.par = b.par ∧ c.cap = b.cap ∧ c.sto = b.sto := by
  unfold enterSafeop
  rw [denied]
  dsimp only
  split
  · exact ⟨rfl, rfl, rfl, rfl⟩
  · exact ⟨rfl, rfl, rfl, rfl⟩

theorem Bar.appendEntry_session (b : Bar) (type : Nat) (body : List Byte) : (b.appendEntry type body).sto.session = b.sto.session := by
  unfold appendEntry appendBody
  extract_lets s head entry index room mark appended due
  have same : appended.sto.session = b.sto.session := rfl
  clear_value appended due
  split
  · exact same
  · split
    · exact same
    · exact same

/-- A session that has begun: counts and numbers from 0 on, no item, the session's number raised, the live set as it was. -/
structure Bar.Begun (b c : Bar) : Prop where
  al : c.ecat.al = b.ecat.al
  pdTime : c.ecat.pdTime = b.ecat.pdTime
  session : c.ecat.session = true
  rxSeen : c.ecat.rxSeen = false
  vq : c.ecat.vq = []
  vqNext : c.ecat.vqNext = 0
  lines : c.lines = 0
  items : c.cap.items = []
  nextSeq : c.cap.nextSeq = 0
  number : c.sto.session = (b.sto.session + 1) % 2 ^ 32
  live : c.par.live = b.par.live
  liveGen : c.par.liveGen = b.par.liveGen

theorem Bar.Begun.handsOver {b c d : Bar} (h : b.Begun c) (over_ : c.HandsOver d) (same : d.sto.session = c.sto.session) : b.Begun d where
  al := (congrArg Ecat.al over_.ecat_eq).trans h.al
  pdTime := (congrArg Ecat.pdTime over_.ecat_eq).trans h.pdTime
  session := (congrArg Ecat.session over_.ecat_eq).trans h.session
  rxSeen := (congrArg Ecat.rxSeen over_.ecat_eq).trans h.rxSeen
  vq := (congrArg Ecat.vq over_.ecat_eq).trans h.vq
  vqNext := (congrArg Ecat.vqNext over_.ecat_eq).trans h.vqNext
  lines := over_.lines_eq.trans h.lines
  items := over_.items_eq.trans h.items
  nextSeq := (Eq.trans (congrArg (·.cap.nextSeq) over_) rfl).trans h.nextSeq
  number := same.trans h.number
  live := (congrArg Params.live over_.par_eq).trans h.live
  liveGen := (congrArg Params.liveGen over_.par_eq).trans h.liveGen

theorem Bar.Begun.entry {b c : Bar} (h : b.Begun c) (type : Nat) (body : List Byte) : b.Begun (c.appendEntry type body) :=
  h.handsOver (c.appendBody_handsOver type fun _ => body) (c.appendEntry_session type body)

theorem Bar.placeFree_begun {b c : Bar} (h : b.Begun c) : b.Begun c.placeFree := by
  unfold placeFree
  split
  · exact ⟨h.al, h.pdTime, h.session, h.rxSeen, h.vq, h.vqNext, h.lines, h.items, h.nextSeq, h.number, h.live, h.liveGen⟩
  · exact h

theorem Bar.startSession_begun (b : Bar) : b.Begun b.startSession := by
  have counted : b.Begun (((b.modEcat Ecat.begin).beginCapture.restartCounts).modSto fun s =>
      { s with session := (s.session + 1) % 2 ^ 32 }) :=
    { al := rfl, pdTime := rfl, session := rfl, rxSeen := rfl, vq := rfl, vqNext := rfl, lines := rfl, items := rfl, nextSeq := rfl
      number := rfl, live := rfl, liveGen := rfl }
  have h := placeFree_begun counted
  unfold startSession
  extract_lets restarted placed
  have placedBegun : b.Begun (placed.modWdg fun w => { w with hostFrom := none }) :=
    ⟨h.al, h.pdTime, h.session, h.rxSeen, h.vq, h.vqNext, h.lines, h.items, h.nextSeq, h.number, h.live, h.liveGen⟩
  exact placedBegun.entry _ _

theorem Bar.calLeavePreop_keeps (b : Bar) : ∃ sec log sm1, b.calLeavePreop = { b with sec := sec, log := log, sm1 := sm1 } := by
  unfold calLeavePreop
  split
  · unfold calCheck
    dsimp only
    split
    · exact ⟨_, _, _, rfl⟩
    · exact ⟨_, _, _, rfl⟩
  · exact ⟨_, _, _, rfl⟩

theorem Bar.enterSafeop_granted {b : Bar} {sm : Nat} (al : b.ecat.al = .preop) (granted : b.safeopDenied sm = none) :
    ∃ c : Bar, c.Begun (b.enterSafeop sm) ∧ c.ecat.al = .safeop ∧ c.ecat.pdTime = b.ecat.pdTime ∧ c.sto = b.sto ∧ c.par = b.par := by
  obtain ⟨sec, log, sm1, left⟩ := b.calLeavePreop_keeps
  have before : b.calLeavePreop.ecat = b.ecat := by rw [left]
  have entered : b.calLeavePreop.alEnter .safeop = (b.calLeavePreop.alIn .safeop).logEvent 0x0046 0x0204 := by
    rw [alEnter_change (by rw [before, al]; decide), before, al]
    rfl
  unfold enterSafeop
  rw [granted]
  rw [entered]
  have time : (b.calLeavePreop.alIn .safeop).ecat.pdTime = b.ecat.pdTime :=
    (show _ = b.calLeavePreop.ecat.pdTime from rfl).trans (congrArg Ecat.pdTime before)
  have sto : (b.calLeavePreop.alIn .safeop).sto = b.sto := (show _ = b.calLeavePreop.sto from rfl).trans (by rw [left])
  have par : (b.calLeavePreop.alIn .safeop).par = b.par := (show _ = b.calLeavePreop.par from rfl).trans (by rw [left])
  exact ⟨_, startSession_begun _, rfl, time, sto, par⟩

/-- Settles O10, by the first check that fails. -/
theorem safeopIsCheckedInOrder : Obligations.SafeopIsCheckedInOrder := by
  unfold Obligations.SafeopIsCheckedInOrder
  intro s t sm2 sm3 sync0 pdTime running al idle b cycle window code
  have answer : Answers s (.alRequestSafeop t sm2 sm3 ⟨sync0, pdTime⟩) ((s.bar.at t).requestSafeop (smCode sm2 sm3) sync0 pdTime) :=
    .of_request (fun b => b.requestSafeop (smCode sm2 sm3) sync0 pdTime) (.inl running) rfl
  have enters : (s.bar.at t).requestSafeop (smCode sm2 sm3) sync0 pdTime = b.enterSafeop (smCode sm2 sm3) := by
    have preop : ((s.bar.at t).modEcat fun e => { e with pdTime := pdTime.getD e.pdTime }).ecat.al = .preop := al
    unfold Bar.requestSafeop
    dsimp only
    rw [preop]
    exact if_neg idle
  rw [enters] at answer
  obtain ⟨denied, granted⟩ := b.safeopDenied_code sm2 sm3
  refine ⟨fun fails => ?_, fun passes => ?_⟩
  · obtain ⟨detail, denied⟩ := denied fails
    exact ⟨_, answer, Bar.enterSafeop_denied denied⟩
  · obtain ⟨c, h, state, pdTime, sto, par⟩ := Bar.enterSafeop_granted (b := b) al (granted passes)
    exact ⟨_, answer, h.al.trans state, h.session, h.pdTime.trans pdTime, h.rxSeen, h.vq, h.vqNext, h.lines, h.items, h.nextSeq,
      sto ▸ h.number, par ▸ h.live, par ▸ h.liveGen⟩

end Sys2Proof.Machine
end

section
/-! A change to PRE-OP or INIT ends the session and publishes every item (R43, R331). -/

namespace Sys2Proof.Machine

/-! ### What the end of a session leaves (R331) -/

/-- From b to c the state of the slave, its session and the set in validation or armed stand. -/
structure Bar.SlaveKept (b c : Bar) : Prop where
  al : c.ecat.al = b.ecat.al
  session : c.ecat.session = b.ecat.session
  armedState : c.par.armedState = b.par.armedState
  armedGen : c.par.armedGen = b.par.armedGen
  armRequest : c.par.armRequest = b.par.armRequest

section
variable {b c d : Bar}

theorem Bar.SlaveKept.refl (b : Bar) : b.SlaveKept b := ⟨rfl, rfl, rfl, rfl, rfl⟩

theorem Bar.SlaveKept.trans (first : b.SlaveKept c) (second : c.SlaveKept d) : b.SlaveKept d :=
  ⟨second.al.trans first.al, second.session.trans first.session, second.armedState.trans first.armedState,
    second.armedGen.trans first.armedGen, second.armRequest.trans first.armRequest⟩

theorem Bar.SlaveKept.of_par (al : c.ecat.al = b.ecat.al) (session : c.ecat.session = b.ecat.session) (par : c.par = b.par) :
    b.SlaveKept c :=
  ⟨al, session, congrArg _ par, congrArg _ par, congrArg _ par⟩

theorem Bar.Publishes.slaveKept (h : b.Publishes c) : b.SlaveKept c := .of_par h.al_eq h.session_eq h.par_eq

theorem Bar.SlaveKept.ite {p : Prop} [Decidable p] (yes : b.SlaveKept c) (no : b.SlaveKept d) : b.SlaveKept (if p then c else d) := by
  split
  · exact yes
  · exact no

end

section
variable (b : Bar)

theorem Bar.takeAnnouncement_slaveKept (slot sampled : Nat) : b.SlaveKept (b.takeAnnouncement slot sampled) := by
  unfold takeAnnouncement
  extract_lets lane number handle net ready ix
  split
  · exact (publish_publishes ..).slaveKept
  · rcases b.par.laneSets[laneIx lane] with ⟨set, gen⟩
    dsimp only
    have adds (items : List Item) : b.SlaveKept (b.modCap fun c => { c with items := items }) := .of_par rfl rfl rfl
    exact .ite ((adds _).trans (publishItem_publishes ..).slaveKept) (adds _)

theorem Bar.scanAnnouncement_slaveKept (fuel : Nat) : b.SlaveKept (b.scanAnnouncement fuel) := by
  induction fuel generalizing b with
  | zero => exact .refl b
  | succ fuel ih =>
    unfold scanAnnouncement
    extract_lets e slot d
    refine .ite (.refl b) <| .ite (.of_par rfl rfl rfl) <| .ite ?_ ?_
    · exact .trans (c := b.modEcat fun e => { e with
        annSlot := e.annSlot + 1, annTaken := (e.annTaken + 1) % 65536, annCount := (e.annCount + 1) % 2 ^ 32 })
        (.of_par rfl rfl rfl) (takeAnnouncement_slaveKept ..)
    · exact .trans (c := b.modEcat fun e => { e with annSlot := e.annSlot + 1 }) (.of_par rfl rfl rfl) (ih _)

theorem Bar.snRelease_par : b.snRelease.par = b.par := by
  unfold snRelease requestRelease
  split
  · split
    · rfl
    · dsimp only
      split
      · rfl
      · rfl
  · rfl

theorem Bar.announcement_slaveKept : b.SlaveKept b.announcement := by
  have released : b.SlaveKept b.snRelease := by
    refine .of_par ?_ ?_ b.snRelease_par
    · rw [snRelease_ecat]
    · rw [snRelease_ecat]
  exact released.trans (scanAnnouncement_slaveKept ..)

theorem Bar.checkIn_slaveKept (i : Fin 8) (t : Nat) : b.SlaveKept (b.checkIn i t) := by
  unfold checkIn
  extract_lets w times noted
  refine .ite (.refl b) (.ite ?_ (.of_par rfl rfl rfl))
  split
  · exact .of_par rfl rfl rfl
  · exact .of_par rfl rfl rfl

theorem Bar.hostCheckin_slaveKept (seven : Bool) : b.SlaveKept (b.hostCheckin seven) := by
  unfold hostCheckin
  extract_lets t
  refine .ite (.ite ?_ ?_) (.refl b)
  · exact .trans (c := b.modEcat _) (.of_par rfl rfl rfl) (checkIn_slaveKept ..)
  · exact .trans (c := b.modEcat _) (.of_par rfl rfl rfl) (checkIn_slaveKept ..)

theorem Bar.applyLineCommand_slaveKept : b.SlaveKept b.applyLineCommand := by
  cases pending : b.ecat.applyPend with
  | false =>
    rw [applyLineCommand_idle pending]
    exact .refl b
  | true =>
    cases denied : b.applyLineDenied with
    | some code =>
      rw [applyLineCommand_refused pending denied]
      exact .of_par rfl rfl rfl
    | none =>
      rw [applyLineCommand_moved pending denied]
      exact ⟨rfl, rfl, rfl, rfl, rfl⟩

theorem Bar.settleCycle_slaveKept : b.SlaveKept b.settleCycle := by
  unfold settleCycle
  exact (announcement_slaveKept _).trans <| (announcement_slaveKept _).trans <| (announcement_slaveKept _).trans <|
    (announcement_slaveKept _).trans <| (hostCheckin_slaveKept ..).trans <| (hostCheckin_slaveKept ..).trans (applyLineCommand_slaveKept _)

theorem Bar.publishEnd_slaveKept : b.SlaveKept b.publishEnd :=
  (b.modItems_publishes _).slaveKept.trans <| (publishAll_publishes _).slaveKept.trans (modItems_publishes ..).slaveKept

/-- Every item has its verdict at the end of a session (R331). -/
theorem Bar.publishEnd_items : ∀ i ∈ b.publishEnd.cap.items, i.published = true := by
  intro i member
  unfold publishEnd at member
  simp only [modItems, modCap_cap, publishAll_items, List.mem_map] at member
  obtain ⟨_, ⟨_, -, rfl⟩, rfl⟩ := member
  rfl

end

/-- From b to c the slave stands, and with it the items. -/
structure Bar.EndKept (b c : Bar) : Prop extends Bar.SlaveKept b c where
  items : c.cap.items = b.cap.items

section
variable {b c d : Bar}

theorem Bar.EndKept.of_eq (ecat : c.ecat = b.ecat) (par : c.par = b.par) (items : c.cap.items = b.cap.items) : b.EndKept c where
  toSlaveKept := .of_par (congrArg _ ecat) (congrArg _ ecat) par
  items := items

theorem Bar.EndKept.refl (b : Bar) : b.EndKept b := .of_eq rfl rfl rfl

theorem Bar.EndKept.trans (first : b.EndKept c) (second : c.EndKept d) : b.EndKept d where
  toSlaveKept := first.toSlaveKept.trans second.toSlaveKept
  items := second.items.trans first.items

theorem Bar.HandsOver.endKept (h : b.HandsOver c) : b.EndKept c := .of_eq h.ecat_eq h.par_eq h.items_eq

end

section
variable (b : Bar)

theorem Bar.endRow_endKept (k : Nat) : b.EndKept (b.endRow k) := by
  unfold endRow
  split
  next lines _ =>
    exact .trans (c := b.modCap fun c => { c with codRows := c.codRows.filter (·.1 ≠ k) }) (.of_eq rfl rfl rfl)
      (emitChunk_handsOver ..).endKept
  · exact .refl b

theorem Bar.endRows_endKept : b.EndKept b.endRows :=
  List.foldlRecOn (motive := b.EndKept) _ _ (.refl b) fun c kept k _ => kept.trans (c.endRow_endKept k)

theorem Bar.endWindow_endKept (w1 : Nat) : b.EndKept (b.endWindow w1) := by
  unfold endWindow
  split
  · exact .of_eq rfl rfl rfl
  · exact .refl b

theorem Bar.checkIllum_endKept : b.EndKept b.checkIllum :=
  .trans (c := b.modCap _) (.of_eq rfl rfl rfl) <|
    List.foldlRecOn (motive := Bar.EndKept _) _ _ (.refl _) fun _ kept _ _ => kept.trans (.of_eq rfl rfl rfl)

theorem Bar.updateAdvice_endKept : b.EndKept b.updateAdvice := by
  unfold updateAdvice
  extract_lets a before advised
  split
  · exact .of_eq rfl rfl rfl
  · exact .of_eq rfl rfl rfl

theorem Bar.applyPStep_endKept (step : Nat) (alone : Bool) : b.EndKept (b.applyPStep step alone) := by
  unfold applyPStep
  extract_lets before stepped
  have steps : b.EndKept stepped := .of_eq rfl rfl rfl
  split
  · exact .refl b
  · split
    · exact steps.trans <| (checkIllum_endKept _).trans (updateAdvice_endKept _)
    · exact steps

theorem Bar.settlePStep_endKept (n : Nat) : b.EndKept (b.settlePStep n) := by
  unfold settlePStep
  split
  · exact .refl b
  · exact .trans (c := b.modCap fun c => { c with pstepDue := c.pstepDue.filter fun q => decide (n < q.1) }) (.of_eq rfl rfl rfl)
      (applyPStep_endKept ..)

end

/-- The session has ended: none runs, every item has its verdict, an armed set is gone and one in validation stays. -/
structure Bar.Ended (b c : Bar) : Prop where
  al : c.ecat.al = b.ecat.al
  session : c.ecat.session = false
  items : ∀ i ∈ c.cap.items, i.published = true
  armed : b.par.armedState = .armed → c.par.armedState = .empty ∧ c.par.armedGen = 0
  validating : b.par.armedState = .validating → c.par.armedState = .validating ∧ c.par.armRequest = b.par.armRequest

theorem Bar.Ended.endKept {b c d : Bar} (h : b.Ended c) (kept : c.EndKept d) : b.Ended d where
  al := kept.al.trans h.al
  session := kept.session.trans h.session
  items := fun i member => h.items i (kept.items ▸ member)
  armed := fun armed => ⟨kept.armedState.trans (h.armed armed).1, kept.armedGen.trans (h.armed armed).2⟩
  validating := fun runs => ⟨kept.armedState.trans (h.validating runs).1, kept.armRequest.trans (h.validating runs).2⟩

/-- What discarding an armed set leaves, before the slave's session is marked ended. -/
theorem Bar.discardArmed_keeps (b : Bar) : b.discardArmed.ecat = b.ecat ∧ b.discardArmed.cap = b.cap ∧
    (b.par.armedState = .armed → b.discardArmed.par.armedState = .empty ∧ b.discardArmed.par.armedGen = 0) ∧
    (b.par.armedState = .validating → b.discardArmed.par = b.par) := by
  unfold discardArmed
  split
  next armed => exact ⟨rfl, rfl, fun _ => ⟨rfl, rfl⟩, fun runs => absurd (armed.symm.trans runs) (by decide)⟩
  next other => exact ⟨rfl, rfl, fun armed => absurd armed other, fun _ => rfl⟩

theorem Bar.endSession_ended {b : Bar} (runs : b.ecat.session = true) : b.Ended b.endSession := by
  unfold endSession
  rw [if_pos runs]
  have settled : b.SlaveKept b.settleCycle.publishEnd := b.settleCycle_slaveKept.trans (publishEnd_slaveKept _)
  have all := b.settleCycle.publishEnd_items
  generalize b.settleCycle.publishEnd = done at settled all
  extract_lets windowed discarded dark ended released
  have forms : done.EndKept windowed.formAllItems :=
    (endRows_endKept _).trans <| (endWindow_endKept ..).trans (formAllItems_handsOver _).endKept
  obtain ⟨ecat, cap, armed, validating⟩ := windowed.formAllItems.discardArmed_keeps
  have kept := settled.trans forms.toSlaveKept
  have ends : b.Ended (released.modEcat fun e => { e with session := false }) := {
    al := (congrArg Ecat.al ecat).trans kept.al
    session := rfl
    items := fun i member => all i (forms.items ▸ congrArg Capture.items cap ▸ member)
    armed := fun h => armed (kept.armedState.trans h)
    validating := fun h => by
      have same := validating (kept.armedState.trans h)
      exact ⟨(congrArg Params.armedState same).trans (kept.armedState.trans h), (congrArg Params.armRequest same).trans kept.armRequest⟩ }
  exact ends.endKept (settlePStep_endKept ..)

/-! ### The obligation -/

theorem Bar.requestPreop_down {b : Bar} (mail : Bool) (cyclic : b.ecat.al = .safeop ∨ b.ecat.al = .op) :
    b.requestPreop mail = b.endSession.alEnter .preop := by
  unfold requestPreop
  rcases cyclic with al | al
  · rw [al]
  · rw [al]

/-- What the end of a transfer leaves: the slave, the parameters and the items. -/
def Bar.TransferEnds (b c : Bar) : Prop := c.ecat = b.ecat ∧ c.par = b.par ∧ c.cap.items = b.cap.items

section
variable {b c d : Bar}

theorem Bar.TransferEnds.refl (b : Bar) : b.TransferEnds b := ⟨rfl, rfl, rfl⟩

theorem Bar.TransferEnds.trans (first : b.TransferEnds c) (second : c.TransferEnds d) : b.TransferEnds d := by
  obtain ⟨ecat, par, items⟩ := first
  obtain ⟨ecat', par', items'⟩ := second
  exact ⟨ecat'.trans ecat, par'.trans par, items'.trans items⟩

theorem Bar.HandsOver.transferEnds (h : b.HandsOver c) : b.TransferEnds c := ⟨h.ecat_eq, h.par_eq, h.items_eq⟩

end

section
variable (b : Bar)

theorem Bar.foeError_transferEnds (error detail : Nat) (logIt : Bool) : b.TransferEnds (b.foeError error detail logIt) := by
  unfold foeError
  dsimp only
  split
  · exact ⟨rfl, rfl, rfl⟩
  · exact ⟨rfl, rfl, rfl⟩

theorem Bar.failRun_transferEnds (v : Bool) (k code : Nat) : b.TransferEnds (b.failRun v k code) := by
  unfold failRun
  split
  · exact .refl b
  · dsimp only
    split
    · exact ⟨rfl, rfl, rfl⟩
    · split
      · exact ⟨rfl, rfl, rfl⟩
      · exact ⟨rfl, rfl, rfl⟩

theorem Bar.containerInvalid_transferEnds (v : Bool) (k : Nat) : b.TransferEnds (b.containerInvalid v k) := by
  unfold containerInvalid
  split
  · exact .refl b
  · exact ⟨rfl, rfl, rfl⟩

theorem Bar.ingestAnswer_transferEnds (i : Ingest) : b.TransferEnds (b.ingestAnswer i) := by
  unfold ingestAnswer
  extract_lets status last freed
  split
  · split
    · exact ⟨rfl, rfl, rfl⟩
    · exact .trans (c := freed) ⟨rfl, rfl, rfl⟩ (foeError_transferEnds ..)
  · split
    · exact .refl b
    next p _ =>
      exact .trans (c := b.modSession p fun s => { s with upload := none }) ⟨rfl, rfl, rfl⟩ (sendUnit_handsOver ..).transferEnds

theorem Bar.cutIngest_transferEnds (v : Bool) (k code : Nat) : b.TransferEnds (b.cutIngest v k code) := by
  unfold cutIngest
  split
  · exact .refl b
  · extract_lets freed failed cut
    have fails : freed.TransferEnds failed := by
      unfold failed
      split
      · exact failRun_transferEnds ..
      · exact .refl _
    have cuts : failed.TransferEnds cut := by
      unfold cut
      split
      · exact .refl _
      · exact containerInvalid_transferEnds ..
    have all : b.TransferEnds cut := .trans (c := freed) ⟨rfl, rfl, rfl⟩ (fails.trans cuts)
    split
    · exact all.trans <| .trans (c := cut.modCap _) ⟨rfl, rfl, rfl⟩ (ingestAnswer_transferEnds ..)
    · exact all

/-- INIT aborts what the mailbox has open: transactions of the bench channel alone go on waiting. -/
theorem Bar.abortTransfers_keeps : b.abortTransfers.ecat = b.ecat ∧ b.abortTransfers.cap.items = b.cap.items ∧
    b.abortTransfers.seg = none ∧ b.abortTransfers.foe = none ∧ b.abortTransfers.par.armedState = b.par.armedState ∧
    b.abortTransfers.par.armedGen = b.par.armedGen ∧ b.abortTransfers.par.waiting = b.par.waiting.filter fun r => r.ch = .bench := by
  obtain ⟨ecat, par, items⟩ :=
    ((b.modPar fun p => { p with waiting := p.waiting.filter fun r => r.ch = .bench }).loseMailArm).cutIngest_transferEnds true 0 0x5040
  have state := congrArg Params.armedState par
  have gen := congrArg Params.armedGen par
  exact ⟨ecat, items, rfl, rfl, state, gen, congrArg Params.waiting par⟩

theorem Bar.alEnter_keeps (dest : AlState) : (b.alEnter dest).ecat = (b.alIn dest).ecat ∧ (b.alEnter dest).par = b.par ∧
    (b.alEnter dest).cap = b.cap ∧ (b.alEnter dest).seg = b.seg ∧ (b.alEnter dest).foe = b.foe := by
  unfold alEnter
  dsimp only
  split
  · exact ⟨rfl, rfl, rfl, rfl, rfl⟩
  · exact ⟨rfl, rfl, rfl, rfl, rfl⟩

end

/-- A request for INIT ends the session and the transfers; what the bench channel has waiting runs unless a validation does. -/
theorem Bar.requestInit_drains (b : Bar) : ∃ (c : Bar) (ws : List SdoRequest), b.requestInit = c.drain ws ∧
    let left := if b.ecat.al = .preop then b.calLeavePreop else b.endSession
    (ws = if left.par.armedState = .validating then [] else left.par.waiting.filter fun r => r.ch = .bench) ∧
    c.ecat = (left.alIn .init).ecat ∧ c.seg = none ∧ c.foe = none ∧ c.cap.items = left.cap.items ∧
    c.par.armedState = left.par.armedState ∧ c.par.armedGen = left.par.armedGen := by
  unfold requestInit
  extract_lets left down
  obtain ⟨ecat, items, seg, foe, state, gen, waiting⟩ := left.abortTransfers_keeps
  obtain ⟨ecat', par', cap', seg', foe'⟩ := left.abortTransfers.alEnter_keeps .init
  have slave : down.ecat = (left.alIn .init).ecat := by
    rw [ecat', alIn_other (by decide), alIn_other (by decide), ecat]
  have itemsKept : down.cap.items = left.cap.items := (congrArg Capture.items cap').trans items
  have stateKept : down.par.armedState = left.par.armedState := (congrArg Params.armedState par').trans state
  have genKept : down.par.armedGen = left.par.armedGen := (congrArg Params.armedGen par').trans gen
  have waitingKept : down.par.waiting = left.par.waiting.filter fun r => r.ch = .bench := (congrArg Params.waiting par').trans waiting
  split
  next validating =>
    exact ⟨down, [], rfl, (if_pos (stateKept.symm.trans validating)).symm, slave, seg'.trans seg, foe'.trans foe, itemsKept,
      stateKept, genKept⟩
  next other =>
    refine ⟨down.modPar fun p => { p with waiting := [] }, _, rfl, ?_, slave, seg'.trans seg, foe'.trans foe, itemsKept, stateKept, genKept⟩
    rw [if_neg (stateKept ▸ other), waitingKept]

/-- Settles O11: the way down to PRE-OP, and the one to INIT with the bench transactions that had waited. -/
theorem leavingASessionPublishesEverything : Obligations.LeavingASessionPublishesEverything := by
  unfold Obligations.LeavingASessionPublishesEverything
  refine ⟨fun s t mail running cyclic session => ?_, fun s t running => ?_⟩
  · have answer : Answers s (.alRequestPreop t mail) ((s.bar.at t).requestPreop mail) :=
      .of_request (fun b => b.requestPreop mail) (.inl running) rfl
    rw [Bar.requestPreop_down (b := s.bar.at t) mail cyclic] at answer
    have ended := Bar.endSession_ended (b := s.bar.at t) session
    have al : (s.bar.at t).endSession.ecat.al = s.bar.ecat.al := ended.al
    rw [Bar.alEnter_change (by rw [al]; rcases cyclic with h | h <;> rw [h] <;> decide), Bar.alIn_other (by decide), al] at answer
    refine ⟨_, answer, rfl, rfl, rfl, ended.session, ended.items, ended.armed, ended.validating, ?_⟩
    rcases cyclic with h | h <;> rw [h] <;> rfl
  · have answer : Answers s (.alRequestInit t) (s.bar.at t).requestInit := .of_request (fun b => b.requestInit) (.inl running) rfl
    obtain ⟨c, ws, drains, left⟩ := (s.bar.at t).requestInit_drains
    extract_lets ended at left
    obtain ⟨waiting, ecat, seg, foe, items, state, gen⟩ := left
    rw [drains] at answer
    refine ⟨c, ws, answer, fun r member => ?_, fun nothing preop idle => ?_, ?_, ?_, ?_, seg, foe, fun other session => ?_⟩
    · rw [waiting] at member
      split at member
      · exact absurd member List.not_mem_nil
      · exact of_decide_eq_true (List.mem_filter.mp member).2
    · have par : ended.par = s.bar.par := by
        obtain ⟨_, _, _, leaves⟩ := (s.bar.at t).calLeavePreop_keeps
        unfold ended
        rw [if_pos (show (s.bar.at t).ecat.al = .preop from preop), leaves]
        rfl
      rw [waiting, par, nothing]
      split
      · rfl
      · rfl
    · rw [ecat]
      rfl
    · rw [ecat]
      rfl
    · rw [ecat]
      rfl
    · have down : ended = (s.bar.at t).endSession := if_neg other
      have h := Bar.endSession_ended (b := s.bar.at t) session
      rw [down] at ecat items state gen
      refine ⟨?_, fun i member => h.items i (items ▸ member), fun armed => ?_⟩
      · rw [ecat]
        exact h.session
      · obtain ⟨empty, none_⟩ := h.armed armed
        exact ⟨state.trans empty, gen.trans none_⟩

end Sys2Proof.Machine
end

section
/-! The process data watchdog and the SDO server (R332, R335). -/

namespace Sys2Proof.Machine

/-- A bar in OP that has received its RxPDO, with a process data watchdog time of 1 ns. -/
def watchedBar : Bar :=
  { Bar.reset with
    saf := { Safety.reset with power := .running }
    ecat := { Ecat.reset with al := .op, rxSeen := true, pdTime := 1 } }

/-- Refutes O15: the watchdog's drop to SAFE-OP awaits the next RxPDO anew (R329), so it clears what OP had received, which the
statement's state after it keeps. The bar of the counterexample is in OP, has received an RxPDO, and its watchdog time has passed. -/
theorem not_sdoServerAnswersAndAborts : ¬ Obligations.SdoServerAnswersAndAborts := by
  unfold Obligations.SdoServerAnswersAndAborts
  intro h
  let s : State := { State.reset with bar := watchedBar }
  have running : s.bar.alive = true := by decide
  obtain ⟨-, -, -, -, -, -, -, -, -, -, expires, -⟩ := h.1 s 40 0 0 running
  have claimed := expires (by decide) (by decide) (by decide)
  have acts : Answers s (.smWatchdog 40) (s.bar.at 40).smWatchdog := .of_live (·.smWatchdog) running rfl
  have same := congrArg (·.ecat.rxSeen) (claimed.after_unique acts)
  exact absurd same (by decide +kernel)

end Sys2Proof.Machine
end

section
/-! Requests and data packets over FoE (R333, R349, R350, Table 11-12). -/

namespace Sys2Proof.Machine

/-- An answer, said in another way. -/
theorem Answers.congr {s : State} {c : Instr} {b d : Bar} (answer : Answers s c b) (same : b = d) : Answers s c d := same ▸ answer

/-! ### Requests (R350) -/

section
variable {b : Bar}

/-- INIT has no mailbox. -/
theorem Bar.foeRequest_init (f : FoeFile) (serve : Bar → Bar) (al : b.ecat.al = .init) : b.foeRequest f serve = b := if_pos al

theorem Bar.foeRequest_denied {f : FoeFile} {error detail : Nat} (serve : Bar → Bar) (al : b.ecat.al ≠ .init)
    (denied : b.foeDenied f = some (error, detail)) : b.foeRequest f serve = b.foeError error detail true := by
  unfold foeRequest
  rw [if_neg al, denied]

/-- A transfer that runs keeps every request out. -/
theorem Bar.foeDenied_busy (f : FoeFile) {x : FoeTransfer} (runs : b.foe = some x) : b.foeDenied f = some (0x8000, 0x34) := by
  unfold foeDenied
  rw [runs]
  rfl

/-- A file that PRE-OP alone takes. -/
theorem Bar.foeDenied_state {f : FoeFile} {code : Nat} (idle : b.foe = none) (normal : b.sec.recovery = false)
    (preop : foePreop f = some code) (other : b.ecat.al ≠ .preop) : b.foeDenied f = some (0x8002, code) := by
  unfold foeDenied
  rw [idle, normal, preop]
  exact if_neg other

theorem Bar.foeUnknown_init (f : Option FoeFile) (al : b.ecat.al = .init) : b.foeUnknown f = b := if_pos al

theorem Bar.foeUnknown_busy (f : Option FoeFile) {x : FoeTransfer} (al : b.ecat.al ≠ .init) (runs : b.foe = some x) :
    b.foeUnknown f = b.foeError 0x8000 0x34 true := by
  unfold foeUnknown
  rw [if_neg al, runs]
  rfl

theorem Bar.foeUnknown_none (al : b.ecat.al ≠ .init) (idle : b.foe = none) : b.foeUnknown none = b.foeError 0x8001 0x30 true := by
  unfold foeUnknown
  rw [if_neg al, idle]
  rfl

theorem Bar.foeUnknown_some (f : FoeFile) (al : b.ecat.al ≠ .init) (idle : b.foe = none) :
    b.foeUnknown (some f) = b.foeError 0x8002 0x31 true := by
  unfold foeUnknown
  rw [if_neg al, idle]
  rfl

/-! ### Data packets (R349) -/

theorem Bar.foePacket_none (n : Nat) (data : List Byte) (idle : b.foe = none) : b.foePacket n data = b := by
  unfold foePacket
  rw [idle]

theorem Bar.foeChecked_none (f : FoeFile) (idle : b.foe = none) : b.foeChecked f = b := by
  unfold foeChecked
  rw [idle]

/-- A packet of a nozzle map is taken by its number, in every state that has a mailbox. -/
theorem Bar.foePacket_map {f : FoeTransfer} (n : Nat) (data : List Byte) (runs : b.foe = some f) (file : f.file = .nozzleMap)
    (open_ : f.checking = false) :
    b.foePacket n data = if n ≠ f.nextPacket then b.foeFail 0x8005 0x33 else b.filePacket f n data := by
  have free : (if b.ecat.al = .preop then none else foePreop f.file) = none := by
    rw [file]
    exact ite_self _
  unfold foePacket
  rw [runs]
  dsimp only
  rw [free, open_, file]
  rfl

theorem Bar.filePacket_map {f : FoeTransfer} (n : Nat) (data : List Byte) (file : f.file = .nozzleMap) :
    b.filePacket f n data =
      if 81956 < (f.bytes ++ data).length then b.foeFail 0x8003 0x32
      else if data.length < 1012 then
        b.foeHold { f with nextPacket := f.nextPacket + 1, bytes := f.bytes ++ data, checking := true }
      else ({ b with foe := some { f with nextPacket := f.nextPacket + 1, bytes := f.bytes ++ data, checking := false } } : Bar).foeAck n := by
  unfold filePacket
  dsimp only
  rw [file]
  refine ite_congr rfl (fun _ => rfl) fun _ => ?_
  by_cases last : data.length < 1012
  · simp only [last, decide_true, if_true]
    rfl
  · simp only [last, decide_false, Bool.false_eq_true, if_false]
    rfl

end

/-- Settles O48: what INIT leaves, each refusal with its codes, and a nozzle map packet by packet. -/
theorem foeRequestsAreRefused : Obligations.FoeRequestsAreRefused := by
  unfold Obligations.FoeRequestsAreRefused
  intro s t running b refused
  have unknown (f : Option FoeFile) : Answers s (.foeUnknownName t f) (b.foeUnknown f) := .of_live (·.foeUnknown f) running rfl
  have firmware (step : FoeStep) : Answers s (.firmwareWrite t step) (b.foeWrite .firmware step) :=
    .of_live (·.foeWrite .firmware step) running rfl
  have calibration (step : FoeStep) : Answers s (.calibrationWrite t step) (b.foeWrite .calibration step) :=
    .of_live (·.foeWrite .calibration step) running rfl
  have map (step : FoeStep) : Answers s (.mapWrite t step) (b.foeWrite .nozzleMap step) :=
    .of_live (·.foeWrite .nozzleMap step) running rfl
  have profile (step : FoeStep) : Answers s (.profileWrite t step) (b.foeWrite .mediaProfile step) :=
    .of_live (·.foeWrite .mediaProfile step) running rfl
  have log : Answers s (.eventlogFileRead t) b.foeEventlog := .of_live (·.foeEventlog) running rfl
  have quote : Answers s (.quoteRead t) b.foeQuote := .of_live (·.foeQuote) running rfl
  have job : Answers s (.jobContainerWrite t) b.foeJob := .of_live (·.foeJob) running rfl
  have packet (n : Nat) (data : List Byte) : Answers s (.foeDataPacket t n data) (b.foePacket n data) :=
    .of_live (·.foePacket n data) running rfl
  clear_value b
  refine ⟨fun al => ?_, fun al idle => ?_, fun al other idle normal => ?_, fun al f runs => ?_, fun idle => ?_,
    fun f n data runs file open_ => ?_⟩
  · have still (f : FoeFile) : b.foeOpen f = b := Bar.foeRequest_init f _ al
    exact ⟨fun f => (unknown f).congr (Bar.foeUnknown_init f al), log.congr (Bar.foeRequest_init _ _ al),
      quote.congr (Bar.foeRequest_init _ _ al), (firmware .request).congr (still _), (calibration .request).congr (still _),
      (map .request).congr (still _), (profile .request).congr (still _)⟩
  · exact ⟨(unknown none).congr (Bar.foeUnknown_none al idle), fun f => (unknown (some f)).congr (Bar.foeUnknown_some f al idle)⟩
  · have denied {f : FoeFile} {code : Nat} (preop : foePreop f = some code) : b.foeOpen f = refused 0x8002 code :=
      Bar.foeRequest_denied _ al (Bar.foeDenied_state idle normal preop other)
    exact ⟨(firmware .request).congr (denied rfl), (calibration .request).congr (denied rfl), (profile .request).congr (denied rfl)⟩
  · have denied (f : FoeFile) (serve : Bar → Bar) : b.foeRequest f serve = refused 0x8000 0x34 :=
      Bar.foeRequest_denied _ al (Bar.foeDenied_busy f runs)
    exact ⟨(firmware .request).congr (show b.foeOpen .firmware = _ from denied ..), job.congr (denied ..), quote.congr (denied ..),
      fun g => (unknown g).congr (Bar.foeUnknown_busy g al runs)⟩
  · exact ⟨fun n data => (packet n data).congr (Bar.foePacket_none n data idle), (firmware .checked).congr (Bar.foeChecked_none _ idle),
      (calibration .checked).congr (Bar.foeChecked_none _ idle), (map .checked).congr (Bar.foeChecked_none _ idle),
      (profile .checked).congr (Bar.foeChecked_none _ idle)⟩
  · have answer := packet n data
    rw [Bar.foePacket_map n data runs file open_, Bar.filePacket_map n data file] at answer
    refine ⟨fun other => answer.congr (if_pos other), fun turn large => ?_, fun turn fits full => ?_, fun turn fits last => ?_⟩
    · rw [if_neg (fun other => other turn), if_pos large] at answer
      exact answer
    · rw [if_neg (fun other => other turn), if_neg (by omega), if_neg (by omega)] at answer
      rw [turn] at answer ⊢
      rw [← open_] at answer
      exact answer
    · rw [if_neg (fun other => other turn), if_neg (by omega), if_pos last] at answer
      rw [turn] at answer ⊢
      exact answer

end Sys2Proof.Machine
end

section
/-! Temperature sensors (R397, R402, R415): the filter, the rounds, and the demand over the step intervals. -/

namespace Sys2Proof.Machine

/-! ### The filter (R397) -/

theorem sum_eq_of_perm {l m : List Int} (same : l.Perm m) : l.sum = m.sum := by
  induction same with
  | nil => rfl
  | cons a _ ih => simp only [List.sum_cons, ih]
  | swap a b l =>
    simp only [List.sum_cons]
    omega
  | trans _ _ first second => exact first.trans second

/-- The mean of the two middle values of four: what is left of their sum without the largest and the smallest. -/
theorem filterRaws_four (a b c d : Int) :
    filterRaws [a, b, c, d] = some ((a + b + c + d - max (max a b) (max c d) - min (min a b) (min c d)) / 2) := by
  have perm : ([a, b, c, d].mergeSort (· ≤ ·)).Perm [a, b, c, d] := List.mergeSort_perm ..
  have sorted : ([a, b, c, d].mergeSort (· ≤ ·)).Pairwise (fun x y => decide (x ≤ y) = true) :=
    List.pairwise_mergeSort (by simpa using fun x y z => Int.le_trans) (by simpa using Int.le_total) _
  have four : [a, b, c, d].take 4 = [a, b, c, d] := rfl
  unfold filterRaws
  rw [if_neg (by simp), four]
  dsimp only
  generalize [a, b, c, d].mergeSort (· ≤ ·) = s at perm sorted
  obtain ⟨w, x, y, z, rfl⟩ : ∃ w x y z, s = [w, x, y, z] := by
    have length := perm.length_eq
    match s, length with
    | [w, x, y, z], _ => exact ⟨w, x, y, z, rfl⟩
  have sum : w + (x + (y + z)) = a + (b + (c + d)) := by simpa using sum_eq_of_perm perm
  simp only [List.pairwise_cons, List.mem_cons, decide_eq_true_eq] at sorted
  obtain ⟨least, lower, upper, -⟩ := sorted
  have wx := least x (.inl rfl)
  have xy := lower y (.inl rfl)
  have yz := upper z (.inl rfl)
  have first : w = a ∨ w = b ∨ w = c ∨ w = d := by simpa using perm.mem_iff.mp (List.mem_cons_self (a := w))
  have last : z = a ∨ z = b ∨ z = c ∨ z = d := by simpa using perm.mem_iff.mp (show z ∈ [w, x, y, z] by simp)
  have all (v : Int) (member : v ∈ [a, b, c, d]) : w ≤ v ∧ v ≤ z := by
    have here := perm.mem_iff.mpr member
    simp only [List.mem_cons, List.not_mem_nil, or_false] at here
    omega
  have ha := all a (by simp)
  have hb := all b (by simp)
  have hc := all c (by simp)
  have hd := all d (by simp)
  have mid : x + y = a + b + c + d - max (max a b) (max c d) - min (min a b) (min c d) := by omega
  simp only [List.getD_cons_succ, List.getD_cons_zero, mid]

/-! ### What a decision leaves of the readings -/

/-- From b to c every sensor keeps its raw samples and its filtered value, and the settings in force stand. -/
def Bar.ReadingsKept (b c : Bar) : Prop :=
  c.thm.inForce = b.thm.inForce ∧
  ∀ j : Fin 26, (c.thm.sensors[j]).raws = (b.thm.sensors[j]).raws ∧ (c.thm.sensors[j]).filtered = (b.thm.sensors[j]).filtered

section
variable {b c d : Bar}

theorem Bar.ReadingsKept.of_sensors (inForce : c.thm.inForce = b.thm.inForce) (sensors : c.thm.sensors = b.thm.sensors) :
    b.ReadingsKept c := by
  unfold ReadingsKept
  rw [sensors]
  exact ⟨inForce, fun _ => ⟨rfl, rfl⟩⟩

theorem Bar.ReadingsKept.of_thm (same : c.thm = b.thm) : b.ReadingsKept c :=
  .of_sensors (congrArg Thermal.inForce same) (congrArg Thermal.sensors same)

theorem Bar.ReadingsKept.refl (b : Bar) : b.ReadingsKept b := .of_thm rfl

theorem Bar.ReadingsKept.trans (first : b.ReadingsKept c) (second : c.ReadingsKept d) : b.ReadingsKept d := by
  obtain ⟨inForce, kept⟩ := first
  obtain ⟨inForce', kept'⟩ := second
  exact ⟨inForce'.trans inForce, fun j => ⟨(kept' j).1.trans (kept j).1, (kept' j).2.trans (kept j).2⟩⟩

theorem Bar.ReadingsKept.ite {p : Prop} [Decidable p] (yes : b.ReadingsKept c) (no : b.ReadingsKept d) :
    b.ReadingsKept (if p then c else d) := by
  split
  · exact yes
  · exact no

theorem Bar.HandsOver.thm_eq (h : b.HandsOver c) : c.thm = b.thm := Eq.trans (congrArg Bar.thm h) rfl
theorem Bar.Publishes.thm_eq (h : b.Publishes c) : c.thm = b.thm := Eq.trans (congrArg Bar.thm h) rfl

end

section
variable (b : Bar)

theorem Bar.modSensor_same (i : Fin 26) (f : Sensor → Sensor) : (b.modSensor i f).thm.sensors[i] = f b.thm.sensors[i] :=
  vmod_same ..

theorem Bar.modSensor_other {i j : Fin 26} (f : Sensor → Sensor) (other : j ≠ i) :
    (b.modSensor i f).thm.sensors[j] = b.thm.sensors[j] := vmod_other _ _ other

theorem Bar.modSensor_readings (i : Fin 26) (f : Sensor → Sensor) (raws : (f b.thm.sensors[i]).raws = (b.thm.sensors[i]).raws)
    (filtered : (f b.thm.sensors[i]).filtered = (b.thm.sensors[i]).filtered) : b.ReadingsKept (b.modSensor i f) := by
  refine ⟨rfl, fun j => ?_⟩
  by_cases same : j = i
  · rw [same, modSensor_same]
    exact ⟨raws, filtered⟩
  · rw [modSensor_other _ _ same]
    exact ⟨rfl, rfl⟩

/-- What the steps that the sensors demand touch: neither the sensors, nor what is stored. -/
theorem Bar.applyPStep_keeps (step : Nat) (alone : Bool) : let c := b.applyPStep step alone
    c.thm.sensors = b.thm.sensors ∧ c.thm.inForce = b.thm.inForce ∧ c.par = b.par ∧ c.sto = b.sto := by
  have illum (d : Bar) : d.checkIllum.thm = d.thm ∧ d.checkIllum.par = d.par ∧ d.checkIllum.sto = d.sto := by
    unfold checkIllum
    exact List.foldlRecOn (motive := fun c : Bar => c.thm = d.thm ∧ c.par = d.par ∧ c.sto = d.sto) _ _ ⟨rfl, rfl, rfl⟩ fun c kept _ _ => kept
  have advice (d : Bar) : d.updateAdvice.thm.sensors = d.thm.sensors ∧ d.updateAdvice.thm.inForce = d.thm.inForce ∧
      d.updateAdvice.par = d.par ∧ d.updateAdvice.sto = d.sto := by
    unfold updateAdvice
    dsimp only
    split
    · exact ⟨rfl, rfl, rfl, rfl⟩
    · exact ⟨rfl, rfl, rfl, rfl⟩
  unfold applyPStep
  extract_lets before stepped c
  unfold c
  split
  · exact ⟨rfl, rfl, rfl, rfl⟩
  · split
    · obtain ⟨thm, par, sto⟩ := illum stepped
      obtain ⟨sensors, inForce, par', sto'⟩ := advice stepped.checkIllum
      exact ⟨sensors.trans (congrArg Thermal.sensors thm), inForce.trans (congrArg Thermal.inForce thm), par'.trans par, sto'.trans sto⟩
    · exact ⟨rfl, rfl, rfl, rfl⟩

theorem Bar.settleSteps_keeps : b.settleSteps.thm.sensors = b.thm.sensors ∧ b.settleSteps.thm.inForce = b.thm.inForce ∧
    b.settleSteps.par = b.par ∧ b.settleSteps.sto = b.sto := by
  unfold settleSteps
  dsimp only
  split
  · exact ⟨rfl, rfl, rfl, rfl⟩
  · split
    · exact ⟨rfl, rfl, rfl, rfl⟩
    · exact applyPStep_keeps ..

theorem Bar.settleSteps_readings : b.ReadingsKept b.settleSteps := by
  obtain ⟨sensors, inForce, -⟩ := b.settleSteps_keeps
  exact .of_sensors inForce sensors

theorem Bar.engage_thm (code : Nat) (f : Causes → Causes) : (b.engage code f).thm = b.thm := by
  cases engaged : b.saf.sn.engaged with
  | true =>
    rw [engage_of_engaged code f engaged]
    rfl
  | false => exact (engage_publishes code f engaged).thm_eq

theorem Bar.clearCause_thm (f : Causes → Causes) : (b.clearCause f).thm = b.thm := by
  unfold clearCause
  dsimp only
  split
  · rfl
  · rfl

theorem Bar.startSealing_thm : b.startSealing.thm = b.thm := by
  have rows : b.endRows.thm = b.thm := by
    refine List.foldlRecOn (motive := fun c : Bar => c.thm = b.thm) _ _ rfl fun c kept k _ => ?_
    unfold endRow
    split
    · exact (emitChunk_handsOver ..).thm_eq.trans kept
    · exact kept
  exact (sealStart_handsOver ..).thm_eq.trans rows

theorem Bar.dieCritical_readings (i : Fin 26) (x : Int) : b.ReadingsKept (b.dieCritical i x) := by
  unfold dieCritical
  extract_lets logged engaged
  have first : engaged.thm = b.thm := engage_thm ..
  refine .trans (c := engaged.modThm fun t => { t with critSealed := true, critClear := none }) ?_ (.of_thm (startSealing_thm _))
  exact .of_sensors ((show _ = engaged.thm.inForce from rfl).trans (congrArg Thermal.inForce first))
    ((show _ = engaged.thm.sensors from rfl).trans (congrArg Thermal.sensors first))

theorem Bar.sensorLevels_readings (i : Fin 26) (x : Int) (s : Sensor) :
    (b.sensorLevels i x s).raws = s.raws ∧ (b.sensorLevels i x s).filtered = s.filtered := ⟨rfl, rfl⟩

theorem Sensor.demandNext_readings (now : Nat) (s0 s : Sensor) :
    (s0.demandNext now s).raws = s.raws ∧ (s0.demandNext now s).filtered = s.filtered := by
  unfold demandNext
  extract_lets rises
  split
  · exact ⟨rfl, rfl⟩
  · split
    · exact ⟨rfl, rfl⟩
    · split
      · exact ⟨rfl, rfl⟩
      · exact ⟨rfl, rfl⟩

theorem Bar.logged_readings {p : Prop} [Decidable p] (code arg : Nat) : b.ReadingsKept (if p then b.logEvent code arg else b) :=
  .ite (.of_thm rfl) (.refl b)

theorem Bar.decideSensor_readings (i : Fin 26) (x : Int) : b.ReadingsKept (b.decideSensor i x) := by
  unfold decideSensor
  extract_lets s0 s before decided warned throttled rated critical cleared
  have decides : b.ReadingsKept decided := by
    obtain ⟨raws, filtered⟩ := Sensor.demandNext_readings b.now (b.sensorLevels i x s0) s0
    exact b.modSensor_readings i _ raws filtered
  have logs : decided.ReadingsKept rated := (logged_readings ..).trans <| (logged_readings ..).trans (logged_readings ..)
  have crit : rated.ReadingsKept critical := .ite (.ite (dieCritical_readings ..) (.of_thm rfl)) (.refl _)
  have clears : critical.ReadingsKept cleared := by
    refine .ite ?_ (.refl _)
    exact .of_sensors ((show _ = (critical.clearCause fun c => { c with crit := false }).thm.inForce from rfl).trans (congrArg Thermal.inForce (clearCause_thm ..)))
      ((show _ = (critical.clearCause fun c => { c with crit := false }).thm.sensors from rfl).trans (congrArg Thermal.sensors (clearCause_thm ..)))
  exact decides.trans <| logs.trans <| crit.trans <| clears.trans (settleSteps_readings _)

theorem Bar.assigned_readings (i : Fin 26) (old : Nat) : b.ReadingsKept (b.assigned i old) := by
  unfold assigned
  exact .ite (modSensor_readings _ _ _ rfl rfl) (.refl b)

/-- A filtered sample puts the settings in force as they are written (R415), and leaves the readings. -/
theorem Bar.settingsInForce_keeps : b.settingsInForce.thm.inForce = some (b.par.rw.filter fun e => atFiltered e.1) ∧
    ∀ j : Fin 26, (b.settingsInForce.thm.sensors[j]).raws = (b.thm.sensors[j]).raws := by
  unfold settingsInForce
  dsimp only
  have kept : (b.modThm fun t => { t with inForce := some (b.par.rw.filter fun e => atFiltered e.1) }).ReadingsKept _ :=
    List.foldlRecOn (motive := Bar.ReadingsKept _) ((List.finRange 26).map fun i => (i, b.cfgNow i.val))
      (fun b o => b.assigned o.1 o.2) (.refl _) fun c kept o _ => kept.trans (c.assigned_readings ..)
  obtain ⟨inForce, readings⟩ := kept
  exact ⟨inForce, fun j => (readings j).1⟩

/-- A filtered value becomes its sensor's, and every raw sample stands. -/
theorem Bar.filteredValue_keeps (i : Fin 26) (x : Int) :
    (b.filteredValue i x).thm.inForce = some (b.par.rw.filter fun e => atFiltered e.1) ∧
    ((b.filteredValue i x).thm.sensors[i]).filtered = some x ∧
    ∀ j : Fin 26, ((b.filteredValue i x).thm.sensors[j]).raws = (b.thm.sensors[j]).raws := by
  obtain ⟨inForce, raws⟩ := b.settingsInForce_keeps
  unfold filteredValue
  extract_lets valued decided
  have valuedRaws (j : Fin 26) : (valued.thm.sensors[j]).raws = (b.thm.sensors[j]).raws := by
    by_cases same : j = i
    · subst same
      exact (congrArg Sensor.raws (modSensor_same ..)).trans (raws j)
    · exact (congrArg Sensor.raws (modSensor_other _ _ same)).trans (raws j)
  have others : decided.ReadingsKept _ :=
    List.foldlRecOn (motive := Bar.ReadingsKept _) (List.finRange 26)
      (fun b j => if j ≠ i && b.substitute j = some i then b.decideSensor j x else b) (.refl _)
      fun c kept j _ => kept.trans (.ite (c.decideSensor_readings ..) (.refl c))
  obtain ⟨stands, readings⟩ := (valued.decideSensor_readings i x).trans others
  refine ⟨stands.trans inForce, (readings i).2.trans ?_, fun j => (readings j).1.trans (valuedRaws j)⟩
  exact congrArg Sensor.filtered (modSensor_same ..)

end

/-! ### A conversion and its round (R397) -/

section
variable {b : Bar}

theorem Bar.sensorSample_absent {i : Fin 26} (reading : Nat) (flagged : Bool) (absent : b.sensorThere i.val = false) :
    b.sensorSample i reading flagged = b := by
  unfold sensorSample
  rw [absent]
  rfl

/-- A conversion that is not due changes nothing, in a bar that is not shut down. -/
theorem Bar.sensorSample_early {i : Fin 26} (reading : Nat) (flagged : Bool) (powered : b.saf.power ≠ .shutdown)
    (early : b.sensorDue i = false) : b.sensorSample i reading flagged = b := by
  unfold sensorSample
  dsimp only
  rw [if_neg powered, early]
  exact ite_self _

/-- A sensor after a good sample, before its filter decides. -/
def Sensor.sampled (s : Sensor) (now : Nat) (raw : Int) : Sensor :=
  { s with raws := (raw :: s.raws).take 4, sampledAt := some now, badRun := 0, goodRun := s.goodRun + 1 }

/-- A bar in whose slot a sensor has given a good sample. -/
def Bar.withSample (b : Bar) (i : Fin 26) (raw : Int) : Bar :=
  (b.modThm fun t => { t with slotAt := some b.now }).modSensor i fun _ => (b.thm.sensors[i]).sampled b.now raw

/-- A sample in range of a sensor that has not failed goes to the filter. -/
theorem Bar.sensorSample_filters {i : Fin 26} {reading : Nat} (powered : b.saf.power ≠ .shutdown)
    (there : b.sensorThere i.val = true) (due : b.sensorDue i = true) (well : (b.thm.sensors[i]).failed = false)
    (low : -640 ≤ b.sensorTemp i reading) (high : b.sensorTemp i reading ≤ 2400) :
    b.sensorSample i reading false = match filterRaws ((b.sensorTemp i reading :: (b.thm.sensors[i]).raws).take 4) with
      | some x => (b.withSample i (b.sensorTemp i reading)).filteredValue i x
      | none => b.withSample i (b.sensorTemp i reading) := by
  have inRange : (false || decide (b.sensorTemp i reading < -640) || decide (2400 < b.sensorTemp i reading)) = false := by
    simp [low, high]
  unfold sensorSample
  extract_lets raw bad slotted s0 s recovered sampled
  have good : bad = false := inRange
  have sensor : s = s0.sampled b.now raw := by
    unfold s
    rw [good]
    rfl
  have fresh : ¬ 4 ≤ s.badRun := by
    rw [sensor]
    exact Nat.not_succ_le_zero 3
  have same : sampled = b.withSample i raw := by
    unfold sampled
    rw [sensor]
    rfl
  have whole : s0.failed = false := well
  rw [there, due, if_neg powered, whole, if_neg fresh, same, sensor]
  rfl

theorem Bar.sensorDue_round {i : Fin 26} {u : Nat} (sampled : (b.thm.sensors[i]).sampledAt = some u)
    (round : u / b.sensorRound i = b.now / b.sensorRound i) : b.sensorDue i = false := by
  unfold sensorDue measuredNow
  rw [sampled]
  simp [round]

theorem Bar.sensorDue_slot {i : Fin 26} {u : Nat} (used : b.thm.slotAt = some u) (slot : u / 25000 = b.now / 25000) :
    b.sensorDue i = false := by
  unfold sensorDue
  rw [used]
  simp [slot]

/-- A sensor of a higher index has passed this one in the round of 8 ms. -/
theorem Bar.sensorDue_passed {i j : Fin 26} {u : Nat} (later : i < j) (slow : b.sensorFast i = false) (slow' : b.sensorFast j = false)
    (sampled : (b.thm.sensors[j]).sampledAt = some u) (round : u / 8000000 = b.now / 8000000) : b.sensorDue i = false := by
  have measured : b.measuredNow j = true := by
    unfold measuredNow sensorRound
    rw [sampled, slow']
    simp [round]
  have passed : ((List.finRange 26).all fun j => decide (j ≤ i) || b.sensorFast j || !b.measuredNow j) = false := by
    rw [List.all_eq_false]
    exact ⟨j, List.mem_finRange j, by simp [measured, slow', later]⟩
  unfold sensorDue
  rw [slow, passed]
  simp

/-! ### The demand over the step intervals (R402) -/

theorem Bar.modSensor_settled (i : Fin 26) (f : Sensor → Sensor) : let c := (b.modSensor i f).settleSteps
    c.thm.sensors[i] = f b.thm.sensors[i] ∧ (∀ j : Fin 26, j ≠ i → c.thm.sensors[j] = b.thm.sensors[j]) ∧ c.par = b.par ∧ c.sto = b.sto := by
  obtain ⟨sensors, -, par, sto⟩ := (b.modSensor i f).settleSteps_keeps
  refine ⟨?_, fun j other => ?_, par, sto⟩
  · exact (congrArg (·[i]) sensors).trans (modSensor_same ..)
  · exact (congrArg (·[j]) sensors).trans (modSensor_other _ _ other)

theorem Bar.demandUp_due {i : Fin 26} {u : Nat} (runs : (b.thm.sensors[i]).stepFrom = some u) (hot : (b.thm.sensors[i]).hot = true)
    (elapsed : u + b.stepUp ≤ b.now) : b.demandUp i =
      (b.modSensor i fun s => { s with demand := min 8 (s.demand + 1), stepFrom := some (u + b.stepUp) }).settleSteps := by
  unfold demandUp
  simp only [runs, hot, elapsed, decide_true, Bool.and_true, ↓reduceIte]

theorem Bar.demandDown_due {i : Fin 26} {u : Nat} (runs : (b.thm.sensors[i]).leftAt = some u) (cool : (b.thm.sensors[i]).hot = false)
    (raised : 0 < (b.thm.sensors[i]).demand) (elapsed : u + b.stepDown ≤ b.now) : b.demandDown i =
      (b.modSensor i fun s => { s with demand := s.demand - 1, leftAt := if s.demand ≤ 1 then none else some (u + b.stepDown) }).settleSteps := by
  unfold demandDown
  simp only [runs, cool, raised, elapsed, decide_true, Bool.not_false, Bool.and_true, ↓reduceIte]

theorem Bar.demandUp_idle {i : Fin 26} (idle : (b.thm.sensors[i]).stepFrom = none ∨ (b.thm.sensors[i]).hot = false) :
    b.demandUp i = b := by
  unfold demandUp
  rcases idle with none | cool
  · simp only [none]
  · dsimp only
    rw [cool]
    split
    · rfl
    · rfl

theorem Bar.demandDown_idle {i : Fin 26} (idle : (b.thm.sensors[i]).leftAt = none ∨ (b.thm.sensors[i]).hot = true) :
    b.demandDown i = b := by
  unfold demandDown
  rcases idle with none | hot
  · simp only [none]
  · dsimp only
    rw [hot]
    split
    · rfl
    · rfl

theorem Bar.demandUp_early {i : Fin 26} {u : Nat} (runs : (b.thm.sensors[i]).stepFrom = some u) (early : b.now < u + b.stepUp) :
    b.demandUp i = b := by
  unfold demandUp
  dsimp only
  rw [runs]
  exact if_neg (by simp [early])

theorem Bar.demandDown_early {i : Fin 26} {u : Nat} (runs : (b.thm.sensors[i]).leftAt = some u) (early : b.now < u + b.stepDown) :
    b.demandDown i = b := by
  unfold demandDown
  dsimp only
  rw [runs]
  exact if_neg (by simp [early])

theorem Bar.driveOf_off {i : Fin 26} (off : b.sensorOn i.val = false) : b.driveOf i = 0 := by
  unfold driveOf
  rw [off]
  rfl

end

section
variable {s : State} {t : Nat}

theorem Answers.of_sensor (running : s.bar.alive = true) (i : Fin 26) (reading : Nat) (flagged : Bool) :
    Answers s (.sensorSample t i reading flagged) ((s.bar.at t).sensorSample i reading flagged) :=
  .of_measured (fun b => b.sensorSample i reading flagged) (.inl running) rfl

theorem Bar.at_powered (running : s.bar.alive = true) : (s.bar.at t).saf.power ≠ .shutdown := by
  intro shut
  have power : s.bar.saf.power = .shutdown := shut
  unfold Bar.alive at running
  rw [power] at running
  exact absurd running (by decide)

/-- A demand that moves is its sensor's alone (R402). -/
theorem Bar.demandMoves {c : Instr} {i : Fin 26} {f : Sensor → Sensor} {d : Nat}
    (answer : Answers s c ((s.bar.at t).modSensor i f).settleSteps) (moved : (f ((s.bar.at t).thm.sensors[i])).demand = d) :
    ∃ b' : Bar, Answers s c b' ∧ (b'.thm.sensors[i]).demand = d ∧
      (∀ j : Fin 26, j ≠ i → b'.thm.sensors[j] = (s.bar.at t).thm.sensors[j]) ∧ b'.par = (s.bar.at t).par ∧ b'.sto = (s.bar.at t).sto := by
  obtain ⟨same, other, par, sto⟩ := Bar.modSensor_settled (b := s.bar.at t) i f
  exact ⟨_, answer, (congrArg Sensor.demand same).trans moved, other, par, sto⟩

end

/-- Settles O50: the readings are what no decision about a sensor touches, and a demand moves in one sensor before the steps settle. -/
theorem sensorsAreFilteredAndDemand : Obligations.SensorsAreFilteredAndDemand := by
  unfold Obligations.SensorsAreFilteredAndDemand
  refine ⟨?_, fun b i off => Bar.driveOf_off off, ?_, ?_⟩
  · intro s t reading i r1 r2 r3 rest running b raw mid there due well raws low high
    have sampled := Bar.sensorSample_filters (Bar.at_powered running) there due well low high
    have newest : (raw :: (b.thm.sensors[i]).raws).take 4 = [raw, r1, r2, r3] := by rw [raws]; rfl
    rw [newest, filterRaws_four] at sampled
    obtain ⟨inForce, filtered, kept⟩ := (b.withSample i raw).filteredValue_keeps i mid
    have own : ((b.withSample i raw).thm.sensors[i]).raws = [raw, r1, r2, r3] := (congrArg Sensor.raws (Bar.modSensor_same ..)).trans newest
    have others (j : Fin 26) (other : j ≠ i) : ((b.withSample i raw).thm.sensors[j]).raws = (b.thm.sensors[j]).raws :=
      congrArg Sensor.raws (Bar.modSensor_other _ _ other)
    have answer := Answers.of_sensor (t := t) running i reading false
    rw [sampled] at answer
    exact ⟨_, answer, filtered, (kept i).trans own, inForce, fun j other => (kept j).trans (others j other)⟩
  · intro s t u reading i flagged running b round
    have answer := Answers.of_sensor (t := t) running i reading flagged
    have early (notDue : b.sensorDue i = false) : Answers s (.sensorSample t i reading flagged) b := by
      rw [Bar.sensorSample_early reading flagged (Bar.at_powered running) notDue] at answer
      exact answer
    refine ⟨fun absent => ?_, fun sampled same => early (Bar.sensorDue_round sampled same), fun used same => early (Bar.sensorDue_slot used same),
      fun j later slow slow' sampled same => early (Bar.sensorDue_passed later slow slow' sampled same)⟩
    rw [Bar.sensorSample_absent reading flagged absent] at answer
    exact answer
  · intro s t u i running b x moved
    have up := Answers.of_live (c := .demandStepUp t i) (fun b => b.demandUp i) running rfl
    have down := Answers.of_live (c := .demandStepDown t i) (fun b => b.demandDown i) running rfl
    refine ⟨fun runs hot elapsed => ?_, fun runs cool raised elapsed => ?_, fun idle => ?_, fun runs early => ?_, fun idle => ?_,
      fun runs early => ?_⟩
    · exact Bar.demandMoves (up.congr (Bar.demandUp_due runs hot elapsed)) rfl
    · exact Bar.demandMoves (down.congr (Bar.demandDown_due runs cool raised elapsed)) rfl
    · exact up.congr (Bar.demandUp_idle idle)
    · exact up.congr (Bar.demandUp_early runs early)
    · exact down.congr (Bar.demandDown_idle idle)
    · exact down.congr (Bar.demandDown_early runs early)

end Sys2Proof.Machine
end

section
/-! In-service tests (R427 to R431, Table 15-3): what a test takes, what it notes, and the end of a coverage pass. -/

namespace Sys2Proof.Machine

/-! ### Association lists -/

theorem mem_assocPut {κ α : Type} [DecidableEq κ] (l : List (κ × α)) (k : κ) (v : α) : (k, v) ∈ assocPut l k v := by
  unfold assocPut
  split
  next found =>
    obtain ⟨e, member, own⟩ := List.any_eq_true.mp found
    exact List.mem_map.mpr ⟨e, member, if_pos (of_decide_eq_true own)⟩
  · exact List.mem_append_right l (List.mem_singleton_self _)

theorem sum_le_of_sublist {l m : List Nat} (kept : l.Sublist m) : l.sum ≤ m.sum := by
  induction kept with
  | slnil => exact Nat.le_refl _
  | cons a _ ih => exact Nat.le_trans ih (Nat.le_add_left ..)
  | cons_cons a _ ih => exact Nat.add_le_add_left ih a

/-! ### The lines that tests take (R428, R429) -/

section
variable {b : Bar}

theorem Bar.linesWanted_le_sum : b.linesWanted ≤ (lineTests.map stolenLines).sum := by
  have kept : (b.openTests.filter fun test => test ∉ b.saf.ist.linesFor).Sublist lineTests :=
    List.filter_sublist.trans List.filter_sublist
  unfold linesWanted
  rw [← List.sum_eq_foldl]
  exact sum_le_of_sublist (kept.map stolenLines)

/-- A line is claimed in a session, for a test that is due and that its interval has served in no other way. -/
theorem Bar.stolenLine_claims (session : b.ecat.session = true) (open_ : b.saf.ist.claimed = false)
    (fresh : b.saf.ist.lastSteal ≠ some (b.stealInterval b.now)) (unserved : b.saf.ist.idleServed ≠ some (b.stealInterval b.now))
    (wanted : b.saf.ist.stolenReady < b.linesWanted) : b.stolenLine = b.modIst fun x => { x with claimed := true } := by
  unfold stolenLine stealDue
  exact if_pos (by simp [session, open_, fresh, unserved, wanted])

theorem Bar.stolenLine_spares (reason : b.ecat.session = false ∨ b.saf.ist.claimed = true ∨
      b.saf.ist.lastSteal = some (b.stealInterval b.now) ∨ b.saf.ist.idleServed = some (b.stealInterval b.now) ∨
      b.linesWanted ≤ b.saf.ist.stolenReady) : b.stolenLine = b := by
  have spared : (b.ecat.session && !b.saf.ist.claimed && b.stealDue b.now) = false := by
    unfold stealDue
    rcases reason with idle | claimed | stolen | served | enough
    · simp [idle]
    · simp [claimed]
    · simp [stolen]
    · simp [served]
    · simp [Nat.not_lt.mpr enough]
  unfold stolenLine
  rw [spared]
  rfl

theorem Bar.testSource_idle (test : Nat) (idle : b.ecat.session = false) : b.testSource test = some 1 := by
  unfold testSource
  exact if_pos (by simp [idle])

/-- What serving a test changes: the lines it takes, or the interval it marks. -/
theorem Bar.serveTest_only (test : Nat) : b.serveTest test = b.modIst fun x => { x with
    stolenReady := (b.serveTest test).saf.ist.stolenReady, linesFor := (b.serveTest test).saf.ist.linesFor
    idleServed := (b.serveTest test).saf.ist.idleServed } := by
  unfold serveTest
  split
  · rfl
  · unfold modIst modSaf
    dsimp only
    split
    · split
      · rfl
      · rfl
    · rfl

theorem Bar.serveTest_takes (test : Nat) : (b.serveTest test).saf.ist.stolenReady =
    if test ∈ lineTests ∧ b.testSource test = some 4 ∧ test ∉ b.saf.ist.linesFor then b.saf.ist.stolenReady - stolenLines test
    else b.saf.ist.stolenReady := by
  unfold serveTest
  split
  next other => rw [if_neg fun takes => other takes.1]
  next line =>
    unfold modIst modSaf
    dsimp only
    split
    next source =>
      split
      next had => rw [if_neg fun takes => takes.2.2 had]
      next new => rw [if_pos ⟨Classical.not_not.mp line, source, new⟩]
    next other => rw [if_neg fun takes => other takes.2.1]

/-! ### A test that ends (R429, R430) -/

/-- A test has been run on an element and noted, before its result takes effect. -/
def Bar.testRun (b : Bar) (test seg unit : Nat) (pass : Bool) : Bar :=
  let c := b.serveTest test
  let c := if test = 2 then c.modSeg (segIx seg) fun s => { s with darkOk := pass } else c
  c.modIst fun x =>
    { x with tested := if (test, seg, unit) ∈ b.saf.ist.tested then x.tested else x.tested ++ [(test, seg, unit)]
             darkRuns := if test = 2 then x.darkRuns.map fun e => if e.1 = (seg, unit) then (e.1, e.2.1, false) else e else x.darkRuns }

/-- The last line at which the element's test passed. -/
def Ist.lookbackOf (x : Ist) (key : Nat × Nat × Nat) : Nat := match x.passed.find? fun e => e.1 = key with | some (_, n) => n | none => 0

/-- A test of an element has failed: shown, and the Safety Net engages. -/
def Bar.testFailed (b : Bar) (key : Nat × Nat × Nat) (word back : Nat) : Bar :=
  (b.modIst fun x => { x with lastFail := word, lookback := back, passClean := false }).engage 0xD031 fun c =>
    { c with istFails := assocPut c.istFails key 0 }

/-- From b to c nothing changes but what a test notes of itself and of its segment, and c has noted the element. -/
structure Bar.TestNoted (b c : Bar) (key : Nat × Nat × Nat) : Prop where
  only : c = { b with
    saf := { b.saf with ist := { b.saf.ist with
      tested := c.saf.ist.tested, darkRuns := c.saf.ist.darkRuns, stolenReady := c.saf.ist.stolenReady, linesFor := c.saf.ist.linesFor
      idleServed := c.saf.ist.idleServed } }
    cap := { b.cap with segs := c.cap.segs } }
  noted : key ∈ c.saf.ist.tested

theorem Bar.testRun_noted (test seg unit : Nat) (pass : Bool) : b.TestNoted (b.testRun test seg unit pass) (test, seg, unit) := by
  have served := b.serveTest_only test
  have tested : (b.serveTest test).saf.ist.tested = b.saf.ist.tested := by rw [served]; rfl
  unfold testRun
  extract_lets c d
  have ist : d.saf = c.saf := by
    unfold d
    split
    · rfl
    · rfl
  refine ⟨?_, ?_⟩
  · unfold d
    split
    · rw [show c = _ from served]
      rfl
    · rw [show c = _ from served]
      rfl
  · change (test, seg, unit) ∈ if (test, seg, unit) ∈ b.saf.ist.tested then d.saf.ist.tested else d.saf.ist.tested ++ [(test, seg, unit)]
    split
    next member =>
      rw [ist, tested]
      exact member
    · exact List.mem_append_right _ (List.mem_singleton_self _)

theorem Bar.testRun_takes (test seg unit : Nat) (pass : Bool) :
    (b.testRun test seg unit pass).saf.ist.stolenReady = (b.serveTest test).saf.ist.stolenReady := by
  unfold testRun
  extract_lets c d
  change d.saf.ist.stolenReady = c.saf.ist.stolenReady
  unfold d
  split
  · rfl
  · rfl

/-- Test 2 shows its result as DARK_OK of the segment (Table 2-7). -/
theorem Bar.testRun_darkOk (seg unit : Nat) (pass : Bool) :
    ((b.testRun 2 seg unit pass).cap.segs[segIx seg]).darkOk = pass := congrArg SegStatus.darkOk (vmod_same ..)

theorem Bar.serviceTest_skips {test seg unit : Nat} (r : TestReading)
    (skipped : b.testUnits test seg ≤ unit ∨ (test ∈ lineTests ∧ (b.testSource test).isNone = true)) : b.serviceTest test seg unit r = b := by
  unfold serviceTest
  exact if_pos (by simpa using skipped)

section
variable {test seg unit : Nat} {r : TestReading} (present : unit < b.testUnits test seg)
  (served : test ∉ lineTests ∨ (b.testSource test).isSome = true)
include present served

theorem Bar.serviceTest_runs : b.serviceTest test seg unit r =
    if b.testPasses test seg unit r then
      (b.testRun test seg unit true).testPassed (test, seg, unit) (decide ((test, seg, unit) ∈ b.saf.ist.tested))
    else ((b.testRun test seg unit false).testFailed (test, seg, unit) (elementWord test seg unit)
      (b.saf.ist.lookbackOf (test, seg, unit))).logEvent 0xD031
        (elementWord test seg unit * 2 ^ 32 + b.saf.ist.lookbackOf (test, seg, unit) % 2 ^ 32) := by
  have due : ¬(decide (b.testUnits test seg ≤ unit) || (decide (test ∈ lineTests) && (b.testSource test).isNone)) = true := by
    rcases served with free | source
    · simp [present, free]
    · simp [present, Option.isSome_iff_ne_none.mp source]
  unfold serviceTest
  extract_lets key pass again served noted run back word shown
  have ran : run = b.testRun test seg unit pass := by
    unfold run testRun again
    simp only [decide_eq_true_eq]
    rfl
  have same : back = b.saf.ist.lookbackOf key := by
    have passed : run.saf.ist.passed = b.saf.ist.passed := by rw [ran, (testRun_noted ..).only]
    calc back = run.saf.ist.lookbackOf key := rfl
      _ = _ := by rw [Ist.lookbackOf, passed, Ist.lookbackOf]
  rw [if_neg due, show b.testPasses test seg unit r = pass from rfl]
  unfold shown
  rw [same, ran]
  clear_value pass
  cases pass with
  | true => rw [if_pos rfl, if_pos rfl]
  | false =>
    rw [if_neg Bool.false_ne_true, if_neg Bool.false_ne_true]
    rfl

end

/-- A test that passes touches the Safety Net's causes alone, beside what it notes. -/
theorem Bar.testPassed_noted (key : Nat × Nat × Nat) (again : Bool) {c : Bar} (answer : b.testPassed key again = c) :
    c.saf.ist = { b.saf.ist with passed := assocPut b.saf.ist.passed key b.liveLine } ∧
    c.saf.sn.causes = (if again then b.saf.sn.causes else { b.saf.sn.causes with
      istFails := (b.saf.sn.causes.istFails.map fun e => if e.1 = key then (e.1, e.2 + 1) else e).filter fun e => decide (e.2 < 3) }) ∧
    c.saf.sn.engaged = b.saf.sn.engaged ∧ c = { b with saf := c.saf } := by
  subst answer
  unfold testPassed
  extract_lets noted
  cases again with
  | true => exact ⟨rfl, rfl, rfl, rfl⟩
  | false =>
    rw [if_neg Bool.false_ne_true, if_neg Bool.false_ne_true]
    unfold clearCause
    extract_lets before cleared
    split
    · exact ⟨rfl, rfl, rfl, rfl⟩
    · exact ⟨rfl, rfl, rfl, rfl⟩

theorem Bar.engage_ist (code : Nat) (f : Causes → Causes) : (b.engage code f).saf.ist = b.saf.ist := by
  obtain ⟨⟨sn, ret, saf⟩, -⟩ := b.engage_saf code f
  rw [saf]

theorem Bar.engage_segs (code : Nat) (f : Causes → Causes) : (b.engage code f).cap.segs = b.cap.segs := by
  cases engaged : b.saf.sn.engaged with
  | true =>
    rw [engage_of_engaged code f engaged]
    rfl
  | false => exact Eq.trans (congrArg (·.cap.segs) (engage_publishes code f engaged)) rfl

end

/-! ### What Table 15-3 asks -/

/-- The elements of a test: those of segments that are there, and those of the hub. -/
theorem Bar.testUnits_eq (b : Bar) (c g : Nat) : b.testUnits c g =
    if 1 ≤ c ∧ c ≤ 6 then
      (if g < b.segs ∧ (b.cap.segs[segIx g]).present = true then (if c = 1 then 30720 else if c = 2 then 30 else 1) else 0)
    else if g ≠ 0xFF then 0 else if 7 ≤ c ∧ c ≤ 9 then 1 else if c = 10 then 16 else 0 := by
  unfold testUnits
  by_cases segment : 1 ≤ c ∧ c ≤ 6
  · rw [if_pos (by simpa using segment), if_pos segment]
    by_cases there : g < b.segs ∧ (b.cap.segs[segIx g]).present = true
    · rw [if_neg (by simpa using there), if_pos there]
    · rw [if_pos (by simpa [Classical.or_iff_not_imp_left] using there), if_neg there]
  · rw [if_neg (by simpa using segment), if_neg segment]

theorem near_iff (r : TestReading) (tol : Nat) :
    ((decide (r.got.length = r.want.length) && (r.got.zip r.want).all fun p => decide ((p.1 - p.2).natAbs ≤ tol)) = true) ↔
      r.got.length = r.want.length ∧ ∀ p ∈ r.got.zip r.want, (p.1 - p.2).natAbs ≤ tol := by
  simp only [Bool.and_eq_true, decide_eq_true_eq, List.all_eq_true]

theorem Bar.darkFits_iff (b : Bar) (seg tile : Nat) :
    b.darkFits seg tile = true ↔ ∀ e ∈ b.saf.ist.darkRuns, e.1 = (seg, tile) → e.2.2 = false := by
  simp [darkFits]

theorem Bar.testPasses_iff (b : Bar) (test seg unit : Nat) (r : TestReading) : b.testPasses test seg unit r = true ↔
    if test = 1 then r.want.length = 2 ∧ r.got.length = r.want.length ∧ ∀ p ∈ r.got.zip r.want, (p.1 - p.2).natAbs ≤ b.rwN 0x2D10 0x0A
    else if test = 2 then ∀ e ∈ b.saf.ist.darkRuns, e.1 = (seg, unit) → e.2.2 = false
    else if test = 5 then r.got = r.want ∧ r.faults ≤ 1
    else if test = 10 then r.got.length = r.want.length ∧ ∀ p ∈ r.got.zip r.want, (p.1 - p.2).natAbs ≤ 1
    else r.got = r.want := by
  unfold testPasses
  dsimp only
  split
  · rw [if_pos rfl, Bool.and_eq_true, near_iff, decide_eq_true_eq]
  · rw [if_neg (by decide), if_pos rfl, darkFits_iff]
  · rw [if_neg (by decide), if_neg (by decide), if_pos rfl, Bool.and_eq_true, decide_eq_true_eq, decide_eq_true_eq]
  · rw [if_neg (by decide), if_neg (by decide), if_neg (by decide), if_pos rfl, near_iff]
  next one two five ten => rw [if_neg one, if_neg two, if_neg five, if_neg ten, decide_eq_true_eq]

theorem Bar.covered_iff (b : Bar) : b.covered = true ↔ ∀ c g, c < 11 → g < b.segs ∨ g = 0xFF →
    (b.saf.ist.tested.countP fun (e : Nat × Nat × Nat) => e.1 = c && e.2.1 = g) = b.testUnits c g := by
  unfold covered
  simp only [List.all_eq_true, List.mem_range, List.mem_append, List.mem_singleton, decide_eq_true_eq]
  exact ⟨fun all c g test there => all c test g there, fun all c test g there => all c g test there⟩

theorem stolenLines_eq {test : Nat} (line : test ∈ lineTests) : stolenLines test = if test = 3 then 4 else 2 := by
  unfold lineTests at line
  simp only [List.mem_cons, List.not_mem_nil, or_false] at line
  rcases line with rfl | rfl | rfl | rfl | rfl
  all_goals rfl

/-! ### The end of a coverage pass (R429, R431) -/

/-- The record of a pass that ends, and of the next one that starts. -/
def Ist.nextPass (x : Ist) (now : Nat) : Ist :=
  { x with lastDuration := (now - x.passStart) / 1000, passes := sat32 x.passes, done := true, overrun := false, passClean := true
           passStart := now, tested := [], stolenReady := 0, linesFor := [], cleanPass := if x.passClean then some x.passStart else x.cleanPass }

theorem Bar.passEnd_open {b : Bar} (open_ : b.covered = false) : b.passEnd = b := by
  unfold passEnd
  rw [open_]
  rfl

/-- A pass that is covered ends: its record is the next pass's, and how long it took settles the cause. -/
theorem Bar.passEnd_closes {b : Bar} (covered : b.covered = true) : ∃ c : Bar, c.saf = { b.saf with ist := b.saf.ist.nextPass b.now } ∧
    b.passEnd = if 2000000000 < b.now - b.saf.ist.passStart then
        (if b.saf.ist.overrun then c else c.engage 0xD033 fun x => { x with istOverrun := true })
      else if 1000000000 < b.now - b.saf.ist.passStart then c
      else c.clearCause fun x => { x with istOverrun := false } := by
  unfold passEnd
  rw [covered]
  rw [if_neg (by decide)]
  extract_lets old d first told next passed logged
  refine ⟨logged, ?_, rfl⟩
  have kept (c : Bar) (p : Prop) [Decidable p] (code : Nat) : (if p then c.logEvent code 0 else c).saf = c.saf := by
    split
    · rfl
    · rfl
  exact (kept ..).trans (kept ..)

theorem Bar.passEnd_ist {b : Bar} (covered : b.covered = true) : b.passEnd.saf.ist = b.saf.ist.nextPass b.now := by
  obtain ⟨c, saf, ends⟩ := passEnd_closes covered
  have ist : c.saf.ist = b.saf.ist.nextPass b.now := by rw [saf]
  rw [ends]
  split
  · split
    · exact ist
    · exact (c.engage_ist ..).trans ist
  · split
    · exact ist
    · obtain ⟨⟨sn, cleared, -⟩, -⟩ := c.clearCause_saf fun x => { x with istOverrun := false }
      rw [cleared]
      exact ist

/-! ### A test in service -/

section
variable {b c : Bar} {key : Nat × Nat × Nat}

theorem Bar.TestNoted.sn_eq (h : b.TestNoted c key) : c.saf.sn = b.saf.sn := Eq.trans (congrArg (·.saf.sn) h.only) rfl
theorem Bar.TestNoted.passed_eq (h : b.TestNoted c key) : c.saf.ist.passed = b.saf.ist.passed := Eq.trans (congrArg (·.saf.ist.passed) h.only) rfl
theorem Bar.TestNoted.passClean_eq (h : b.TestNoted c key) : c.saf.ist.passClean = b.saf.ist.passClean :=
  Eq.trans (congrArg (·.saf.ist.passClean) h.only) rfl
theorem Bar.TestNoted.liveLine_eq (h : b.TestNoted c key) : c.liveLine = b.liveLine := Eq.trans (congrArg Bar.liveLine h.only) rfl

/-- What a test leaves alone until its result takes effect. -/
theorem Bar.TestNoted.rest (h : b.TestNoted c key) : c.log = b.log ∧ c.par = b.par ∧ c.ecat = b.ecat ∧ c.cap.items = b.cap.items ∧
    c.lines = b.lines ∧ c.sto = b.sto ∧ c.io = b.io :=
  ⟨Eq.trans (congrArg Bar.log h.only) rfl, Eq.trans (congrArg Bar.par h.only) rfl, Eq.trans (congrArg Bar.ecat h.only) rfl,
    Eq.trans (congrArg (·.cap.items) h.only) rfl, Eq.trans (congrArg Bar.lines h.only) rfl, Eq.trans (congrArg Bar.sto h.only) rfl,
    Eq.trans (congrArg Bar.io h.only) rfl⟩

/-- A test that has failed: the element is shown, its failure is a cause, and the Safety Net is engaged. -/
theorem Bar.testFailed_shows (c : Bar) (key : Nat × Nat × Nat) (word back : Nat) {e : Bar} (answer : c.testFailed key word back = e) :
    e.saf.ist = { c.saf.ist with lastFail := word, lookback := back, passClean := false } ∧ e.cap.segs = c.cap.segs ∧
    (key, 0) ∈ e.saf.sn.causes.istFails ∧ e.saf.sn.engaged = true := by
  subst answer
  unfold testFailed
  obtain ⟨engaged, causes, -⟩ := (c.modIst fun x => { x with lastFail := word, lookback := back, passClean := false }).engage_keeps 0xD031
    fun x => { x with istFails := assocPut x.istFails key 0 }
  refine ⟨engage_ist .., engage_segs .., ?_, engaged⟩
  rw [causes]
  exact mem_assocPut ..

end

/-- Settles O57: a test is noted first, then its result takes effect; a pass that is covered makes way for the next one's record. -/
theorem inServiceTestsCoverAndFail : Obligations.InServiceTestsCoverAndFail := by
  unfold Obligations.InServiceTestsCoverAndFail
  intro s t test seg unit r running b ist key units near passes lines served lookback word interval covered d
  have tested := Answers.of_live (c := .inServiceTest t test seg unit r) (fun b => b.serviceTest test seg unit r) running rfl
  have claims := Answers.of_live (c := .stolenLine t) (fun b => b.stolenLine) running rfl
  have ends := Answers.of_live (c := .coveragePassEnd t) (fun b => b.passEnd) running rfl
  have sized (c g : Nat) : b.testUnits c g = units c g := b.testUnits_eq c g
  have passing : b.testPasses test seg unit r = true ↔ passes := b.testPasses_iff test seg unit r
  have covers : b.covered = true ↔ covered := by
    rw [Bar.covered_iff]
    simp only [sized]
    rfl
  have runs (present : unit < units test seg) (serves : served) := Bar.serviceTest_runs (b := b) (r := r) (by rw [sized]; exact present) serves
  refine ⟨fun skipped => tested.congr (Bar.serviceTest_skips r ?_), Bar.testSource_idle test, fun present serves pass => ?_,
    fun present serves fails => ?_, Bar.linesWanted_le_sum, fun session open_ fresh unserved wanted => ?_,
    fun reason => claims.congr (Bar.stolenLine_spares reason), fun open_ => ends.congr (Bar.passEnd_open ?_), fun done => ?_⟩
  · refine skipped.imp (fun beyond => by rw [sized]; exact beyond) fun unserved => ?_
    obtain ⟨line, source⟩ := not_or.mp unserved
    exact ⟨Classical.not_not.mp line, by simpa using source⟩
  · have noted := Bar.testRun_noted (b := b) test seg unit true
    have takes := (Bar.testRun_takes test seg unit true).trans (Bar.serveTest_takes (b := b) test)
    obtain ⟨record, causes, engaged, only⟩ := Bar.testPassed_noted (b := b.testRun test seg unit true) key (decide (key ∈ ist.tested)) rfl
    obtain ⟨log, par, ecat, items, lineCount, sto, io⟩ := noted.rest
    have answer := tested.congr ((runs present serves).trans (if_pos (passing.mpr pass)))
    generalize (b.testRun test seg unit true).testPassed key (decide (key ∈ ist.tested)) = e at record causes engaged only answer
    rw [noted.sn_eq] at causes engaged
    have same {α : Type} (f : Bar → α) (kept : ∀ x : Safety, f { b.testRun test seg unit true with saf := x } = f (b.testRun test seg unit true)) :
        f e = f (b.testRun test seg unit true) := (congrArg f only).trans (kept _)
    refine ⟨e, answer, ?_, ?_, ?_, fun two => ?_, ?_, ?_, engaged, (same _ fun _ => rfl).trans log, (same _ fun _ => rfl).trans par,
      (same _ fun _ => rfl).trans ecat, (same (·.cap.items) fun _ => rfl).trans items, (same _ fun _ => rfl).trans lineCount,
      (same _ fun _ => rfl).trans sto, (same _ fun _ => rfl).trans io⟩
    · rw [record]
      exact noted.noted
    · rw [record, ← noted.liveLine_eq]
      exact mem_assocPut ..
    · rw [record]
      exact noted.passClean_eq
    · subst two
      exact (same (fun x => (x.cap.segs[segIx seg]).darkOk) fun _ => rfl).trans (Bar.testRun_darkOk seg unit true)
    · rw [record]
      refine takes.trans (ite_congr rfl (fun taken => ?_) fun _ => rfl)
      rw [stolenLines_eq taken.1]
    · rw [causes]
      exact ite_congr (decide_eq_true_eq ..) (fun _ => rfl) fun _ => rfl
  · have noted := Bar.testRun_noted (b := b) test seg unit false
    have back : b.saf.ist.lookbackOf key = lookback := by
      unfold Ist.lookbackOf lookback
      cases ist.passed.find? fun e => e.1 = key with
      | none => rfl
      | some e => rfl
    obtain ⟨record, segs, failing, engaged⟩ := Bar.testFailed_shows (b.testRun test seg unit false) key word lookback rfl
    have answer := tested.congr ((runs present serves).trans (if_neg fun passed => fails (passing.mp passed)))
    rw [back] at answer
    refine ⟨_, answer, ?_, ?_, ?_, ?_, fun two => ?_, failing, engaged⟩
    · rw [show elementWord test seg unit = word from rfl, record]
      exact noted.noted
    · rw [show elementWord test seg unit = word from rfl, record]
    · rw [show elementWord test seg unit = word from rfl, record]
    · rw [show elementWord test seg unit = word from rfl, record]
    · subst two
      rw [show elementWord 2 seg unit = word from rfl, segs]
      exact Bar.testRun_darkOk seg unit false
  · exact claims.congr (Bar.stolenLine_claims session open_ fresh unserved wanted)
  · rw [← Bool.not_eq_true]
    exact fun closed => open_ (covers.mp closed)
  · have whole : b.covered = true := covers.mpr done
    have record := Bar.passEnd_ist whole
    obtain ⟨c, saf, closes⟩ := Bar.passEnd_closes whole
    refine ⟨_, ends, ?_⟩
    change b.passEnd.saf.ist.done = true ∧ _
    rw [record]
    refine ⟨rfl, sat32_eq_min _, rfl, rfl, rfl, rfl, rfl, rfl, rfl, fun long fresh => ?_, fun short => ?_⟩
    · have engages : b.passEnd = c.engage 0xD033 fun x => { x with istOverrun := true } := by
        rw [closes, if_pos long, if_neg (by rw [show b.saf.ist.overrun = false from fresh]; decide)]
      obtain ⟨engaged, causes, -⟩ := c.engage_keeps 0xD033 fun x => { x with istOverrun := true }
      change b.passEnd.saf.sn.engaged = true ∧ b.passEnd.saf.sn.causes.istOverrun = true
      rw [engages, causes]
      exact ⟨engaged, rfl⟩
    · have clears : b.passEnd = c.clearCause fun x => { x with istOverrun := false } := by
        have within : b.now - b.saf.ist.passStart ≤ 1000000000 := short
        rw [closes, if_neg (by omega), if_neg (by omega)]
      obtain ⟨⟨sn, cleared, causes, engaged⟩, -⟩ := c.clearCause_saf fun x => { x with istOverrun := false }
      change b.passEnd.saf.sn.causes.istOverrun = false ∧ b.passEnd.saf.sn.engaged = b.saf.sn.engaged
      rw [clears, cleared]
      refine ⟨congrArg Causes.istOverrun causes, engaged.trans ?_⟩
      rw [saf]

end Sys2Proof.Machine
end

section
/-! The security commands of 0x2E10 (R456, R467). -/

namespace Sys2Proof.Machine

/-- A bar in PRE-OP with the command key, that runs a confirmed image of SVN 280 and whose SVN_FLOOR counter stands above it: the last of
its fuse rows reads bit 100 set. -/
def overfusedBar : Bar :=
  ({ Bar.reset with
    saf := { Safety.reset with power := .running }
    ecat := { Ecat.reset with al := .preop }
    sec := { Security.reset with
      running := some false, slotA := zeros 12 ++ leBytes 2 280, hub := [⟨31, 2 ^ 100, 2 ^ 100⟩], anchor := ⟨false, false, 3⟩ } } : Bar).putRw
    0x2E10 2 (.num 0x46555345)

/-- Refutes O60: ADVANCE_SVN checks the value asked for against a counter's 256 bits before it looks at the counter, so a counter that
has reached a value above 256 is refused with 0xE006 and not accepted. The statement bounds neither the image's SVN nor the fuse rows in
that clause; the bar of the counterexample has a fuse row of more than 64 bits, by which its counter is 293 and its image's SVN 280.
Margin reads of 64 bits (`fuseWf`) would exclude it, but no hypothesis of the statement does. -/
theorem not_securityCommandsAnswer : ¬ Obligations.SecurityCommandsAnswer := by
  unfold Obligations.SecurityCommandsAnswer
  intro h
  let s : State := { State.reset with bar := overfusedBar }
  obtain ⟨-, commands⟩ := h.1 s 40 (by decide +kernel)
  obtain ⟨-, -, -, -, -, counters, -⟩ := commands (by decide +kernel)
  obtain ⟨reached, -⟩ := counters (by decide +kernel) (by decide +kernel) (by decide +kernel)
  have claimed := reached (by decide +kernel)
  have detail : (match exec (.advanceSvn 40 []) s with | .next u => u.bar.sdoM.lastDetail | _ => 0) = 0xE006 := by decide +kernel
  rw [show exec (.advanceSvn 40 []) s = _ from claimed] at detail
  exact absurd detail (by decide +kernel)

end Sys2Proof.Machine
end
